-- ==== Sys2Proof/Word.lean ====
section
/-! DEFINITION. The word types of the Gesjan 416: the 16-bit words of the common memory and the registers
(00_scope.md section 5.1), the bytes they are made of, and the 32-bit SECONDS values (R12). -/

namespace Sys2Proof

/-- A byte of the common memory or of the span link. -/
abbrev Byte := BitVec 8

/-- A 16-bit word, the unit of every host access (00_scope.md section 5.1). -/
abbrev Word := BitVec 16

/-- A 32-bit quantity: SECONDS and the times copied from it (R12, R183). -/
abbrev DWord := BitVec 32

/-- A byte offset within the common memory as the bus carries it on HA0-HA14 (R1). -/
abbrev Offset := BitVec 15

end Sys2Proof
end

