-- ==== Sys2Proof/Syntax.lean ====
section
/-! DEFINITION. The commands of the Gesjan 416: one constructor per row of spec/opcode_table.json, with the operands
that row's step takes. Host accesses carry what the bus carries: an access to a register carries its offset in the register
window, and the register it reaches is the one that HA1-HA3 choose (log entry 27); one written without an offset is the access
at the first offset of its row's register, and a START or SOFT_RESET without a value sets its one bit. Events of the part's own
blocks carry the name of the object they reach: what such an event delivers stands in State (the deliveries between blocks, the
timers, the card in the executor), and the command says that this event is taken next (log entry 2). -/

namespace Sys2Proof

/-- A pulse input: MP0-MP11 or TP0-TP7 (section 3.2). -/
inductive PulsePin where
  | mp (channel : Fin 12)
  | tp (fan : Fin 8)
  deriving DecidableEq, Repr

/-- The two ports of the span link (section 9.1). -/
inductive Port where
  | up | down
  deriving DecidableEq, Repr

/-- Where a queued notice came from (R175): the incident unit (LOCAL) or the other port (FORWARDED). -/
inductive NoticeOrigin where
  | own | forwarded
  deriving DecidableEq, Repr

/-- The commands, in the order of spec/opcode_table.json. -/
inductive Instr where
  /-- HOST_MEMORY_READ (R9) -/
  | hostMemoryRead (offset : Offset)
  /-- HOST_MEMORY_WRITE (R2) -/
  | hostMemoryWrite (offset : Offset) (value : Word)
  /-- IDENT_READ (R10): a register read -/
  | identRead (offset : Offset := 0x0)
  /-- START (R13): a register write -/
  | start (value : Word := 0x0001) (offset : Offset := 0x2)
  /-- SOFT_RESET (R16): a register write -/
  | softReset (value : Word := 0x0002) (offset : Offset := 0x2)
  /-- ATTENTION_CLEAR (R11): a register write -/
  | attentionClear (value : Word) (offset : Offset := 0x6)
  /-- ATTENTION_MASK_WRITE (R11): a register write -/
  | attentionMaskWrite (value : Word) (offset : Offset := 0x8)
  /-- SECONDS_LOW_READ (R12): a register read -/
  | secondsLowRead (offset : Offset := 0xA)
  /-- REGISTER_WRITE_DISCARDED (R10): a register write -/
  | registerWriteDiscarded (value : Word) (offset : Offset)
  /-- POWER_ON_RESET (R17): the RESET input is asserted -/
  | powerOnReset
  /-- RESET_RELEASE (R17) -/
  | resetRelease
  /-- ITEM_VALIDATION (R14) -/
  | itemValidation
  /-- SECONDS_INCREMENT (R12) -/
  | secondsIncrement
  /-- CONTROL_EVENT (R21) -/
  | controlEvent (deck : Fin 4)
  /-- POST_EVENT (R24) -/
  | postEvent (deck : Fin 4)
  /-- CARD_TAKE (R28) -/
  | cardTake
  /-- CARD_COMPLETION (R30) -/
  | cardCompletion (deck : Fin 4)
  /-- DEADLINE_EXPIRY (R35) -/
  | deadlineExpiry (deck : Fin 4)
  /-- MARK (R39) -/
  | markCard
  /-- LOAD (R40) -/
  | loadCard
  /-- READ (R68) -/
  | readCard
  /-- ZERO (R70) -/
  | zeroCard
  /-- CLEAR_SUMMARY (R69) -/
  | clearSummaryCard
  /-- CHANNEL_SERVICE (R66) -/
  | channelServiceCard
  /-- FAN_REQUEST (R105) -/
  | fanRequestCard
  /-- FAN_SERVICE (R100) -/
  | fanServiceCard
  /-- FAN_RESET (R107) -/
  | fanResetCard
  /-- DOOR_MODE (R125) -/
  | doorModeCard
  /-- DOOR_SERVICE (R126) -/
  | doorServiceCard
  /-- DOOR_RESET (R127) -/
  | doorResetCard
  /-- DECLARE (R136) -/
  | declareCard
  /-- ACKNOWLEDGE (R141) -/
  | acknowledgeCard
  /-- CLEAR (R143) -/
  | clearCard
  /-- CONTACT_CONFIRM (R44): the pin of contact input CIn stands at the level given and takes the tick's sample, if due -/
  | contactConfirm (input : Fin 36) (pin : Bool)
  /-- FAN_RUNNING_CONTACT (R95) -/
  | fanRunningContact (fan : Fin 8)
  /-- FAN_FAULT_CONTACT (R98) -/
  | fanFaultContact (fan : Fin 8)
  /-- FAN_LOCAL_CONTACT (R99) -/
  | fanLocalContact (fan : Fin 8)
  /-- DOOR_CLOSED_CONTACT (R113) -/
  | doorClosedContact (door : Fin 4)
  /-- DOOR_BOLTED_CONTACT (R114) -/
  | doorBoltedContact (door : Fin 4)
  /-- DOOR_PUSH_CONTACT (R117) -/
  | doorPushContact (door : Fin 4)
  /-- PULSE_COUNT (R49): the pin of a pulse input stands at the level given and takes the next sample, if due; with filter OFF
  its edge is taken -/
  | pulseCount (input : PulsePin) (pin : Bool)
  /-- GATE_WINDOW_END (R51) -/
  | gateWindowEnd (gate : Fin 4)
  /-- WINDOW_HANDOVER (R61) -/
  | windowHandover (channel : Fin 12)
  /-- TACH_HANDOVER (R104) -/
  | tachHandover (fan : Fin 8)
  /-- ZONE_REEVALUATION (R78) -/
  | zoneReevaluation (zone : Fin 8)
  /-- CONFIRM_TIMER_EXPIRY (R79) -/
  | confirmTimerExpiry (zone : Fin 8)
  /-- CREATION_REQUEST (R135) -/
  | creationRequest (zone : Fin 8)
  /-- SLOT_FREED (R81) -/
  | slotFreed (zone : Fin 8)
  /-- INCIDENT_FREED (R82) -/
  | incidentFreed (zone : Fin 8)
  /-- DEMAND_LEVEL_CHANGE (R89) -/
  | demandLevelChange (zone : Fin 8)
  /-- ZONE_LOAD_COMMIT (R89) -/
  | zoneLoadCommit
  /-- PLACEMENT_CHANGE (R90) -/
  | placementChange
  /-- GALLERY_DEMAND_CHANGE (R91) -/
  | galleryDemandChange
  /-- START_LIMIT_EXPIRY (R95) -/
  | startLimitExpiry (fan : Fin 8)
  /-- SETTLE_EXPIRY (R96) -/
  | settleExpiry (fan : Fin 8)
  /-- RUNDOWN_EXPIRY (R97) -/
  | rundownExpiry (fan : Fin 8)
  /-- AVAILABILITY_CHANGE (R152) -/
  | availabilityChange (fan : Fin 8)
  /-- FAN_ITEM_CHANGE (R152) -/
  | fanItemChange (fan : Fin 8)
  /-- GOVERNING_CHANGE (R152) -/
  | governingChange
  /-- DEFICIT_DELIVERY (R140) -/
  | deficitDelivery
  /-- INCIDENT_DELIVERY (R111) -/
  | incidentDelivery
  /-- PRESSURE_READING (R124) -/
  | pressureReading
  /-- BOLT_TIMER_EXPIRY (R114) -/
  | boltTimerExpiry (door : Fin 4)
  /-- RELIEF_CLOCK_EXPIRY (R117) -/
  | reliefClockExpiry (door : Fin 4)
  /-- ASSIST_TIMER_EXPIRY (R118) -/
  | assistTimerExpiry (door : Fin 4)
  /-- HELD_OPEN_EXPIRY (R119) -/
  | heldOpenExpiry (door : Fin 4)
  /-- NOTICE (R137) -/
  | notice
  /-- REFRESH_TIMER_EXPIRY (R142) -/
  | refreshTimerExpiry (slot : Fin 4)
  /-- STALE_TIMER_EXPIRY (R142) -/
  | staleTimerExpiry (slot : Fin 4)
  /-- CLEARING_TIMER_EXPIRY (R144) -/
  | clearingTimerExpiry (slot : Fin 4)
  /-- CLEARED_ENTRY_EXPIRY (R133) -/
  | clearedEntryExpiry
  /-- NOTICE_ENQUEUE (R176): the oldest notice handed to the port from that origin -/
  | noticeEnqueue (port : Port) (origin : NoticeOrigin)
  /-- FRAME_RECEIVE (R168): bytes arriving on the port's line without an idle line between them -/
  | frameReceive (port : Port) (bytes : List Byte)
  /-- INCOMPLETE_FRAME (R168) -/
  | incompleteFrame (port : Port)
  /-- HOLD (R179): the end of reception of a good HOLD frame with this hold time -/
  | hold (port : Port) (time : Byte)
  /-- HELLO_TAKEN (R172) -/
  | helloTaken (port : Port)
  /-- INCIDENT_FRAME_TAKEN (R169) -/
  | incidentFrameTaken (port : Port)
  /-- HELLO_TIMER_EXPIRY (R171) -/
  | helloTimerExpiry (port : Port)
  /-- AGING_TIMER_EXPIRY (R174) -/
  | agingTimerExpiry (port : Port)
  /-- HOLD_TIMER_EXPIRY (R179) -/
  | holdTimerExpiry (port : Port)
  /-- HOLD_REPEAT_EXPIRY (R170) -/
  | holdRepeatExpiry (port : Port)
  /-- FRAME_BEGIN (R178) -/
  | frameBegin (port : Port)
  /-- FRAME_END (R178) -/
  | frameEnd (port : Port)
  /-- SPEED_REFERENCE_PERIOD_START (R57) -/
  | speedReferencePeriodStart
  /-- LINE_IDLE_AFTER_REJECT (R168) -/
  | lineIdleAfterReject (port : Port)
  deriving DecidableEq, Repr

end Sys2Proof
end

