-- ==== Sys2Proof/Config.lean ====
section
/-! DEFINITION. What the silicon fixes (identification words, fixed durations, table sizes) and the types of the
configuration items (classes 0-8 of R14), whose validated values make up the active configuration.
The spec leaves no VALUE of any step open, so no free value stands here: every 'either may be taken first' is
resolved by the order of the commands in the queue (log entry 2). -/

namespace Sys2Proof.Machine

namespace Config

/-- IDENT's first word (R10, R184). -/
def familyCode : Word := 0x6A16
/-- IDENT's second word: the silicon this manual describes (R10). -/
def revision : Word := 0x0002
/-- Ticks of the 1 ms tick in one second (R12). -/
def ticksPerSecond : Nat := 1000
/-- Refresh timer of a local-origin record, in ticks (R142). -/
def refreshTicks : Nat := 2000
/-- Stale timer of a NOTICE record, in ticks (R142). -/
def staleTicks : Nat := 10000
/-- Clearing timer, in ticks (R144). -/
def clearingTicks : Nat := 2000
/-- Life of a cleared-identity list entry, in ticks (R133). -/
def clearedTicks : Nat := 30000
/-- CLEAR notices a record sends (R143). -/
def clearNotices : Nat := 3
/-- HELLO timer, in ticks (R171). -/
def helloTicks : Nat := 1000
/-- Aging timer of an UP port, in ticks (R172). -/
def agingTicks : Nat := 5000
/-- Hold-repeat timer, in ticks (R170). -/
def holdRepeatTicks : Nat := 2000
/-- Hold time of the HOLD a filling receive queue asks for (R170). -/
def holdFull : Byte := 255
/-- Idle line that ends a frame or an ignored run of bytes, in ticks (R168). -/
def idleTicks : Nat := 2
/-- Extra gap of the port whose own frame was the last on the line, in ticks (R166). -/
def ownGapTicks : Nat := 4
/-- Receive queue capacity in frames (R169). -/
def receiveCapacity : Nat := 4
/-- Frames at which the hold mark is set (R170). -/
def holdMarkSet : Nat := 3
/-- Frames at which the hold mark is released (R170). -/
def holdMarkRelease : Nat := 1
/-- Transmit queue capacity in entries (R175). -/
def transmitCapacity : Nat := 8
/-- Cleared-identity list capacity (R133). -/
def clearedCapacity : Nat := 8
/-- The value every count of the part saturates at (R49, R134, R168). -/
def countMax : Nat := 65535
/-- Samples of a FAST pulse filter in one 1 ms tick: 8000 a second (R48). -/
def samplesPerTick : Nat := 8

/-- The start marker of every link frame (R184). -/
def startMarker : Byte := 0x7E

end Config

/-- The part's four run states (section 1.6, codes of R184). -/
inductive RunState where
  | halted | starting | running | configFault
  deriving DecidableEq, Repr

/-- Why a configuration item fails (R14). -/
inductive ValReason where
  | range | order | reference
  deriving DecidableEq, Repr

/-- The tick of a gate timer (R50, R52). -/
inductive GateTick where
  | ms1 | ms10 | ms100 | s1
  deriving DecidableEq, Repr

/-- What a measurement channel measures (R60). -/
inductive ChannelKind where
  | co | no2 | opacity | velocity | pressure | generic
  deriving DecidableEq, Repr

/-- The filter in front of a counter (R48). -/
inductive FilterKind where
  | off | fast | slow
  deriving DecidableEq, Repr

/-- The role of a fan (R85). -/
inductive Role where
  | jet | gallery
  deriving DecidableEq, Repr

/-- Direction of air (00_scope.md section 5.3). -/
inductive Direction where
  | fwd | rev
  deriving DecidableEq, Repr

/-- The action of a template entry (R149). -/
inductive Action where
  | none | keep | stop | fwd | rev
  deriving DecidableEq, Repr

/-- The span item, class 0 (R14). -/
structure SpanItem where
  spanId : Byte
  firstNiche : Nat
  nicheCount : Nat
  galleryNiche : Nat
  doorReach : Nat
  galleryReach : Nat
  noticeReach : Nat
  startSlots : Nat
  fair : Bool
  deriving DecidableEq, Repr

/-- A gate item, class 1 (R52). -/
structure GateItem where
  tick : GateTick
  reload : Nat
  deriving DecidableEq, Repr

/-- A channel item, class 2 (R60). -/
structure ChannelItem where
  kind : ChannelKind
  zone : Option (Fin 8)
  gate : Fin 4
  filter : FilterKind
  zeroCount : Nat
  gain : Int
  floor : Nat
  ceiling : Nat
  fullScale : Int
  depth : Nat
  warnOn : Int
  warnOff : Int
  alarmOn : Int
  alarmOff : Int
  trigger : Bool
  deriving DecidableEq, Repr

/-- A zone item, class 3 (R74). -/
structure ZoneItem where
  first : Nat
  last : Nat
  centre : Nat
  confirmTime : Nat
  template : Fin 8
  mirror : Bool
  deriving DecidableEq, Repr

/-- The polarity and debounce time of one contact input (R42). -/
structure ContactSetting where
  activeLow : Bool
  debounceMs : Nat
  deriving DecidableEq, Repr

/-- A fan item, class 4 (R85). -/
structure FanItem where
  role : Role
  niche : Nat
  tachGate : Option (Fin 4)
  pulsesPerRev : Nat
  ratedRpm : Nat
  underspeedPercent : Nat
  settleTime : Nat
  startLimit : Nat
  rundownTime : Nat
  flyingRestart : Bool
  normalDirection : Direction
  speedL1 : Nat
  speedL2 : Nat
  running : ContactSetting
  fault : ContactSetting
  localSwitch : ContactSetting
  deriving DecidableEq, Repr

/-- The gallery item, class 5 (R122). -/
structure GalleryItem where
  pressuriseSpeed : Nat
  reliefSpeed : Nat
  outflowSpeed : Nat
  pressureChannel : Option (Fin 12)
  openLimit : Int
  deriving DecidableEq, Repr

/-- A door item, class 6 (R109). -/
structure DoorItem where
  niche : Nat
  initialSecure : Bool
  boltTime : Nat
  heldOpenTime : Nat
  reliefTime : Nat
  assistTime : Nat
  closed : ContactSetting
  bolted : ContactSetting
  push : ContactSetting
  deriving DecidableEq, Repr

/-- One entry of a template (R149). -/
structure TemplateEntry where
  action : Action
  speed : Nat
  deriving DecidableEq, Repr

/-- A template item, class 7: entry k stands for offset k - 7 (R149). -/
structure TemplateItem where
  entries : Vector TemplateEntry 15
  substitute : Bool
  minRunning : Nat
  deriving DecidableEq, Repr

/-- The link item, class 8 (R163). -/
structure LinkItem where
  upEnabled : Bool
  downEnabled : Bool
  deriving DecidableEq, Repr

/-- The 47 configuration items in use (R15). -/
structure ActiveConfig where
  span : SpanItem
  gates : Vector GateItem 4
  channels : Vector ChannelItem 12
  zones : Vector ZoneItem 8
  fans : Vector FanItem 8
  gallery : GalleryItem
  doors : Vector DoorItem 4
  templates : Vector TemplateItem 8
  link : LinkItem
  deriving DecidableEq, Repr

/-- The name of a configuration item: its class and its index (R14). -/
inductive ItemRef where
  | span
  | gate (i : Fin 4)
  | channel (i : Fin 12)
  | zone (i : Fin 8)
  | fan (i : Fin 8)
  | gallery
  | door (i : Fin 4)
  | template (i : Fin 8)
  | link
  deriving DecidableEq, Repr

/-- The items that words of zero spell: what stands in `active` while nothing is active (log entry 9). -/
def ActiveConfig.zero : ActiveConfig :=
  let contact : ContactSetting := { activeLow := false, debounceMs := 0 }
  { span := { spanId := 0, firstNiche := 0, nicheCount := 0, galleryNiche := 0, doorReach := 0, galleryReach := 0,
              noticeReach := 0, startSlots := 0, fair := false }
    gates := Vector.replicate 4 { tick := .ms1, reload := 0 }
    channels := Vector.replicate 12
      { kind := .co, zone := some 0, gate := 0, filter := .off, zeroCount := 0, gain := 0, floor := 0, ceiling := 0,
        fullScale := 0, depth := 0, warnOn := 0, warnOff := 0, alarmOn := 0, alarmOff := 0, trigger := false }
    zones := Vector.replicate 8
      { first := 0, last := 0, centre := 0, confirmTime := 0, template := 0, mirror := false }
    fans := Vector.replicate 8
      { role := .jet, niche := 0, tachGate := some 0, pulsesPerRev := 0, ratedRpm := 0, underspeedPercent := 0,
        settleTime := 0, startLimit := 0, rundownTime := 0, flyingRestart := false, normalDirection := .fwd,
        speedL1 := 0, speedL2 := 0, running := contact, fault := contact, localSwitch := contact }
    gallery := { pressuriseSpeed := 0, reliefSpeed := 0, outflowSpeed := 0, pressureChannel := some 0, openLimit := 0 }
    doors := Vector.replicate 4
      { niche := 0, initialSecure := false, boltTime := 0, heldOpenTime := 0, reliefTime := 0, assistTime := 0,
        closed := contact, bolted := contact, push := contact }
    templates := Vector.replicate 8
      { entries := Vector.replicate 15 { action := .none, speed := 0 }, substitute := false, minRunning := 0 }
    link := { upEnabled := false, downEnabled := false } }

end Sys2Proof.Machine
end

