-- ==== Sys2Proof/Machine/State.lean ====
section
/-! DEFINITION. The state of the Gesjan 416, block by block as 00_scope.md section 3 lists them, and its value right
after reset. Everything is plain data. Times of timers are ticks of the 1 ms tick (log entry 4): a timer is the tick at
which it expires, or none while it is stopped. Values that the image shows and that other state determines (RUN, BOLT,
a duty, a demand level, the image records) are computed where they are read and stand nowhere twice. -/

namespace Sys2Proof.Machine

/-! ## Common values -/

/-- An incident identity: origin span id and sequence, written span.seq (R132). -/
structure Ident where
  span : Byte
  seq : Byte
  deriving DecidableEq, Repr

/-- Alarm level of a channel (R64). -/
inductive Band where
  | normal | warn | alarm
  deriving DecidableEq, Repr

/-- Result of a channel's last window (R59). -/
inductive ChannelStatus where
  | none | ok | over | fault
  deriving DecidableEq, Repr

/-- The gallery demand (R123). -/
inductive GalleryDemand where
  | idle | pressurise | relief | outflow
  deriving DecidableEq, Repr

/-- What a fan is to do (R86): STOP, or RUN with a direction and a speed. -/
inductive Target where
  | stop
  | run (dir : Direction) (speed : Nat)
  deriving DecidableEq, Repr

/-- The state a link notice carries (R137, R184). -/
inductive NoticeState where
  | active | acknowledged | clear
  deriving DecidableEq, Repr

/-- A notice as the link carries it (section 9.2): fields as the frame holds them. -/
structure Notice where
  ident : Ident
  state : NoticeState
  position : Word
  template : Byte
  mirror : Byte
  age : Word
  hops : Byte
  deriving DecidableEq, Repr

/-- A window handed over by a counter (R51). -/
structure Window where
  count : Nat
  saturated : Bool
  lengthMs : Nat
  deriving DecidableEq, Repr

/-- A reading of the gallery pressure channel (R124). -/
structure Reading where
  status : ChannelStatus
  average : Option Int
  deriving DecidableEq, Repr

/-- What the incident unit tells the placement unit of the governing record (R140). -/
structure Governing where
  ident : Ident
  position : Nat
  template : Fin 8
  mirror : Bool
  deriving DecidableEq, Repr

/-! ## Image records and the common memory -/

/-- The 41 image records (section 1.3). -/
inductive RecordId where
  | channel (i : Fin 12)
  | fan (i : Fin 8)
  | door (i : Fin 4)
  | zone (i : Fin 8)
  | incident (i : Fin 4)
  | link (p : Port)
  | span
  | gallery
  | placement
  deriving DecidableEq, Repr

/-- The record latch when it holds a record: the record and the snapshot of its words (R9). -/
structure Latch where
  record : RecordId
  words : List Word
  deriving DecidableEq, Repr

/-- Bytes of the configuration block and the general area, as a canonical list (Ops: `Memory.wf`). -/
abbrev Memory := List Host.Cell

/-- The common memory: the host's bytes, the change masks (R7), the sequence of each image record (R6) and the
record latch (R9). Headers and image contents are read from the blocks that own them. -/
structure CommonMemory where
  bytes : Memory
  masks : Vector Word 8
  sequences : Vector Byte 41
  latch : Option Latch
  deriving DecidableEq, Repr

/-! ## Registers and run state -/

/-- The register file and the start-up machinery (sections 1.5, 1.6). -/
structure Registers where
  runState : RunState
  failClass : Nat
  failIndex : Nat
  failReason : Option ValReason
  identNext : Bool
  attention : Word
  attentionMask : Word
  seconds : DWord
  secondsHigh : Word
  nextItem : Nat
  deriving DecidableEq, Repr

/-! ## Decks and cards -/

/-- Deck processor states (section 2.1). -/
inductive DeckState where
  | off | waiting | running | suspendPending | suspended | stopped
  deriving DecidableEq, Repr

/-- Deck errors (section 2.1). -/
inductive DeckError where
  | none | header | postRange | postWithdraw
  deriving DecidableEq, Repr

/-- A watched host write, delivered to its deck processor (R5). -/
inductive DeckEvent where
  | control (value : Word)
  | post (value : Word)
  deriving DecidableEq, Repr

/-- The known card kinds (section 2.5). -/
inductive CardKind where
  | mark | load | read | zero | clearSummary | channelService | fanRequest | fanService | fanReset
  | doorMode | doorService | doorReset | declare | acknowledge | clear
  deriving DecidableEq, Repr

/-- Card outcomes (R33). -/
inductive CardOutcome where
  | done | accepted | deferred | overtaken | timedOut | refused
  deriving DecidableEq, Repr

/-- Refusal reasons (R32). -/
inductive CardReason where
  | none | badKind | badTarget | badArgument | badConfig | busy | notPermitted | tableFull | unknownId
  deriving DecidableEq, Repr

/-- The results r0-r3 of a completion: fixed words, or the status of a fan as it stands when the card completes
(R105, log entry 18). -/
inductive Results where
  | words (r0 r1 r2 r3 : Word)
  | fanStatus (fan : Fin 8)
  deriving DecidableEq, Repr

/-- An answer of an owning block, or the completion it sends (R28, R34). -/
structure Answer where
  outcome : CardOutcome
  reason : CardReason
  results : Results
  condition : Option Word
  deriving DecidableEq, Repr

/-- A card as the executor read it: its sixteen words (R28, R31). -/
structure Card where
  words : Vector Word 16
  deriving DecidableEq, Repr

/-- The card in flight of a deck (R20). Its attachment is held by the owning block. -/
structure InFlight where
  slot : Nat
  card : Card
  deadline : Option Nat
  deriving DecidableEq, Repr

/-- A completion between its two accesses: the card of this slot is written and the header write is still to come (R30);
`immediate` says that it answers the take at the executor (R28). -/
structure Finishing where
  slot : Nat
  notify : Bool
  immediate : Bool
  deriving DecidableEq, Repr

/-- A deck: the header words the host writes and the deck processor (R20). -/
structure Deck where
  baseWord : Word
  lengthWord : Word
  controlWord : Word
  postWord : Word
  state : DeckState
  error : DeckError
  seenEnable : Bool
  seenSuspend : Bool
  accepted : Nat
  done : Nat
  base : Nat
  length : Nat
  taken : Word
  inFlight : Option InFlight
  finishing : Option Finishing
  deriving DecidableEq, Repr

/-- The take in progress at the card executor (R27, R28): its deck, the executor's copy of the card, and the
immediate answer once the owning block has given it. -/
structure Take where
  deck : Fin 4
  card : Card
  answer : Option Answer
  deriving DecidableEq, Repr

/-! ## Inputs, counters, gates -/

/-- A contact input (R42); the pin level is the environment's, and `due` says that the sample of this tick is still to come
(R43). -/
structure Contact where
  pin : Bool
  activeLow : Bool
  debounceMs : Nat
  level : Bool
  candidate : Option Nat
  due : Bool
  deriving DecidableEq, Repr

/-- What a counter's windows are closed by (R49). -/
inductive Binding where
  | none
  | bound (gate : Fin 4)
  | pending (gate : Fin 4)
  deriving DecidableEq, Repr

/-- A pulse input with its filter (R48) and its counter (R49): `filter` is the setting in force and `next` the one that takes
effect at the next sample; `left` counts the samples of this tick still to come, at the rate of a FAST filter (R48). -/
structure Pulse where
  pin : Bool
  filter : FilterKind
  next : Option FilterKind
  level : Option Bool
  lastSample : Bool
  left : Nat
  count : Nat
  binding : Binding
  deriving DecidableEq, Repr

/-- A gate timer (R50). -/
structure Gate where
  tick : GateTick
  reload : Nat
  remaining : Nat
  windowStart : Nat
  pending : Option GateItem
  deriving DecidableEq, Repr

/-! ## Air measurement and zones -/

/-- A zero in progress, with the deck whose card is attached to it, if any (R59, R70). -/
structure ZeroPending where
  card : Option (Fin 4)
  deriving DecidableEq, Repr

/-- A channel entry (R59). -/
structure Channel where
  status : ChannelStatus
  history : List Int
  band : Band
  summary : Bool
  out : Bool
  zero : Option ZeroPending
  lastCount : Nat
  windowLength : Nat
  windowTime : DWord
  deriving DecidableEq, Repr

/-- Zone states (R75). -/
inductive ZoneState where
  | quiet | confirming | blocked | triggered | held
  deriving DecidableEq, Repr

/-- A running confirm timer: the SECONDS value it started at and the tick it expires at (R75, R79). -/
structure ConfirmTimer where
  since : DWord
  due : Nat
  deriving DecidableEq, Repr

/-- A zone entry (R75); the demand level is the worst band's (R76). -/
structure Zone where
  state : ZoneState
  worst : Band
  evidence : Bool
  confirm : Option ConfirmTimer
  ident : Option Ident
  deriving DecidableEq, Repr

/-- A creation request in its exchange (R80). -/
structure CreationRequest where
  position : Nat
  template : Fin 8
  mirror : Bool
  evidence : List (Fin 12)
  deriving DecidableEq, Repr

/-! ## Fans -/

/-- Fan states (R86). -/
inductive FanState where
  | stopped | queued | starting | running | stopping | faulted | localPanel | service
  deriving DecidableEq, Repr

/-- Fan fault causes (R86). -/
inductive FanFault where
  | none | startFailed | driveFault | feedbackLost
  deriving DecidableEq, Repr

/-- A fan's owner, in rank order (R87). -/
inductive Owner where
  | service | localPanel | incident | gallery | host
  deriving DecidableEq, Repr

/-- The host request (R86). -/
inductive HostRequest where
  | manual (dir : Direction) (speed : Nat)
  | auto
  deriving DecidableEq, Repr

/-- The action of a placement list entry (R90). -/
inductive PlacedAction where
  | keep
  | stop
  | run (dir : Direction) (speed : Nat)
  deriving DecidableEq, Repr

/-- A fan entry (R86), with the contact levels the controller has recorded (R46) and the REVERSE output (R93). -/
structure Fan where
  state : FanState
  out : Bool
  cause : FanFault
  request : HostRequest
  incident : Option PlacedAction
  entryTarget : Option Target
  owner : Owner
  target : Target
  rundownFrom : Nat
  startLimitDue : Option Nat
  settleDue : Option Nat
  supervised : Bool
  underspeed : Bool
  lastRpm : Nat
  attached : List (Fin 4)
  demand : Nat
  reverse : Bool
  running : Bool
  fault : Bool
  localSwitch : Bool
  entered : DWord
  deriving DecidableEq, Repr

/-- The fan controller: fan table, start queue (R102), and its copies of zone demand levels (R89) and of the
gallery demand (R91). -/
structure FanUnit where
  fans : Vector Fan 8
  queue : List (Fin 8)
  zoneDemand : Vector Nat 8
  galleryDemand : GalleryDemand
  deriving DecidableEq, Repr

/-! ## Doors and gallery -/

/-- Door states (R110). -/
inductive DoorState where
  | released | bolting | secured | opening | openLeaf | heldOpen | forced | fault | service
  deriving DecidableEq, Repr

/-- How ASSIST last came on (R110). -/
inductive AssistPath where
  | none | pressure | time
  deriving DecidableEq, Repr

/-- A door entry (R110). -/
structure Door where
  state : DoorState
  secureMode : Bool
  secureWanted : Bool
  boltFault : Bool
  forcedFlag : Bool
  heldOpenFlag : Bool
  assistTimeoutFlag : Bool
  path : AssistPath
  assist : Bool
  boltDue : Option Nat
  heldOpenDue : Option Nat
  reliefDue : Option Nat
  assistDue : Option Nat
  closed : Bool
  bolted : Bool
  push : Bool
  entered : DWord
  deriving DecidableEq, Repr

/-- An entry of the reach list (R111). -/
structure ReachEntry where
  ident : Ident
  position : Nat
  deriving DecidableEq, Repr

/-- The door controller (R110, R111, R123, R124). -/
structure DoorUnit where
  doors : Vector Door 4
  reach : List ReachEntry
  demand : GalleryDemand
  demandEntered : DWord
  pressure : Reading
  deriving DecidableEq, Repr

/-! ## Incidents -/

/-- Origin of an incident record (R130). -/
inductive Origin where
  | detected | declared | notice
  deriving DecidableEq, Repr

/-- State of an incident record (R130); an EMPTY slot is the slot holding none. -/
inductive IncidentState where
  | active | acknowledged | stale | clearing
  deriving DecidableEq, Repr

/-- An incident record (R130). Start times are the 32 bits of a signed count of seconds (log entry 21). -/
structure Incident where
  ident : Ident
  origin : Origin
  state : IncidentState
  resumeAcknowledged : Bool
  position : Nat
  zone : Option (Fin 8)
  template : Fin 8
  mirror : Bool
  start : DWord
  lastRefresh : DWord
  evidence : List (Fin 12)
  deficit : Nat
  governing : Bool
  clearLeft : Nat
  refreshDue : Option Nat
  staleDue : Option Nat
  clearingDue : Option Nat
  entered : DWord
  deriving DecidableEq, Repr

/-- An entry of the cleared-identity list: the identity, the SECONDS value and the tick it expires at (R133). -/
structure ClearedEntry where
  ident : Ident
  joined : DWord
  due : Nat
  deriving DecidableEq, Repr

/-- The incident unit (R130, R132, R133, R134). -/
structure IncidentUnit where
  slots : Vector (Option Incident) 4
  cleared : List ClearedEntry
  localSeq : Byte
  overflow : Bool
  overflowCount : Nat
  deriving DecidableEq, Repr

/-- What the incident unit delivers to the door controller (R131): the new state, or none for freed. -/
structure IncidentDelivery where
  ident : Ident
  position : Nat
  state : Option IncidentState
  deriving DecidableEq, Repr

/-! ## Placement -/

/-- An entry of the placement list (R151); `standsFor` is present exactly with origin SUBSTITUTE. -/
structure ListEntry where
  fan : Fin 8
  action : PlacedAction
  standsFor : Option (Fin 8)
  deriving DecidableEq, Repr

/-- The placement record (R151). -/
structure PlacementRecord where
  governing : Option Governing
  list : List ListEntry
  running : Nat
  unmet : Nat
  unmetFans : List (Fin 8)
  deficit : Nat
  time : DWord
  deriving DecidableEq, Repr

/-- The placement unit (R151). -/
structure PlacementUnit where
  governing : Option Governing
  available : Vector Bool 8
  record : PlacementRecord
  deriving DecidableEq, Repr

/-! ## Span link -/

/-- What a HELLO carries (section 9.2); the governing identity may be none (R183). -/
structure Hello where
  spanId : Byte
  firstNiche : Word
  nicheCount : Byte
  governing : Option Ident
  deriving DecidableEq, Repr

/-- A good frame in the receive queue (R169). -/
inductive Frame where
  | hello (h : Hello)
  | incident (n : Notice)
  deriving DecidableEq, Repr

/-- A notice with its joining time (R175). -/
structure QueuedNotice where
  notice : Notice
  origin : NoticeOrigin
  joined : DWord
  deriving DecidableEq, Repr

/-- An entry of a transmit queue (R175). -/
inductive TxEntry where
  | notice (q : QueuedNotice)
  | hello
  deriving DecidableEq, Repr

/-- The neighbour entry of a port that is UP (R172). -/
structure Neighbour where
  hello : Hello
  lastHeard : DWord
  migrated : Bool
  previous : Byte
  deriving DecidableEq, Repr

/-- The frame in transmission: its bytes and the tick it began at (R178). -/
structure Transmission where
  bytes : List Byte
  began : Nat
  deriving DecidableEq, Repr

/-- One port of the span link (R163 to R182). The port is UP exactly while it holds a neighbour entry (R172). -/
structure PortState where
  neighbour : Option Neighbour
  agingDue : Option Nat
  receiveQueue : List Frame
  transmitQueue : List TxEntry
  transmission : Option Transmission
  holdDue : Option Nat
  holdShown : Byte
  helloDue : Option Nat
  holdRepeatDue : Option Nat
  pendingHold : Option Byte
  holdMark : Bool
  ownLast : Bool
  idleSince : Nat
  receiving : List Byte
  ignoring : Bool
  rejected : Nat
  overrun : Nat
  dropped : Nat
  deriving DecidableEq, Repr

/-- The span link controller: both ports and the bypass relay (R165). -/
structure LinkUnit where
  up : PortState
  down : PortState
  relay : Bool
  deriving DecidableEq, Repr

/-! ## Deliveries between blocks -/

/-- Notices handed to one port and not yet enqueued, by origin (R176). -/
structure PortMail where
  own : List QueuedNotice
  forwarded : List QueuedNotice
  deriving DecidableEq, Repr

/-- The deliveries between blocks that have been sent and not yet taken, oldest first in each list (log entry 5). -/
structure Mail where
  deckEvents : Vector (List DeckEvent) 4
  completions : Vector (Option Answer) 4
  contactChanges : Vector (List Bool) 36
  windows : Vector (List Window) 12
  tachWindows : Vector (List Window) 8
  reevaluations : Vector Nat 8
  requests : Vector (Option CreationRequest) 8
  slotFreed : Vector Nat 8
  incidentFreed : Vector (List Ident) 8
  demandLevels : Vector (List Nat) 8
  zoneCommits : List (Fin 8)
  placements : List (List ListEntry)
  galleryDemands : List GalleryDemand
  availability : Vector (List Bool) 8
  fanItems : Vector Nat 8
  governing : List (Option Governing)
  deficits : List Nat
  incidents : List IncidentDelivery
  readings : List Reading
  notices : List Notice
  up : PortMail
  down : PortMail
  deriving DecidableEq, Repr

/-! ## The machine -/

/-- Raised by no command: the manual gives every access and every event an effect, so the block never stops
(INVENTORY.md, Faults). Safe: nothing is left out by it. -/
inductive Fault where
  deriving DecidableEq, Repr

/-- Refusals. -/
inductive Refusal where
  /-- Raised by an arm of exec whose command has no meaning yet. Safe: the model stops. No arm uses it. -/
  | notModelled (mnemonic : String)
  deriving DecidableEq, Repr

/-- The state of the part, with the queue of commands that are waiting. -/
structure State where
  pending : List Instr
  now : Nat
  secondsDue : Nat
  periodDue : Bool
  hd : Word
  resetAsserted : Bool
  regs : Registers
  cm : CommonMemory
  candidate : ActiveConfig
  active : ActiveConfig
  decks : Vector Deck 4
  executor : Option Take
  lastGranted : Fin 4
  contacts : Vector Contact 36
  measured : Vector Pulse 12
  tach : Vector Pulse 8
  gates : Vector Gate 4
  sref : Vector Nat 8
  channels : Vector Channel 12
  zones : Vector Zone 8
  fans : FanUnit
  doors : DoorUnit
  incidents : IncidentUnit
  placement : PlacementUnit
  link : LinkUnit
  mail : Mail
  deriving DecidableEq, Repr

/-! ## Reset values -/

/-- A deck processor after reset, headers zero (R20; the copies of base and length: log entry 53). -/
def Deck.reset : Deck :=
  { baseWord := 0, lengthWord := 0, controlWord := 0, postWord := 0, state := .off, error := .none,
    seenEnable := false, seenSuspend := false, accepted := 0, done := 0, base := 0, length := 0, taken := 0,
    inFlight := none, finishing := none }

/-- A contact input after reset (R42). -/
def Contact.reset : Contact :=
  { pin := false, activeLow := false, debounceMs := 16, level := false, candidate := none, due := false }

/-- A pulse input after reset: filtered level low, count 0 (R48, R49; filter and binding: log entry 11). -/
def Pulse.reset : Pulse :=
  { pin := false, filter := .fast, next := none, level := some false, lastSample := false, left := 0, count := 0, binding := .none }

/-- A gate timer after reset (R50). -/
def Gate.reset : Gate := { tick := .ms1, reload := 1, remaining := 0, windowStart := 0, pending := none }

/-- A channel entry after reset (R59). -/
def Channel.reset : Channel :=
  { status := .none, history := [], band := .normal, summary := false, out := false, zero := none, lastCount := 0,
    windowLength := 0, windowTime := 0 }

/-- A zone entry after reset (R75). -/
def Zone.reset : Zone := { state := .quiet, worst := .normal, evidence := false, confirm := none, ident := none }

/-- A fan entry after reset (R86; the rundown clock and the direction of MANUAL stop: log entries 54, 55). -/
def Fan.reset : Fan :=
  { state := .stopped, out := false, cause := .none, request := .manual .fwd 0, incident := none, entryTarget := none,
    owner := .host, target := .stop, rundownFrom := 0, startLimitDue := none, settleDue := none, supervised := false,
    underspeed := false, lastRpm := 0, attached := [], demand := 0, reverse := false, running := false, fault := false,
    localSwitch := false, entered := 0 }

/-- The fan controller after reset (R86, R89). -/
def FanUnit.reset : FanUnit :=
  { fans := Vector.replicate 8 Fan.reset, queue := [], zoneDemand := Vector.replicate 8 0, galleryDemand := .idle }

/-- A door entry after reset (R110). -/
def Door.reset : Door :=
  { state := .released, secureMode := false, secureWanted := false, boltFault := false, forcedFlag := false,
    heldOpenFlag := false, assistTimeoutFlag := false, path := .none, assist := false, boltDue := none,
    heldOpenDue := none, reliefDue := none, assistDue := none, closed := false, bolted := false, push := false,
    entered := 0 }

/-- The copy of the pressure reading that holds no reading (R124). -/
def Reading.absent : Reading := { status := .none, average := none }

/-- The door controller after reset (R110, R111, R123, R124). -/
def DoorUnit.reset : DoorUnit :=
  { doors := Vector.replicate 4 Door.reset, reach := [], demand := .idle, demandEntered := 0, pressure := .absent }

/-- The incident unit after reset (R130). -/
def IncidentUnit.reset : IncidentUnit :=
  { slots := Vector.replicate 4 none, cleared := [], localSeq := 0, overflow := false, overflowCount := 0 }

/-- The empty placement record (R151). -/
def PlacementRecord.empty : PlacementRecord :=
  { governing := none, list := [], running := 0, unmet := 0, unmetFans := [], deficit := 0, time := 0 }

/-- The placement unit after reset (R151). -/
def PlacementUnit.reset : PlacementUnit :=
  { governing := none, available := Vector.replicate 8 true, record := .empty }

/-- A port after reset (R163). -/
def PortState.reset : PortState :=
  { neighbour := none, agingDue := none, receiveQueue := [], transmitQueue := [], transmission := none, holdDue := none,
    holdShown := 0, helloDue := none, holdRepeatDue := none, pendingHold := none, holdMark := false, ownLast := false,
    idleSince := 0, receiving := [], ignoring := false, rejected := 0, overrun := 0, dropped := 0 }

/-- The span link controller after reset (R163, R165). -/
def LinkUnit.reset : LinkUnit := { up := .reset, down := .reset, relay := false }

/-- No delivery outstanding. -/
def Mail.empty : Mail :=
  { deckEvents := Vector.replicate 4 [], completions := Vector.replicate 4 none,
    contactChanges := Vector.replicate 36 [], windows := Vector.replicate 12 [], tachWindows := Vector.replicate 8 [],
    reevaluations := Vector.replicate 8 0, requests := Vector.replicate 8 none, slotFreed := Vector.replicate 8 0,
    incidentFreed := Vector.replicate 8 [], demandLevels := Vector.replicate 8 [], zoneCommits := [], placements := [],
    galleryDemands := [], availability := Vector.replicate 8 [], fanItems := Vector.replicate 8 0, governing := [],
    deficits := [], incidents := [], readings := [], notices := [], up := { own := [], forwarded := [] },
    down := { own := [], forwarded := [] } }

/-- The registers after reset (section 1.5). -/
def Registers.reset : Registers :=
  { runState := .halted, failClass := 0, failIndex := 0, failReason := none, identNext := false, attention := 0,
    attentionMask := 0, seconds := 0, secondsHigh := 0, nextItem := 0 }

/-- The part right after a power-on reset, with the RESET input released (R17): HALTED, the whole memory zero. (The last-granted
deck is given on entering RUNNING alone, R27: log entry 62.) -/
def State.reset : State :=
  { pending := [], now := 0, secondsDue := 0, periodDue := false, hd := 0, resetAsserted := false, regs := .reset,
    cm := { bytes := [], masks := Vector.replicate 8 0, sequences := Vector.replicate 41 0, latch := none },
    candidate := ActiveConfig.zero, active := ActiveConfig.zero, decks := Vector.replicate 4 Deck.reset, executor := none, lastGranted := 3,
    contacts := Vector.replicate 36 Contact.reset, measured := Vector.replicate 12 Pulse.reset,
    tach := Vector.replicate 8 Pulse.reset, gates := Vector.replicate 4 Gate.reset, sref := Vector.replicate 8 0,
    channels := Vector.replicate 12 Channel.reset, zones := Vector.replicate 8 Zone.reset, fans := .reset,
    doors := .reset, incidents := .reset, placement := .reset, link := .reset, mail := .empty }

end Sys2Proof.Machine
end

