-- ==== Sys2Proof/Machine/Ops.lean ====
section
/-! DEFINITION. Shared operations: the bytes of a word, the sparse memory (section 1.1), tables, timers and counts. -/

namespace Sys2Proof.Machine

/-! ## Words and bytes (00_scope.md section 5.1, R183) -/

/-- The low byte of a word. -/
def lowByte (w : Word) : Byte := w.setWidth 8

/-- The high byte of a word. -/
def highByte (w : Word) : Byte := (w >>> 8).setWidth 8

/-- The word holding two bytes, the low byte named first (chapter 10). -/
def wordOf (low high : Byte) : Word := high.setWidth 16 <<< 8 ||| low.setWidth 16

/-- The word holding two small numbers, the low byte named first. -/
def packed (low high : Nat) : Word := wordOf (BitVec.ofNat 8 low) (BitVec.ofNat 8 high)

/-- The word of a number. -/
def wordNat (n : Nat) : Word := BitVec.ofNat 16 n

/-- The word of a signed quantity (two's complement, 00_scope.md section 5.1). -/
def wordInt (i : Int) : Word := BitVec.ofInt 16 i

/-- The low word of a 32-bit field, which comes first (chapter 10). -/
def dwordLow (d : DWord) : Word := d.setWidth 16

/-- The high word of a 32-bit field. -/
def dwordHigh (d : DWord) : Word := (d >>> 16).setWidth 16

/-- The two words of a 32-bit field, low word first (chapter 10). -/
def dwordWords (d : DWord) : List Word := [dwordLow d, dwordHigh d]

/-- Bit n of a word of flags. -/
def flagBit (n : Nat) (b : Bool) : Word := if b then 1#16 <<< n else 0

/-- The word with the bits n below `count` for which `f` holds. -/
def bitsOf (count : Nat) (f : Nat → Bool) : Word :=
  (List.range count).foldl (fun acc n => acc ||| flagBit n (f n)) 0

/-- 0 or 1. -/
def boolNat (b : Bool) : Nat := if b then 1 else 0

/-- The identity form of a word: origin span id in the high byte, sequence in the low byte (R183). -/
def Ident.word (i : Ident) : Word := wordOf i.seq i.span

/-- Identity none: 0xFF in both bytes (R183). -/
def identNone : Word := 0xFFFF

/-- The word of an identity or of none. -/
def identWord (i : Option Ident) : Word := (i.map Ident.word).getD identNone

/-- The identity a word holds (R183). -/
def Ident.ofWord (w : Word) : Ident := { span := highByte w, seq := lowByte w }

/-- The identity a word holds, or none: the part tests only the high byte for none (R183). -/
def identOfWord (w : Word) : Option Ident := if highByte w = 0xFF then none else some (Ident.ofWord w)

/-- A span id names a span when it lies in 1-254 (00_scope.md section 5.5). -/
def validSpan (b : Byte) : Bool := 1 ≤ b.toNat && b.toNat ≤ 254

/-! ## Memory: the configuration block and the general area -/

/-- What an unlisted address reads as: zero, as after a power-on reset (R17). -/
def Memory.blank : Byte := 0

/-- The byte at an address. -/
def Memory.read (m : Memory) (a : Nat) : Byte :=
  match m with
  | [] => Memory.blank
  | (k, v) :: rest => if k = a then v else Memory.read rest a

/-- Puts a byte at an address; a blank byte leaves no entry. -/
def Memory.write (m : Memory) (a : Nat) (b : Byte) : Memory :=
  match m with
  | [] => if b = Memory.blank then [] else [(a, b)]
  | (k, v) :: rest =>
    if k < a then (k, v) :: Memory.write rest a b
    else if k = a then (if b = Memory.blank then rest else (a, b) :: rest)
    else (if b = Memory.blank then (k, v) :: rest else (a, b) :: (k, v) :: rest)

/-- Every key of a list is above a bound, the keys rise strictly, and no entry is blank. -/
def Memory.wfAbove (bound : Option Nat) (m : Memory) : Bool :=
  match m with
  | [] => true
  | (k, v) :: rest => (match bound with | none => true | some b => decide (b < k)) && (v != Memory.blank) &&
      Memory.wfAbove (some k) rest

/-- The canonical form: addresses strictly rising, no entry equal to what an unlisted address reads as. -/
def Memory.wf (m : Memory) : Bool := Memory.wfAbove none m

/-- The word at an even address, little-endian (00_scope.md section 5.1). -/
def Memory.readWord (m : Memory) (a : Nat) : Word := wordOf (m.read a) (m.read (a + 1))

/-- Writes the word at an even address, little-endian. -/
def Memory.writeWord (m : Memory) (a : Nat) (w : Word) : Memory := (m.write a (lowByte w)).write (a + 1) (highByte w)

/-- Writes words at successive even addresses. -/
def Memory.writeWords (m : Memory) (a : Nat) (ws : List Word) : Memory :=
  match ws with
  | [] => m
  | w :: rest => Memory.writeWords (m.writeWord a w) (a + 2) rest

/-! ## Tables -/

/-- Changes one entry of a table. -/
def modify {α : Type} {n : Nat} (v : Vector α n) (i : Fin n) (f : α → α) : Vector α n := v.set i (f v[i])

/-- Applies a function to every entry of a table. -/
def mapTable {α β : Type} {n : Nat} (v : Vector α n) (f : α → β) : Vector β n := Vector.ofFn fun i => f v[i]

/-- Some entry of a table satisfies a test. -/
def anyEntry {α : Type} {n : Nat} (v : Vector α n) (f : α → Bool) : Bool := (List.finRange n).any fun i => f v[i]

/-! ## Time and counts -/

/-- A timer has expired: it runs and its full duration has been counted out (00_scope.md section 5.2). -/
def expired (due : Option Nat) (now : Nat) : Bool :=
  match due with
  | none => false
  | some t => decide (t ≤ now)

/-- Seconds in ticks of the 1 ms tick (R12). -/
def seconds (s : Nat) : Nat := s * Config.ticksPerSecond

/-- Adds one, saturating at 65535 (R49, R134, R168). -/
def satSucc (n : Nat) : Nat := if n < Config.countMax then n + 1 else n

/-- Clips to 0-65535 (R142, R178). -/
def clip16 (i : Int) : Nat := if i < 0 then 0 else if 65535 < i then 65535 else i.toNat

/-- What every block reads besides its own state: the active configuration, the tick count and SECONDS. -/
structure Ctx where
  cfg : ActiveConfig
  now : Nat
  sec : DWord
  deriving DecidableEq, Repr

/-- The part's context at this moment. -/
def State.ctx (s : State) : Ctx := { cfg := s.active, now := s.now, sec := s.regs.seconds }

/-- The part is RUNNING and its RESET input is released. -/
def State.running (s : State) : Bool := decide (s.regs.runState = .running) && !s.resetAsserted

/-- Port UP or DOWN of the link. -/
def LinkUnit.get (l : LinkUnit) (p : Port) : PortState :=
  match p with
  | .up => l.up
  | .down => l.down

/-- Replaces the state of a port. -/
def LinkUnit.set (l : LinkUnit) (p : Port) (x : PortState) : LinkUnit :=
  match p with
  | .up => { l with up := x }
  | .down => { l with down := x }

/-- The port at the other side of the part (R180). -/
def otherPort (p : Port) : Port :=
  match p with
  | .up => .down
  | .down => .up

/-- A port's enabled flag in the active link item (R163). -/
def portEnabled (cfg : ActiveConfig) (p : Port) : Bool :=
  match p with
  | .up => cfg.link.upEnabled
  | .down => cfg.link.downEnabled

end Sys2Proof.Machine
end

