-- ==== Sys2Proof/Machine/Operands.lean ====
section
/-! DEFINITION. The operand forms: the fields of a card (section 10.4) and the configuration items, where they lie, how their words
are read and what is checked of each (R14, R18, R19 and the item rules of each chapter). -/

namespace Sys2Proof.Machine

/-! ## Cards (section 10.4) -/

/-- The card kinds by their codes (R183). -/
def CardKind.ofCode (b : Byte) : Option CardKind :=
  match b.toNat with
  | 1 => some .mark
  | 2 => some .load
  | 3 => some .read
  | 4 => some .zero
  | 5 => some .clearSummary
  | 6 => some .channelService
  | 7 => some .fanRequest
  | 8 => some .fanService
  | 9 => some .fanReset
  | 10 => some .doorMode
  | 11 => some .doorService
  | 12 => some .doorReset
  | 13 => some .declare
  | 14 => some .acknowledge
  | 15 => some .clear
  | _ => none

/-- The kind of a card, or none for an unknown code. -/
def Card.kind (c : Card) : Option CardKind := CardKind.ofCode (lowByte c.words[0])
/-- NOTIFY: bit 0 of the flags byte. -/
def Card.notify (c : Card) : Bool := (highByte c.words[0]).getLsbD 0
/-- WAIT: bit 1 of the flags byte. -/
def Card.wait (c : Card) : Bool := (highByte c.words[0]).getLsbD 1
/-- RECORD: bit 2 of the flags byte. -/
def Card.record (c : Card) : Bool := (highByte c.words[0]).getLsbD 2
/-- The target word. -/
def Card.target (c : Card) : Word := c.words[1]
/-- Argument a0. -/
def Card.a0 (c : Card) : Word := c.words[2]
/-- Argument a1. -/
def Card.a1 (c : Card) : Word := c.words[3]
/-- Argument a2. -/
def Card.a2 (c : Card) : Word := c.words[4]
/-- The deadline in seconds. -/
def Card.deadline (c : Card) : Nat := c.words[6].toNat

/-- The object a target word names: its low byte, with the high byte 0 and the index in range (section 10.4). -/
def targetIndex (n : Nat) (w : Word) : Option (Fin n) :=
  if h : w.toNat < n then some ⟨w.toNat, h⟩ else none

/-- Reads the sixteen words of the card at a memory offset, as one internal access (R28). -/
def readCard (m : Memory) (at_ : Nat) : Card := { words := Vector.ofFn fun (k : Fin 16) => m.readWord (at_ + 2 * k.val) }

/-! ## Where the items lie (section 10.2) -/

/-- The class number of an item (R14). -/
def ItemRef.classNo (r : ItemRef) : Nat :=
  match r with
  | .span => 0
  | .gate _ => 1
  | .channel _ => 2
  | .zone _ => 3
  | .fan _ => 4
  | .gallery => 5
  | .door _ => 6
  | .template _ => 7
  | .link => 8

/-- The index of an item within its class. -/
def ItemRef.index (r : ItemRef) : Nat :=
  match r with
  | .span => 0
  | .gate i => i.val
  | .channel i => i.val
  | .zone i => i.val
  | .fan i => i.val
  | .gallery => 0
  | .door i => i.val
  | .template i => i.val
  | .link => 0

/-- The offset of an item in the configuration block. -/
def ItemRef.address (r : ItemRef) : Nat :=
  match r with
  | .span => 0x0000
  | .gate i => 0x0020 + 4 * i.val
  | .channel i => 0x0040 + 32 * i.val
  | .zone i => 0x01C0 + 16 * i.val
  | .fan i => 0x0240 + 32 * i.val
  | .gallery => 0x0340
  | .door i => 0x0350 + 32 * i.val
  | .template i => 0x03D0 + 40 * i.val
  | .link => 0x0510

/-- The item a class number and an index name, or none (R18). -/
def ItemRef.ofCodes (classNo index : Nat) : Option ItemRef :=
  match classNo with
  | 0 => if index = 0 then some .span else none
  | 1 => if h : index < 4 then some (.gate ⟨index, h⟩) else none
  | 2 => if h : index < 12 then some (.channel ⟨index, h⟩) else none
  | 3 => if h : index < 8 then some (.zone ⟨index, h⟩) else none
  | 4 => if h : index < 8 then some (.fan ⟨index, h⟩) else none
  | 5 => if index = 0 then some .gallery else none
  | 6 => if h : index < 4 then some (.door ⟨index, h⟩) else none
  | 7 => if h : index < 8 then some (.template ⟨index, h⟩) else none
  | 8 => if index = 0 then some .link else none
  | _ => none

/-- Items of each class, in class order (R14). -/
def classSizes : List Nat := [1, 4, 12, 8, 8, 1, 4, 8, 1]

/-- The nth item to be validated at start-up, counting from 0 in class and index order (R14). -/
def startItemFrom (sizes : List Nat) (classNo n : Nat) : Option ItemRef :=
  match sizes with
  | [] => none
  | size :: rest => if n < size then ItemRef.ofCodes classNo n else startItemFrom rest (classNo + 1) (n - size)

/-- The nth item to be validated at start-up (R14). -/
def startItem (n : Nat) : Option ItemRef := startItemFrom classSizes 0 n

/-- The number of items (R14). -/
def itemCount : Nat := 47

/-- Field k of an item, read from the configuration block (section 10.2). -/
def itemField (m : Memory) (r : ItemRef) (k : Nat) : Word := m.readWord (r.address + 2 * k)

/-! ## Reading the fields -/

/-- 'Index or none': 255 stands for none (section 10.2). -/
def indexOrNone (n : Nat) (w : Word) : Option (Fin n) := targetIndex n w

/-- An index field that the checks hold in range. -/
def indexField (n : Nat) (h : 0 < n) (w : Word) : Fin n := ⟨w.toNat % n, Nat.mod_lt _ h⟩

/-- A contact field: polarity in the low byte, debounce code in the high byte (R42, section 10.2). -/
def contactOfWord (w : Word) : ContactSetting :=
  { activeLow := lowByte w == 1
    debounceMs := match (highByte w).toNat with
      | 0 => 0
      | 1 => 4
      | 2 => 16
      | _ => 64 }

/-- The action of a template entry by its code (R149, R183). -/
def Action.ofCode (b : Byte) : Action :=
  match b.toNat with
  | 1 => .keep
  | 2 => .stop
  | 3 => .fwd
  | 4 => .rev
  | _ => .none

/-- The span item that field words spell (R14). -/
def SpanItem.ofWords (w : Nat → Word) : SpanItem :=
  { spanId := lowByte (w 0), firstNiche := (w 1).toNat, nicheCount := (w 2).toNat, galleryNiche := (w 3).toNat,
    doorReach := (w 4).toNat, galleryReach := (w 5).toNat, noticeReach := (w 6).toNat, startSlots := (w 7).toNat,
    fair := w 8 == 1 }

/-- The gate item that field words spell (R52). -/
def GateItem.ofWords (w : Nat → Word) : GateItem :=
  { tick := match (w 0).toNat with
      | 0 => .ms1
      | 1 => .ms10
      | 2 => .ms100
      | _ => .s1
    reload := (w 1).toNat }

/-- The channel item that field words spell (R60). -/
def ChannelItem.ofWords (w : Nat → Word) : ChannelItem :=
  { kind := match (w 0).toNat with
      | 0 => .co
      | 1 => .no2
      | 2 => .opacity
      | 3 => .velocity
      | 4 => .pressure
      | _ => .generic
    zone := indexOrNone 8 (w 1)
    gate := indexField 4 (by decide) (w 2)
    filter := match (w 3).toNat with
      | 0 => .off
      | 1 => .fast
      | _ => .slow
    zeroCount := (w 4).toNat, gain := (w 5).toInt, floor := (w 6).toNat, ceiling := (w 7).toNat,
    fullScale := (w 8).toInt, depth := (w 9).toNat, warnOn := (w 10).toInt, warnOff := (w 11).toInt,
    alarmOn := (w 12).toInt, alarmOff := (w 13).toInt, trigger := w 14 == 1 }

/-- The zone item that field words spell (R74). -/
def ZoneItem.ofWords (w : Nat → Word) : ZoneItem :=
  { first := (w 0).toNat, last := (w 1).toNat, centre := (w 2).toNat, confirmTime := (w 3).toNat,
    template := indexField 8 (by decide) (w 4), mirror := w 5 == 1 }

/-- The fan item that field words spell (R85). -/
def FanItem.ofWords (w : Nat → Word) : FanItem :=
  { role := if w 0 == 1 then .gallery else .jet
    niche := (w 1).toNat, tachGate := indexOrNone 4 (w 2), pulsesPerRev := (w 3).toNat, ratedRpm := (w 4).toNat,
    underspeedPercent := (w 5).toNat, settleTime := (w 6).toNat, startLimit := (w 7).toNat,
    rundownTime := (w 8).toNat, flyingRestart := w 9 == 1, normalDirection := if w 10 == 1 then .rev else .fwd,
    speedL1 := (w 11).toNat, speedL2 := (w 12).toNat, running := contactOfWord (w 13), fault := contactOfWord (w 14),
    localSwitch := contactOfWord (w 15) }

/-- The gallery item that field words spell (R122). -/
def GalleryItem.ofWords (w : Nat → Word) : GalleryItem :=
  { pressuriseSpeed := (w 0).toNat, reliefSpeed := (w 1).toNat, outflowSpeed := (w 2).toNat,
    pressureChannel := indexOrNone 12 (w 3), openLimit := (w 4).toInt }

/-- The door item that field words spell (R109). -/
def DoorItem.ofWords (w : Nat → Word) : DoorItem :=
  { niche := (w 0).toNat, initialSecure := w 1 == 1, boltTime := (w 2).toNat, heldOpenTime := (w 3).toNat,
    reliefTime := (w 4).toNat, assistTime := (w 5).toNat, closed := contactOfWord (w 6), bolted := contactOfWord (w 7),
    push := contactOfWord (w 8) }

/-- The template item that field words spell (R149). -/
def TemplateItem.ofWords (w : Nat → Word) : TemplateItem :=
  { entries := Vector.ofFn fun (k : Fin 15) =>
      { action := Action.ofCode (lowByte (w k.val)), speed := (highByte (w k.val)).toNat }
    substitute := w 15 == 1, minRunning := (w 16).toNat }

/-- The link item that field words spell (R163). -/
def LinkItem.ofWords (w : Nat → Word) : LinkItem := { upEnabled := w 0 == 1, downEnabled := w 1 == 1 }

/-- A configuration with one item replaced by what field words spell. -/
def ActiveConfig.store (cfg : ActiveConfig) (r : ItemRef) (w : Nat → Word) : ActiveConfig :=
  match r with
  | .span => { cfg with span := SpanItem.ofWords w }
  | .gate i => { cfg with gates := cfg.gates.set i (GateItem.ofWords w) }
  | .channel i => { cfg with channels := cfg.channels.set i (ChannelItem.ofWords w) }
  | .zone i => { cfg with zones := cfg.zones.set i (ZoneItem.ofWords w) }
  | .fan i => { cfg with fans := cfg.fans.set i (FanItem.ofWords w) }
  | .gallery => { cfg with gallery := GalleryItem.ofWords w }
  | .door i => { cfg with doors := cfg.doors.set i (DoorItem.ofWords w) }
  | .template i => { cfg with templates := cfg.templates.set i (TemplateItem.ofWords w) }
  | .link => { cfg with link := LinkItem.ofWords w }

/-! ## Checks (R14, R19) -/

/-- One check of an item: the field it is made of, whether it holds, the reason if not, and the other active item
a check of R19 concerns (R41). -/
structure ItemCheck where
  field : Nat
  ok : Bool
  reason : ValReason
  other : Option ItemRef
  deriving DecidableEq, Repr

/-- A check that a field lies in a range. -/
def rangeCheck (w : Nat → Word) (k lo hi : Nat) : ItemCheck :=
  { field := k, ok := decide (lo ≤ (w k).toNat) && decide ((w k).toNat ≤ hi), reason := .range, other := none }

/-- A check of a given reason. -/
def itemCheck (k : Nat) (reason : ValReason) (ok : Bool) : ItemCheck :=
  { field := k, ok := ok, reason := reason, other := none }

/-- An index or 255 for none. -/
def indexCheck (w : Nat → Word) (k count : Nat) : ItemCheck :=
  itemCheck k .range (decide ((w k).toNat < count) || (w k).toNat == 255)

/-- A local niche: a value above 7 has bits outside the field and fails RANGE (R183, log entry 45); one that is not below the
span's niche count fails REFERENCE (R14). -/
def nicheChecks (w : Nat → Word) (k niches : Nat) : List ItemCheck :=
  [rangeCheck w k 0 7, itemCheck k .reference (decide ((w k).toNat < niches))]

/-- A contact field: polarity 0 or 1, debounce code 0-3 (R42). -/
def contactCheck (w : Nat → Word) (k : Nat) : ItemCheck :=
  itemCheck k .range (decide ((lowByte (w k)).toNat ≤ 1) && decide ((highByte (w k)).toNat ≤ 3))

/-- A template entry: a named action, and with FWD or REV a speed of 1-100 (R149). -/
def entryCheck (w : Nat → Word) (k : Nat) : ItemCheck :=
  let action := (lowByte (w k)).toNat
  let speed := (highByte (w k)).toNat
  itemCheck k .range (decide (action ≤ 4) && (decide (action < 3) || (decide (1 ≤ speed) && decide (speed ≤ 100))))

/-- The checks of a span item, in layout order (R14). -/
def spanChecks (w : Nat → Word) : List ItemCheck :=
  [ rangeCheck w 0 1 254, rangeCheck w 1 0 1023, rangeCheck w 2 1 8,
    itemCheck 2 .range (decide ((w 1).toNat + (w 2).toNat ≤ 1024)) ] ++
  nicheChecks w 3 (w 2).toNat ++
  [ rangeCheck w 4 0 15, rangeCheck w 5 0 15, rangeCheck w 6 1 15, rangeCheck w 7 1 4, rangeCheck w 8 0 1 ]

/-- The checks of a channel item, in layout order (R60). -/
def channelChecks (w : Nat → Word) : List ItemCheck :=
  [ rangeCheck w 0 0 5, indexCheck w 1 8, rangeCheck w 2 0 3, rangeCheck w 3 0 2,
    itemCheck 5 .range (decide ((w 5).toInt ≠ 0) && decide ((w 5).toInt ≠ -32768)),
    itemCheck 7 .order (decide ((w 6).toNat < (w 7).toNat)), rangeCheck w 9 1 16,
    itemCheck 11 .order (decide ((w 11).toInt < (w 10).toInt)),
    itemCheck 12 .order (decide ((w 10).toInt ≤ (w 12).toInt)),
    itemCheck 13 .order (decide ((w 13).toInt < (w 12).toInt)), rangeCheck w 14 0 1 ]

/-- The checks of a zone item, in layout order (R74). -/
def zoneChecks (cfg : ActiveConfig) (w : Nat → Word) : List ItemCheck :=
  nicheChecks w 0 cfg.span.nicheCount ++ nicheChecks w 1 cfg.span.nicheCount ++
  [ itemCheck 1 .order (decide ((w 0).toNat ≤ (w 1).toNat)), rangeCheck w 2 0 7,
    itemCheck 2 .order (decide ((w 0).toNat ≤ (w 2).toNat) && decide ((w 2).toNat ≤ (w 1).toNat)),
    rangeCheck w 3 0 120, rangeCheck w 4 0 7, rangeCheck w 5 0 1 ]

/-- The checks of a fan item, in layout order (R85). -/
def fanChecks (cfg : ActiveConfig) (w : Nat → Word) : List ItemCheck :=
  rangeCheck w 0 0 1 :: nicheChecks w 1 cfg.span.nicheCount ++
  [ indexCheck w 2 4, rangeCheck w 3 1 8, rangeCheck w 4 1 65535,
    rangeCheck w 5 1 100, rangeCheck w 6 0 120, rangeCheck w 7 1 60, rangeCheck w 8 0 600, rangeCheck w 9 0 1,
    rangeCheck w 10 0 1, rangeCheck w 11 1 100, rangeCheck w 12 1 100,
    itemCheck 12 .order (decide ((w 11).toNat ≤ (w 12).toNat)), contactCheck w 13, contactCheck w 14,
    contactCheck w 15 ]

/-- The checks of a gallery item, in layout order: a pressure channel named has kind PRESSURE (R122, R19). -/
def galleryChecks (cfg : ActiveConfig) (w : Nat → Word) : List ItemCheck :=
  [ rangeCheck w 0 0 100, rangeCheck w 1 0 100, rangeCheck w 2 0 100, indexCheck w 3 12 ] ++
  (match indexOrNone 12 (w 3) with
    | none => []
    | some c => [{ field := 3, ok := decide (cfg.channels[c].kind = .pressure), reason := .reference,
                   other := some (.channel c) }])

/-- The checks of a door item, in layout order (R109). -/
def doorChecks (cfg : ActiveConfig) (w : Nat → Word) : List ItemCheck :=
  nicheChecks w 0 cfg.span.nicheCount ++
  [ rangeCheck w 1 0 1, rangeCheck w 2 1 10, rangeCheck w 3 0 3600, rangeCheck w 4 1 30,
    rangeCheck w 5 1 60, contactCheck w 6, contactCheck w 7, contactCheck w 8 ]

/-- The checks of a template item, in layout order (R149). -/
def templateChecks (w : Nat → Word) : List ItemCheck :=
  (List.range 15).map (entryCheck w) ++ [rangeCheck w 15 0 1, rangeCheck w 16 0 8]

/-- The checks made of an item itself and of the items it names, at start-up and at LOAD (R14). -/
def itemChecks (cfg : ActiveConfig) (r : ItemRef) (w : Nat → Word) : List ItemCheck :=
  match r with
  | .span => spanChecks w
  | .gate _ => [rangeCheck w 0 0 3, rangeCheck w 1 1 65535]
  | .channel _ => channelChecks w
  | .zone _ => zoneChecks cfg w
  | .fan _ => fanChecks cfg w
  | .gallery => galleryChecks cfg w
  | .door _ => doorChecks cfg w
  | .template _ => templateChecks w
  | .link => [rangeCheck w 0 0 1, rangeCheck w 1 0 1]

/-- The checks R19 adds at LOAD: those that active items naming the loaded item make against the new copy. The
gallery item's demand on its pressure channel is the only one (R60, R74, R85, R109, R149, R163). -/
def namedByChecks (cfg : ActiveConfig) (r : ItemRef) (w : Nat → Word) : List ItemCheck :=
  match r with
  | .channel c =>
    [{ field := 0, ok := decide (cfg.gallery.pressureChannel ≠ some c) || (w 0).toNat == 4, reason := .reference,
       other := some .gallery }]
  | _ => []

/-- The first check that fails (R14). -/
def firstFailure (checks : List ItemCheck) : Option ItemCheck := checks.find? fun c => !c.ok

/-- The code of a validation reason (R183). -/
def ValReason.code (r : ValReason) : Nat :=
  match r with
  | .range => 1
  | .order => 2
  | .reference => 3

end Sys2Proof.Machine
end

