-- ==== Sys2Proof/Machine/Flags.lean ====
section
/-! DEFINITION. Flag computations: the attention causes and ATTN (R11), the derived outputs RUN, duty and BOLT (R92,
section 6.1), and the codes in which named values are written (R183). -/

namespace Sys2Proof.Machine

/-! ## Attention (R11) -/

/-- The seven causes, in the bit order of ATTENTION (R184). -/
inductive Cause where
  | notify | deck | change | incident | link | access | start
  deriving DecidableEq, Repr

/-- The bit of a cause. -/
def Cause.bit (c : Cause) : Nat :=
  match c with
  | .notify => 0
  | .deck => 1
  | .change => 2
  | .incident => 3
  | .link => 4
  | .access => 5
  | .start => 6

/-- The bits of ATTENTION and ATTENTION MASK that name a cause. -/
def causeBits : Word := 0x007F

/-- A cause is set. -/
def Registers.has (r : Registers) (c : Cause) : Bool := r.attention.getLsbD c.bit

/-- Sets a cause; a cause already set stays set. -/
def Registers.raise (r : Registers) (c : Cause) : Registers :=
  { r with attention := r.attention ||| flagBit c.bit true }

/-- Sets a cause when a condition holds. -/
def Registers.raiseIf (r : Registers) (b : Bool) (c : Cause) : Registers := if b then r.raise c else r

/-- ATTN is driven low: at least one cause is both set and enabled. -/
def State.attnLow (s : State) : Bool := (s.regs.attention &&& s.regs.attentionMask) != 0

/-! ## Derived outputs -/

/-- RUN is energised in STARTING and RUNNING (R92). -/
def FanState.runOn (s : FanState) : Bool :=
  match s with
  | .starting => true
  | .running => true
  | _ => false

/-- The speed of a target, 0 for STOP. -/
def Target.speed (t : Target) : Nat :=
  match t with
  | .stop => 0
  | .run _ speed => speed

/-- The direction of a target is REV (STOP counts as FWD). -/
def Target.isRev (t : Target) : Bool :=
  match t with
  | .stop => false
  | .run dir _ => decide (dir = .rev)

/-- The duty the fan controller sets (R92). -/
def Fan.duty (f : Fan) : Nat := if f.state.runOn then f.target.speed else 0

/-- BOLT is energised in SECURED, BOLTING and FORCED (section 6.1). -/
def DoorState.boltOn (s : DoorState) : Bool :=
  match s with
  | .secured => true
  | .bolting => true
  | .forced => true
  | _ => false

/-- A door counts as open for the gallery demand (R119, R123). -/
def DoorState.isOpen (s : DoorState) : Bool :=
  match s with
  | .openLeaf => true
  | .heldOpen => true
  | _ => false

/-- The demand level of a worst band (R76). -/
def Band.demand (b : Band) : Nat :=
  match b with
  | .normal => 0
  | .warn => 1
  | .alarm => 2

/-! ## Codes (R183, R184) -/

/-- Run state code (R184). -/
def RunState.code (s : RunState) : Nat :=
  match s with
  | .halted => 0
  | .starting => 1
  | .running => 2
  | .configFault => 3

/-- Deck state code. -/
def DeckState.code (s : DeckState) : Nat :=
  match s with
  | .off => 0
  | .waiting => 1
  | .running => 2
  | .suspendPending => 3
  | .suspended => 4
  | .stopped => 5

/-- Deck error code. -/
def DeckError.code (e : DeckError) : Nat :=
  match e with
  | .none => 0
  | .header => 1
  | .postRange => 2
  | .postWithdraw => 3

/-- Outcome code. -/
def CardOutcome.code (o : CardOutcome) : Nat :=
  match o with
  | .done => 1
  | .accepted => 2
  | .deferred => 3
  | .overtaken => 4
  | .timedOut => 5
  | .refused => 6

/-- Reason code. -/
def CardReason.code (r : CardReason) : Nat :=
  match r with
  | .none => 0
  | .badKind => 1
  | .badTarget => 2
  | .badArgument => 3
  | .badConfig => 4
  | .busy => 5
  | .notPermitted => 6
  | .tableFull => 7
  | .unknownId => 8

/-- Channel kind code (R60). -/
def ChannelKind.code (k : ChannelKind) : Nat :=
  match k with
  | .co => 0
  | .no2 => 1
  | .opacity => 2
  | .velocity => 3
  | .pressure => 4
  | .generic => 5

/-- Channel status code. -/
def ChannelStatus.code (s : ChannelStatus) : Nat :=
  match s with
  | .none => 0
  | .ok => 1
  | .over => 2
  | .fault => 3

/-- Band code. -/
def Band.code (b : Band) : Nat := b.demand

/-- Zone state code. -/
def ZoneState.code (s : ZoneState) : Nat :=
  match s with
  | .quiet => 0
  | .confirming => 1
  | .blocked => 2
  | .triggered => 3
  | .held => 4

/-- Fan state code. -/
def FanState.code (s : FanState) : Nat :=
  match s with
  | .stopped => 0
  | .queued => 1
  | .starting => 2
  | .running => 3
  | .stopping => 4
  | .faulted => 5
  | .localPanel => 6
  | .service => 7

/-- Fan fault cause code. -/
def FanFault.code (c : FanFault) : Nat :=
  match c with
  | .none => 0
  | .startFailed => 1
  | .driveFault => 2
  | .feedbackLost => 3

/-- Fan owner code. -/
def Owner.code (o : Owner) : Nat :=
  match o with
  | .service => 1
  | .localPanel => 2
  | .incident => 3
  | .gallery => 4
  | .host => 5

/-- Door state code. -/
def DoorState.code (s : DoorState) : Nat :=
  match s with
  | .released => 0
  | .bolting => 1
  | .secured => 2
  | .opening => 3
  | .openLeaf => 4
  | .heldOpen => 5
  | .forced => 6
  | .fault => 7
  | .service => 8

/-- Assist path code. -/
def AssistPath.code (p : AssistPath) : Nat :=
  match p with
  | .none => 0
  | .pressure => 1
  | .time => 2

/-- Gallery demand code. -/
def GalleryDemand.code (d : GalleryDemand) : Nat :=
  match d with
  | .idle => 0
  | .pressurise => 1
  | .relief => 2
  | .outflow => 3

/-- Incident state code; EMPTY is 0. -/
def IncidentState.code (s : IncidentState) : Nat :=
  match s with
  | .active => 1
  | .acknowledged => 2
  | .stale => 3
  | .clearing => 4

/-- Incident origin code. -/
def Origin.code (o : Origin) : Nat :=
  match o with
  | .detected => 1
  | .declared => 2
  | .notice => 3

/-- Role code (section 10.5). -/
def Role.code (r : Role) : Nat :=
  match r with
  | .jet => 0
  | .gallery => 1

/-- Placement action code. -/
def PlacedAction.code (a : PlacedAction) : Nat :=
  match a with
  | .keep => 1
  | .stop => 2
  | .run .fwd _ => 3
  | .run .rev _ => 4

/-- The speed of a placed action, 0 for KEEP and STOP. -/
def PlacedAction.speed (a : PlacedAction) : Nat :=
  match a with
  | .run _ speed => speed
  | _ => 0

/-- The latched flags as DOOR_RESET reports them (section 10.4). -/
def Door.flagWord (d : Door) : Word :=
  flagBit 0 d.forcedFlag ||| flagBit 1 d.heldOpenFlag ||| flagBit 2 d.assistTimeoutFlag

/-! ## Derived values that several blocks read -/

/-- The distance of two positions in niches (R111). -/
def distance (a b : Nat) : Nat := (a - b) + (b - a)

/-- The gallery speed of a demand (R91, R124). -/
def gallerySpeed (g : GalleryItem) (d : GalleryDemand) : Nat :=
  match d with
  | .idle => 0
  | .pressurise => g.pressuriseSpeed
  | .relief => g.reliefSpeed
  | .outflow => g.outflowSpeed

/-- The tunnel niche of a door (R109). -/
def doorNiche (cfg : ActiveConfig) (d : Fin 4) : Nat := cfg.span.firstNiche + cfg.doors[d].niche

/-- The gallery niche (R123). -/
def galleryNiche (cfg : ActiveConfig) : Nat := cfg.span.firstNiche + cfg.span.galleryNiche

/-- The entries of the reach list within gallery reach (R123). -/
def galleryEntries (cfg : ActiveConfig) (reach : List ReachEntry) : List ReachEntry :=
  reach.filter fun e => decide (distance e.position (galleryNiche cfg) ≤ cfg.span.galleryReach)

/-- The average of a history: the sum divided by the number, truncated toward zero; absent when empty (R63). -/
def average (h : List Int) : Option Int := if h.isEmpty then none else some (h.sum.tdiv h.length)

/-- The last value: the newest entry of the history, or 0 (R59). -/
def lastValue (h : List Int) : Int := h.getLast?.getD 0

/-- A channel's flags NO_DATA, SUMMARY, SERVICE, ZERO_PENDING (R59, section 10.4). -/
def Channel.flagWord (c : Channel) : Word :=
  flagBit 0 c.history.isEmpty ||| flagBit 1 c.summary ||| flagBit 2 c.out ||| flagBit 3 c.zero.isSome

/-- Flags in the low byte and the history count in the high byte (section 10.4, READ r3 and the channel record). -/
def Channel.flagsAndCount (c : Channel) : Word := c.flagWord ||| wordOf 0 (BitVec.ofNat 8 c.history.length)

/-- The identity of the record that governs, as the incident table's flags give it (R139). -/
def IncidentUnit.governingRecord (u : IncidentUnit) : Option Incident :=
  ((List.finRange 4).filterMap fun k => u.slots[k]).find? fun r => r.governing

/-- The governing identity (R140, R148). -/
def IncidentUnit.governingIdent (u : IncidentUnit) : Option Ident := u.governingRecord.map (·.ident)

/-- The number of slots that hold a record (R148). -/
def IncidentUnit.used (u : IncidentUnit) : Nat := ((List.finRange 4).filter fun k => u.slots[k].isSome).length

end Sys2Proof.Machine
end

