-- ==== Sys2Proof/Machine/Records.lean ====
section
/-! DEFINITION. The status image (sections 1.3, 10.5): what each record shows of its owner's state, where the records lie, and
the one operation by which an event updates records, sets change mask bits and raises CHANGE (R6, R7). -/

namespace Sys2Proof.Machine

/-! ## Where records lie -/

/-- Every image record, in mask word order. -/
def allRecords : List RecordId :=
  (List.finRange 12).map .channel ++ (List.finRange 8).map .fan ++ (List.finRange 4).map .door ++
  (List.finRange 8).map .zone ++ (List.finRange 4).map .incident ++
  [.link .up, .link .down, .span, .gallery, .placement]

/-- The place of a record's sequence in the table of sequences. -/
def RecordId.place (r : RecordId) : Fin 41 :=
  match r with
  | .channel i => ⟨i.val, by omega⟩
  | .fan i => ⟨12 + i.val, by omega⟩
  | .door i => ⟨20 + i.val, by omega⟩
  | .zone i => ⟨24 + i.val, by omega⟩
  | .incident i => ⟨32 + i.val, by omega⟩
  | .link .up => 36
  | .link .down => 37
  | .span => 38
  | .gallery => 39
  | .placement => 40

/-- The record whose sequence stands at a place. -/
def recordAtPlace (p : Fin 41) : RecordId :=
  if h : p.val < 12 then .channel ⟨p.val, h⟩
  else if h : p.val - 12 < 8 then .fan ⟨p.val - 12, h⟩
  else if h : p.val - 20 < 4 then .door ⟨p.val - 20, h⟩
  else if h : p.val - 24 < 8 then .zone ⟨p.val - 24, h⟩
  else if h : p.val - 32 < 4 then .incident ⟨p.val - 32, h⟩
  else if p.val = 36 then .link .up
  else if p.val = 37 then .link .down
  else if p.val = 38 then .span
  else if p.val = 39 then .gallery
  else .placement

/-- The kind code of a record (section 10.5). -/
def RecordId.kindCode (r : RecordId) : Byte :=
  match r with
  | .channel _ => 0x01
  | .fan _ => 0x02
  | .door _ => 0x03
  | .zone _ => 0x04
  | .incident _ => 0x05
  | .link _ => 0x06
  | .span => 0x07
  | .gallery => 0x08
  | .placement => 0x09

/-- The record and the word within it that an offset of the status image reaches, or none where no record lies
(section 10.5). -/
def recordAt (a : Nat) : Option (RecordId × Nat) :=
  if a < 0x0850 then none
  else if h : (a - 0x0850) / 32 < 12 then some (.channel ⟨(a - 0x0850) / 32, h⟩, (a - 0x0850) % 32 / 2)
  else if h : (a - 0x09D0) / 32 < 8 then some (.fan ⟨(a - 0x09D0) / 32, h⟩, (a - 0x09D0) % 32 / 2)
  else if h : (a - 0x0AD0) / 16 < 4 then some (.door ⟨(a - 0x0AD0) / 16, h⟩, (a - 0x0AD0) % 16 / 2)
  else if h : (a - 0x0B10) / 16 < 8 then some (.zone ⟨(a - 0x0B10) / 16, h⟩, (a - 0x0B10) % 16 / 2)
  else if h : (a - 0x0B90) / 32 < 4 then some (.incident ⟨(a - 0x0B90) / 32, h⟩, (a - 0x0B90) % 32 / 2)
  else if a < 0x0C30 then some (.link .up, (a - 0x0C10) / 2)
  else if a < 0x0C50 then some (.link .down, (a - 0x0C30) / 2)
  else if a < 0x0C90 then some (.span, (a - 0x0C50) / 2)
  else if a < 0x0CA0 then some (.gallery, (a - 0x0C90) / 2)
  else if a < 0x0CE0 then some (.placement, (a - 0x0CA0) / 2)
  else none

/-! ## What the records show (section 10.5): the words from offset 2 on -/

/-- Channel record (R59). -/
def channelBody (item : ChannelItem) (c : Channel) : List Word :=
  [ packed item.kind.code ((item.zone.map (·.val)).getD 255), packed c.status.code c.band.code, c.flagsAndCount,
    wordInt (lastValue c.history), wordInt ((average c.history).getD 0), wordNat item.zeroCount, wordNat c.lastCount ] ++
  dwordWords (BitVec.ofNat 32 c.windowLength) ++ dwordWords c.windowTime

/-- The position of a fan in the start queue: 0 when not queued, 1 for the head (R86). -/
def queuePosition (q : List (Fin 8)) (f : Fin 8) : Nat := if q.contains f then q.idxOf f + 1 else 0

/-- The word of a target or request: speed in the low byte, direction in bit 8. -/
def targetWord (t : Target) : Word := packed t.speed 0 ||| flagBit 8 t.isRev

/-- The word of a host request: AUTO in bit 9. -/
def requestWord (r : HostRequest) : Word :=
  match r with
  | .manual dir speed => packed speed 0 ||| flagBit 8 (decide (dir = .rev))
  | .auto => flagBit 9 true

/-- Fan record (R86). -/
def fanBody (item : FanItem) (queue : List (Fin 8)) (f : Fin 8) (e : Fan) : List Word :=
  [ packed item.role.code e.state.code, packed (boolNat e.out) e.cause.code, packed e.owner.code e.demand,
    targetWord e.target, requestWord e.request,
    packed 0 e.duty ||| flagBit 0 e.state.runOn ||| flagBit 1 e.reverse,
    flagBit 0 e.running ||| flagBit 1 e.fault ||| flagBit 2 e.localSwitch,
    packed (queuePosition queue f) (boolNat (decide (e.state = .starting))), flagBit 0 e.underspeed,
    wordNat e.lastRpm ] ++ dwordWords e.entered

/-- Door record (R110). -/
def doorBody (niche : Nat) (d : Door) : List Word :=
  [ packed d.state.code (boolNat d.secureMode), packed (boolNat d.secureWanted) (boolNat d.boltFault),
    d.flagWord ||| packed 0 d.path.code,
    flagBit 0 d.state.boltOn ||| flagBit 1 d.assist ||| flagBit 8 d.closed ||| flagBit 9 d.bolted ||| flagBit 10 d.push,
    wordNat niche ] ++ dwordWords d.entered

/-- Zone record (R75). -/
def zoneBody (z : Zone) : List Word :=
  [ packed z.state.code z.worst.code, packed z.worst.demand (boolNat z.evidence), identWord z.ident ] ++
  dwordWords ((z.confirm.map (·.since)).getD 0)

/-- The evidence list as four channel bytes, unused bytes 255. -/
def evidenceWords (l : List (Fin 12)) : List Word :=
  let b (k : Nat) : Nat := (l[k]?.map (·.val)).getD 255
  [packed (b 0) (b 1), packed (b 2) (b 3)]

/-- Incident record; an EMPTY slot shows state EMPTY, identity none and every other field zero (R130). -/
def incidentBody (r : Option Incident) : List Word :=
  match r with
  | none => [0, 0, identNone, 0, 0, 0, 0, 0, 0, 0, 0, 0, 0, 0, 0]
  | some i =>
    [ packed i.state.code i.origin.code, packed (if i.resumeAcknowledged then 2 else 1) (boolNat i.governing),
      i.ident.word, wordNat i.position, packed ((i.zone.map (·.val)).getD 255) i.template.val,
      packed (boolNat i.mirror) i.clearLeft ] ++ dwordWords i.start ++ dwordWords i.lastRefresh ++
    evidenceWords i.evidence ++ [wordNat i.deficit] ++ dwordWords i.entered

/-- Link record (R182). -/
def linkBody (enabled : Bool) (p : PortState) : List Word :=
  (match p.neighbour with
    | none => [packed (boolNat enabled) 0, packed 255 0, 0, identNone, 0, 0, packed 0 255]
    | some n => [packed (boolNat enabled) 1, wordOf n.hello.spanId n.hello.nicheCount, n.hello.firstNiche,
        identWord n.hello.governing] ++ dwordWords n.lastHeard ++ [wordOf (BitVec.ofNat 8 (boolNat n.migrated)) n.previous]) ++
  [ wordOf (BitVec.ofNat 8 (boolNat p.holdDue.isSome)) p.holdShown,
    packed (boolNat p.holdMark) p.receiveQueue.length, wordNat p.transmitQueue.length, wordNat p.rejected,
    wordNat p.overrun, wordNat p.dropped ]

/-- The three words of cleared-identity list entry k. -/
def clearedWords (l : List ClearedEntry) (k : Nat) : List Word :=
  match l[k]? with
  | none => [identNone, 0, 0]
  | some e => e.ident.word :: dwordWords e.joined

/-- Span record (R148). -/
def spanBody (item : SpanItem) (u : IncidentUnit) : List Word :=
  [ wordOf item.spanId (BitVec.ofNat 8 item.nicheCount), wordNat item.firstNiche, identWord u.governingIdent,
    packed u.used (boolNat u.overflow), wordOf u.localSeq 0, wordNat u.overflowCount ] ++
  (List.range 8).flatMap (clearedWords u.cleared)

/-- Gallery record (R124). -/
def galleryBody (cfg : ActiveConfig) (u : DoorUnit) : List Word :=
  let set (f : DoorState → Bool) : Nat :=
    (bitsOf 4 fun n => if h : n < 4 then f u.doors[n].state else false).toNat
  [ packed u.demand.code (gallerySpeed cfg.gallery u.demand),
    packed (set fun st => decide (st = .opening)) (set DoorState.isOpen),
    wordNat (galleryEntries cfg u.reach).length,
    packed u.pressure.status.code (boolNat u.pressure.average.isSome), wordInt (u.pressure.average.getD 0) ] ++
  dwordWords u.demandEntered

/-- The two words of placement list entry k. -/
def listEntryWords (l : List ListEntry) (k : Nat) : List Word :=
  match l[k]? with
  | none => [packed 255 0, 0]
  | some e => [packed e.fan.val e.action.code,
      packed e.action.speed 0 ||| flagBit 8 e.standsFor.isSome |||
        wordNat ((e.standsFor.map fun f => f.val + 1).getD 0) <<< 9]

/-- Placement record (R151). -/
def placementBody (r : PlacementRecord) : List Word :=
  [ identWord (r.governing.map (·.ident)), wordNat ((r.governing.map (·.position)).getD 0),
    packed ((r.governing.map (·.template.val)).getD 0) (boolNat ((r.governing.map (·.mirror)).getD false)) ] ++
  (List.range 8).flatMap (listEntryWords r.list) ++
  [ packed r.running r.unmet,
    bitsOf 8 (fun n => r.unmetFans.any fun f => f.val == n) ||| flagBit 8 (decide (0 < r.deficit)),
    wordNat r.deficit ] ++ dwordWords r.time

/-- The reportable fields of a record, as words from offset 2 on. -/
def State.recordBody (s : State) (r : RecordId) : List Word :=
  match r with
  | .channel i => channelBody s.active.channels[i] s.channels[i]
  | .fan i => fanBody s.active.fans[i] s.fans.queue i s.fans.fans[i]
  | .door i => doorBody (doorNiche s.active i) s.doors.doors[i]
  | .zone i => zoneBody s.zones[i]
  | .incident i => incidentBody s.incidents.slots[i]
  | .link p => linkBody (portEnabled s.active p) (s.link.get p)
  | .span => spanBody s.active.span s.incidents
  | .gallery => galleryBody s.active s.doors
  | .placement => placementBody s.placement.record

/-- A record as it stands: header (sequence low, kind high, R6) and fields. Whenever the part is not RUNNING the
image is zero (R16). -/
def State.recordWords (s : State) (r : RecordId) : List Word :=
  if s.running then wordOf s.cm.sequences[r.place] r.kindCode :: s.recordBody r else []

/-! ## Updates (R6, R7) -/

/-- The reportable fields of a record differ between two states. -/
def recordChanged (before after : State) (r : RecordId) : Bool := decide (before.recordBody r ≠ after.recordBody r)

/-- A deck's state or error differs between two states (R6: mask word 7). -/
def deckChanged (before after : State) (d : Fin 4) : Bool :=
  decide (before.decks[d].state ≠ after.decks[d].state) || decide (before.decks[d].error ≠ after.decks[d].error)

/-- A test made of an index in range. -/
def below (n : Nat) (f : Fin n → Bool) (k : Nat) : Bool := if h : k < n then f ⟨k, h⟩ else false

/-- The bits of a change mask word whose record an event changed (section 1.3). -/
def changedBits (before after : State) (w : Fin 8) : Word :=
  match w.val with
  | 0 => bitsOf 12 (below 12 fun i => recordChanged before after (.channel i))
  | 1 => bitsOf 8 (below 8 fun i => recordChanged before after (.fan i))
  | 2 => bitsOf 4 (below 4 fun i => recordChanged before after (.door i))
  | 3 => bitsOf 8 (below 8 fun i => recordChanged before after (.zone i))
  | 4 => bitsOf 4 (below 4 fun i => recordChanged before after (.incident i))
  | 5 => flagBit 0 (recordChanged before after (.link .up)) ||| flagBit 1 (recordChanged before after (.link .down))
  | 6 => flagBit 0 (recordChanged before after .span) ||| flagBit 1 (recordChanged before after .gallery) |||
      flagBit 2 (recordChanged before after .placement)
  | _ => bitsOf 4 (below 4 fun i => deckChanged before after i)

/-- The mask bits in use (section 1.3). -/
def maskUsed (w : Fin 8) : Word :=
  match w.val with
  | 0 => 0x0FFF
  | 1 => 0x00FF
  | 2 => 0x000F
  | 3 => 0x00FF
  | 4 => 0x000F
  | 5 => 0x0003
  | 6 => 0x0007
  | _ => 0x000F

/-- One event's updates: each record whose reportable fields changed has its sequence incremented once and its mask
bit set, and one whose fields all stay has neither, also at a hand-over, a LOAD or an answer Full (R6 over R59, R73, R80, R108,
R128 and R129, log entry 46); each deck whose state or error changed has its bit set, and CHANGE is raised if a bit went from 0
to 1 (R6, R7). -/
def publish (before after : State) : State :=
  let bits : Fin 8 → Word := changedBits before after
  let fresh := (List.finRange 8).any fun w => (bits w &&& ~~~after.cm.masks[w]) != 0
  { after with
    cm := { after.cm with
      masks := Vector.ofFn fun w => after.cm.masks[w] ||| bits w
      sequences := Vector.ofFn fun p =>
        if recordChanged before after (recordAtPlace p) then after.cm.sequences[p] + 1 else after.cm.sequences[p] }
    regs := after.regs.raiseIf fresh .change }

/-- The shape of every event of the part's own blocks: it can come about only while the part is RUNNING and the event
is outstanding; it then acts and its updates are published. A command that names an event which has not come
about changes nothing (log entry 2). -/
def internal (s : State) (outstanding : Bool) (act : State → State) : Host.Outcome State Fault Refusal :=
  if s.running && outstanding then .next (publish s (act s)) else .next s

end Sys2Proof.Machine
end

