-- ==== Sys2Proof/Machine/Bus.lean ====
section
/-! DEFINITION. Host accesses to the common memory (sections 1.1 to 1.4): reads and writes with the record latch. -/

namespace Sys2Proof.Machine

/-! ## The common memory as the host reads it -/

/-- The word of a deck header at word index k (section 10.3). -/
def Deck.headerWord (d : Deck) (k : Nat) : Word :=
  match k with
  | 0 => d.baseWord
  | 1 => d.lengthWord
  | 2 => d.controlWord
  | 3 => d.postWord
  | 4 => wordNat d.done
  | 5 => packed d.state.code d.error.code
  | 6 => d.taken
  | _ => 0

/-- The deck whose header an offset of the header region lies in. -/
def headerDeck (a : Nat) : Fin 4 := ⟨(a - 0x0800) / 16 % 4, Nat.mod_lt _ (by decide)⟩

/-- The mask word an offset of the mask region names. -/
def maskIndex (a : Nat) : Fin 8 := ⟨(a - 0x0840) / 2 % 8, Nat.mod_lt _ (by decide)⟩

/-- The even offset of the word that a bus offset reaches: HA0 is not used (R1). -/
def wordOffset (o : Offset) : Nat := o.toNat / 2 * 2

/-- An offset lies in the status image. -/
def inImage (a : Nat) : Bool := decide (0x0850 ≤ a) && decide (a < 0x1000)

/-- The word of the common memory at an even offset as it stands (R1, section 1.1). -/
def State.liveWord (s : State) (a : Nat) : Word :=
  if a < 0x0800 then s.cm.bytes.readWord a
  else if a < 0x0840 then s.decks[headerDeck a].headerWord ((a - 0x0800) % 16 / 2)
  else if a < 0x0850 then s.cm.masks[maskIndex a]
  else if a < 0x1000 then
    match recordAt a with
    | none => 0
    | some (r, k) => (s.recordWords r)[k]?.getD 0
  else s.cm.bytes.readWord a

/-- What a host read of the word at an even offset returns, with the latch after it (R9). -/
def State.hostRead (s : State) (a : Nat) : Word × Option Latch :=
  if inImage a then
    match recordAt a with
    | none => (0, s.cm.latch)
    | some (r, k) =>
      if k = 0 then (s.liveWord a, some { record := r, words := s.recordWords r })
      else match s.cm.latch with
        | none => (s.liveWord a, none)
        | some l => (if l.record = r then l.words[k]?.getD 0 else s.liveWord a, some l)
  else (s.liveWord a, none)

/-- HOST_MEMORY_READ (R1, R9): the word is returned on HD and the latch is taken, kept or released. While RESET is
asserted reads return 0x0000 (R1). -/
def execHostMemoryRead (offset : Offset) (s : State) : Host.Outcome State Fault Refusal :=
  if s.resetAsserted then .next { s with hd := 0 }
  else
    let r := s.hostRead (wordOffset offset)
    .next { s with hd := r.1, cm := { s.cm with latch := r.2 } }

/-- A discarded host write: ACCESS is set (R2, R10). -/
def State.discarded (s : State) : State := { s with regs := s.regs.raise .access }

/-- A host write to a header word (R2): base and length while the deck is OFF, control and post always, the latter two
watched (R5); any other is discarded. -/
def State.writeHeader (s : State) (d : Fin 4) (k : Nat) (v : Word) : State :=
  let deliver (e : DeckEvent) : Mail :=
    if s.running then { s.mail with deckEvents := modify s.mail.deckEvents d (· ++ [e]) } else s.mail
  match k with
  | 0 => if s.decks[d].state = .off then { s with decks := modify s.decks d ({ · with baseWord := v }) } else s.discarded
  | 1 => if s.decks[d].state = .off then { s with decks := modify s.decks d ({ · with lengthWord := v }) } else s.discarded
  | 2 => { s with decks := modify s.decks d ({ · with controlWord := v }), mail := deliver (.control v) }
  | 3 => { s with decks := modify s.decks d ({ · with postWord := v }), mail := deliver (.post v) }
  | _ => s.discarded

/-- The effect of a host write on the word at an even offset, the latch apart (R2, R7). -/
def State.hostWrite (s : State) (a : Nat) (v : Word) : State :=
  if a < 0x0800 then { s with cm := { s.cm with bytes := s.cm.bytes.writeWord a v } }
  else if a < 0x0840 then s.writeHeader (headerDeck a) ((a - 0x0800) % 16 / 2) v
  else if a < 0x0850 then { s with cm := { s.cm with masks := modify s.cm.masks (maskIndex a) (· &&& ~~~v) } }
  else if a < 0x1000 then s.discarded
  else { s with cm := { s.cm with bytes := s.cm.bytes.writeWord a v } }

/-- The latch released (R9). -/
def State.releaseLatch (s : State) : State := { s with cm := { s.cm with latch := none } }

/-- HOST_MEMORY_WRITE (R2): stored, discarded or clear-on-write by the word reached; the latch is released. While RESET
is asserted writes are lost (R1). -/
def execHostMemoryWrite (offset : Offset) (value : Word) (s : State) : Host.Outcome State Fault Refusal :=
  if s.resetAsserted then .next s else .next (s.hostWrite (wordOffset offset) value).releaseLatch

end Sys2Proof.Machine
end

