-- ==== Sys2Proof/Machine/Inputs.lean ====
section
/-! DEFINITION. Inputs, counters, gate timers and the speed reference outputs (chapter 3). -/

namespace Sys2Proof.Machine

/-! ## The contact conditioner (section 3.1) -/

/-- The contact input of door d: 0 CLOSED, 1 BOLTED, 2 PUSH. -/
def doorInput (d : Fin 4) (k : Fin 3) : Fin 36 := ⟨3 * d.val + k.val, by omega⟩

/-- The contact input of fan f: 0 RUNNING, 1 FAULT, 2 LOCAL. -/
def fanInput (f : Fin 8) (k : Fin 3) : Fin 36 := ⟨12 + 3 * f.val + k.val, by omega⟩

/-- The polarity and debounce time that an input's owner gives it (R42). -/
def contactSetting (cfg : ActiveConfig) (i : Fin 36) : ContactSetting :=
  if h : i.val < 12 then
    let item := cfg.doors[(⟨i.val / 3, by omega⟩ : Fin 4)]
    match i.val % 3 with
    | 0 => item.closed
    | 1 => item.bolted
    | _ => item.push
  else
    let item := cfg.fans[(⟨(i.val - 12) / 3, by omega⟩ : Fin 8)]
    match i.val % 3 with
    | 0 => item.running
    | 1 => item.fault
    | _ => item.localSwitch

/-- The raw active level of the pin through the input's polarity (R43). -/
def Contact.raw (c : Contact) : Bool := c.pin != c.activeLow

/-- One sample: the contact after it, and the new debounced level if this sample confirms a change (R44). -/
def Contact.sample (now : Nat) (c : Contact) : Contact × Option Bool :=
  if c.raw = c.level then ({ c with candidate := none, due := false }, none)
  else
    let first := c.candidate.getD now
    if first + c.debounceMs ≤ now then ({ c with level := !c.level, candidate := none, due := false }, some (!c.level))
    else ({ c with candidate := some first, due := false }, none)

/-- The sample of this tick, if it is still to come: one sample at each 1 ms tick, and none between two ticks (R43). -/
def Contact.takeDue (now : Nat) (c : Contact) : Contact × Option Bool := if c.due then c.sample now else (c, none)

/-- Takes the owner's polarity and debounce time; the level stays and a candidate is dropped (R47). -/
def Contact.configure (set : ContactSetting) (c : Contact) : Contact :=
  { c with activeLow := set.activeLow, debounceMs := set.debounceMs, candidate := none }

/-- The first sample on entering RUNNING: the level is set at once (R45). -/
def Contact.enterRunning (set : ContactSetting) (c : Contact) : Contact :=
  { c with activeLow := set.activeLow, debounceMs := set.debounceMs, candidate := none, level := c.pin != set.activeLow
           due := false }

/-- Samples one contact, if its sample is due, and delivers a confirmed change to its owner (R43, R44, R46). -/
def State.sampleContact (s : State) (i : Fin 36) : State :=
  let r := s.contacts[i].takeDue s.now
  { s with contacts := s.contacts.set i r.1
           mail := { s.mail with contactChanges := modify s.mail.contactChanges i (· ++ r.2.toList) } }

/-- CONTACT_CONFIRM (R44): the pin stands at a level, and this level takes the sample of this tick if that is still to come
(R43, log entry 37); the pins are not sampled outside RUNNING (R42). -/
def execContactConfirm (input : Fin 36) (pin : Bool) (s : State) : Host.Outcome State Fault Refusal :=
  let t := { s with contacts := modify s.contacts input ({ · with pin := pin }) }
  if s.running then .next (t.sampleContact input) else .next t

/-! ## Pulse filters and counters (section 3.2) -/

/-- A pulse taken by the counter: counted if bound or pending, saturating (R49). -/
def Pulse.counted (p : Pulse) : Pulse :=
  match p.binding with
  | .none => p
  | _ => { p with count := satSucc p.count }

/-- The filter whose samples are taken: the one in force, or with OFF in force the one that is to follow it (R48). -/
def Pulse.sampler (p : Pulse) : FilterKind := if p.filter = .off then p.next.getD .off else p.filter

/-- The samples of this tick that are still to come: FAST takes eight in a tick, SLOW one at the tick, OFF none (R48). -/
def Pulse.due (p : Pulse) : Nat :=
  match p.sampler with
  | .off => 0
  | .fast => p.left
  | .slow => if p.left = Config.samplesPerTick then 1 else 0

/-- A change of the filter setting to or from OFF takes effect, and no level is held over it (R48). -/
def Pulse.takeSetting (p : Pulse) : Pulse :=
  match p.next with
  | none => p
  | some k => { p with filter := k, next := none, level := if p.filter = .off ∨ k = .off then none else p.level }

/-- One sample of the pin: a change of the filter setting takes effect; then two consecutive samples give the filtered level,
the first one after OFF gives it alone, and its rise is counted (R48, R49). -/
def Pulse.sample (p : Pulse) : Pulse :=
  let r := p.takeSetting
  let q := { r with lastSample := r.pin, left := r.left - 1 }
  if r.filter = .off then q
  else
    match r.level with
    | none => { q with level := some r.pin }
    | some l =>
      if r.pin = r.lastSample && r.pin != l then
        let h := { q with level := some r.pin }
        if r.pin then h.counted else h
      else q

/-- With filter OFF each rising edge at the pin is counted (R48, R49). -/
def Pulse.edge (pin : Bool) (p : Pulse) : Pulse :=
  let q := { p with pin := pin }
  if pin && !p.pin then q.counted else q

/-- The pin takes a level: with filter OFF in force its edge counts; a sample that is due is taken, and else the level stands
between two samples (R48). -/
def Pulse.drive (pin : Bool) (p : Pulse) : Pulse :=
  let q := if p.filter = .off then p.edge pin else { p with pin := pin }
  if 0 < p.due then q.sample else q

/-- A number of samples with the pin standing still (R48). -/
def Pulse.samples (n : Nat) (p : Pulse) : Pulse :=
  match n with
  | 0 => p
  | n + 1 => p.sample.samples n

/-- Every sample of this tick that is still to come, with the pin standing still; then none is, whatever filter a LOAD sets
before the next tick (R48). -/
def Pulse.takeDue (p : Pulse) : Pulse := { p.samples p.due with left := 0 }

/-- A LOAD's filter setting takes effect at the next sample (R48). To and from OFF it waits for that sample, until which OFF
counts edges and FAST or SLOW do not (log entry 56); from OFF the sample at the tick that stands is past. Between FAST and
SLOW it shows at samples alone, and the last sample is kept beside the level (log entry 47). -/
def Pulse.setFilter (k : FilterKind) (p : Pulse) : Pulse :=
  if p.filter = k then { p with next := none }
  else if p.filter = .off then { p with next := some k, left := min p.left (Config.samplesPerTick - 1) }
  else if k = .off then { p with next := some .off }
  else { p with filter := k, next := none }

/-- The gate a counter is bound to or pending on (R56). -/
def Pulse.aim (p : Pulse) : Option (Fin 4) :=
  match p.binding with
  | .none => none
  | .bound g => some g
  | .pending g => some g

/-- COUNTER_REBIND: a LOAD names a gate or none for the counter (R56). -/
def Pulse.rebind (gate : Option (Fin 4)) (p : Pulse) : Pulse :=
  match gate with
  | none => { p with binding := .none, count := 0 }
  | some g => if p.aim = some g then p else { p with binding := .pending g }

/-- The counter on entering RUNNING: first sample as the filtered level, bound, count 0 (R48, R49). -/
def Pulse.enterRunning (k : FilterKind) (gate : Option (Fin 4)) (p : Pulse) : Pulse :=
  { p with filter := k, next := none, level := if k = .off then none else some p.pin, lastSample := p.pin, count := 0
           left := Config.samplesPerTick - 1
           binding := match gate with
             | none => .none
             | some g => .bound g }

/-- PULSE_COUNT (R49): the pin of a pulse input stands at a level (log entry 36); no sampling takes place outside RUNNING
(R48). -/
def execPulseCount (input : PulsePin) (pin : Bool) (s : State) : Host.Outcome State Fault Refusal :=
  let act (p : Pulse) : Pulse := if s.running then p.drive pin else { p with pin := pin }
  match input with
  | .mp c => .next { s with measured := modify s.measured c act }
  | .tp f => .next { s with tach := modify s.tach f act }

/-! ## Gate timers (section 3.3) -/

/-- A gate tick in ms (R50). -/
def GateTick.ms (t : GateTick) : Nat :=
  match t with
  | .ms1 => 1
  | .ms10 => 10
  | .ms100 => 100
  | .s1 => 1000

/-- The window length in force, in ms (R50). -/
def Gate.lengthMs (g : Gate) : Nat := g.reload * g.tick.ms

/-- One 1 ms tick, `now` the ticks counted with it: the remaining count falls each time a gate tick has passed since
the window began (R50). -/
def Gate.tickOn (now : Nat) (g : Gate) : Gate :=
  if 0 < g.remaining ∧ (now - g.windowStart) % g.tick.ms = 0 then { g with remaining := g.remaining - 1 } else g

/-- The gate on entering RUNNING (R50). -/
def Gate.enterRunning (item : GateItem) (now : Nat) : Gate :=
  { tick := item.tick, reload := item.reload, remaining := item.reload, windowStart := now, pending := none }

/-- A committed gate item becomes the pending values (R53). -/
def Gate.setPending (item : GateItem) (g : Gate) : Gate := { g with pending := some item }

/-- The gate after its window end: pending values come into force, the count is reloaded and a window starts (R51, R53). -/
def Gate.restart (now : Nat) (g : Gate) : Gate :=
  match g.pending with
  | none => { g with remaining := g.reload, windowStart := now }
  | some item => { tick := item.tick, reload := item.reload, remaining := item.reload, windowStart := now, pending := none }

/-- A counter at the window end of gate g: bound, it hands over its window; pending, it discards its count and is
bound; otherwise nothing (R51, R56). -/
def Pulse.windowEnd (g : Fin 4) (lengthMs : Nat) (p : Pulse) : Pulse × Option Window :=
  if p.binding = .bound g then
    ({ p with count := 0 },
     some { count := p.count, saturated := decide (p.count = Config.countMax), lengthMs := lengthMs })
  else if p.binding = .pending g then ({ p with count := 0, binding := .bound g }, none)
  else (p, none)

/-- GATE_WINDOW_END can be taken: the remaining count has reached 0. -/
def State.windowEndDue (s : State) (g : Fin 4) : Bool := decide (s.gates[g].remaining = 0)

/-- The window end of a gate (R51, R53, R56). -/
def State.windowEnd (g : Fin 4) (s : State) : State :=
  let length := s.gates[g].lengthMs
  { s with
    gates := modify s.gates g (Gate.restart s.now)
    measured := mapTable s.measured fun p => (p.windowEnd g length).1
    tach := mapTable s.tach fun p => (p.windowEnd g length).1
    mail := { s.mail with
      windows := Vector.ofFn fun i => s.mail.windows[i] ++ (s.measured[i].windowEnd g length).2.toList
      tachWindows := Vector.ofFn fun i => s.mail.tachWindows[i] ++ (s.tach[i].windowEnd g length).2.toList } }

/-- GATE_WINDOW_END (R51). -/
def execGateWindowEnd (gate : Fin 4) (s : State) : Host.Outcome State Fault Refusal :=
  internal s (s.windowEndDue gate) (State.windowEnd gate)

/-! ## Speed references (R57) -/

/-- The period start: every output takes the last duty set (R57). -/
def State.periodStart (s : State) : State :=
  { s with sref := mapTable s.fans.fans Fan.duty, periodDue := false }

/-- SPEED_REFERENCE_PERIOD_START (R57). -/
def execSpeedReferencePeriodStart (s : State) : Host.Outcome State Fault Refusal := internal s s.periodDue State.periodStart

/-! ## The 1 ms tick (R12, R43, R48, R50) -/

/-- What the tick does to the inputs and gates while the part is RUNNING: the samples of this tick fall due (R43, R48), the
gates count (R50) and a speed reference period is due (R57). -/
def State.tickInputs (s : State) : State :=
  { s with
    contacts := mapTable s.contacts ({ · with due := true })
    measured := mapTable s.measured ({ · with left := Config.samplesPerTick })
    tach := mapTable s.tach ({ · with left := Config.samplesPerTick })
    gates := mapTable s.gates (Gate.tickOn s.now)
    periodDue := true }

/-- A sample of this tick is still to come. -/
def State.samplesDue (s : State) : Bool :=
  anyEntry s.contacts (·.due) || anyEntry s.measured (fun p => decide (0 < p.due)) ||
    anyEntry s.tach (fun p => decide (0 < p.due))

/-- Every sample still to come is taken with the pins as they stand, and the confirmed changes are delivered (R43, R44, R46,
R48). -/
def State.takeSamples (s : State) : State :=
  { s with
    contacts := mapTable s.contacts fun c => (c.takeDue s.now).1
    measured := mapTable s.measured Pulse.takeDue
    tach := mapTable s.tach Pulse.takeDue
    mail := { s.mail with
      contactChanges := Vector.ofFn fun i => s.mail.contactChanges[i] ++ (s.contacts[i].takeDue s.now).2.toList } }

end Sys2Proof.Machine
end

