-- ==== Sys2Proof/Machine/Air.lean ====
section
/-! DEFINITION. The air measurement unit (sections 4.1 to 4.6): window hand-overs, history, bands, SUMMARY and zeroing. -/

namespace Sys2Proof.Machine

/-- Truncates toward zero and clips to -32767..32767 (R61). -/
def clipValue (i : Int) : Int := if i < -32767 then -32767 else if 32767 < i then 32767 else i

/-- The measured value of a count (R61). -/
def ChannelItem.value (item : ChannelItem) (count : Nat) : Int :=
  clipValue ((((count : Int) - item.zeroCount) * item.gain).tdiv 256)

/-- The status of a window and its value, if any (R61). -/
def ChannelItem.judge (item : ChannelItem) (w : Window) : ChannelStatus × Option Int :=
  if w.count < item.floor then (.fault, none)
  else if decide (item.ceiling < w.count) || w.saturated then (.over, some item.fullScale)
  else (.ok, some (item.value w.count))

/-- A value joins the history at its newest end; at depth entries the oldest leaves (R63). -/
def joinHistory (depth : Nat) (h : List Int) (v : Int) : List Int := (h ++ [v]).drop (h.length + 1 - depth)

/-- The value the band is evaluated from (R64). -/
def ChannelItem.compared (item : ChannelItem) (avg : Int) : Int :=
  match item.kind with
  | .velocity => avg.natAbs
  | _ => avg

/-- BAND_EVALUATION (R64). -/
def ChannelItem.bandAfter (item : ChannelItem) (before : Band) (avg : Int) : Band :=
  let x := item.compared avg
  match item.kind with
  | .pressure => .normal
  | _ =>
    match before with
    | .normal => if item.alarmOn ≤ x then .alarm else if item.warnOn ≤ x then .warn else .normal
    | .warn => if item.alarmOn ≤ x then .alarm else if item.warnOff ≤ x then .warn else .normal
    | .alarm => if item.alarmOff ≤ x then .alarm else if item.warnOff ≤ x then .warn else .normal

/-- A value joins: history, band, and SUMMARY on entry to ALARM in service (R62, R63, R64, R65). -/
def Channel.append (item : ChannelItem) (v : Int) (c : Channel) : Channel :=
  let h := joinHistory item.depth c.history v
  let band := item.bandAfter c.band ((average h).getD 0)
  { c with history := h, band := band
           summary := c.summary || (decide (band = .alarm) && decide (c.band ≠ .alarm) && !c.out) }

/-- An ordinary window (R61). -/
def Channel.ordinary (item : ChannelItem) (w : Window) (c : Channel) : Channel :=
  let r := item.judge w
  let d := { c with status := r.1 }
  match r.2 with
  | none => d
  | some v => d.append item v

/-- A hand-over that finds a zero pending takes the zero: the count lies from the floor to the ceiling, not
saturated (R71). It is the next hand-over taken, whenever its window began (log entry 48). -/
def Channel.takesZero (item : ChannelItem) (w : Window) (c : Channel) : Bool :=
  c.zero.isSome && decide (item.floor ≤ w.count) && decide (w.count ≤ item.ceiling) && !w.saturated

/-- The entry after a hand-over (R61, R62 step 3, R71). -/
def Channel.handOver (item : ChannelItem) (sec : DWord) (w : Window) (c : Channel) : Channel :=
  let d := if c.takesZero item w then { c with status := .ok, history := [], zero := none } else c.ordinary item w
  { d with lastCount := w.count, windowLength := w.lengthMs, windowTime := sec }

/-- The card attached to a channel's pending zero. -/
def Channel.zeroCard (c : Channel) : Option (Fin 4) := c.zero.bind (·.card)

/-- The entry when a LOAD of its item is committed (R73). -/
def Channel.load (c : Channel) : Channel := { c with history := [], band := .normal, zero := none }

/-- The entry when CHANNEL_SERVICE returns it to IN (R67). -/
def Channel.returnToService (c : Channel) : Channel :=
  { c with out := false, zero := none, summary := c.summary || decide (c.band = .alarm) }

/-! ## Completions sent to attached cards (R34) -/

/-- An answer without condition word. -/
def Answer.plain (o : CardOutcome) (r0 r1 : Word) : Answer :=
  { outcome := o, reason := .none, results := .words r0 r1 0 0, condition := none }

/-- A refusal with zero results (R32). -/
def Answer.refuse (r : CardReason) : Answer :=
  { outcome := .refused, reason := r, results := .words 0 0 0 0, condition := none }

/-- A completion is sent to the decks of attached cards (R30, R34). -/
def Mail.complete (m : Mail) (decks : List (Fin 4)) (a : Answer) : Mail :=
  { m with completions := Vector.ofFn fun d => if decks.contains d then some a else m.completions[d] }

/-- A re-evaluation event is delivered to a zone, if there is one (R78). -/
def Mail.reevaluate (m : Mail) (zone : Option (Fin 8)) : Mail :=
  match zone with
  | none => m
  | some z => { m with reevaluations := modify m.reevaluations z (· + 1) }

/-! ## WINDOW_HANDOVER -/

/-- The offset of the zero count of a channel item in the configuration block (sections 10.2, R71). -/
def zeroCountAddress (ch : Fin 12) : Nat := (ItemRef.channel ch).address + 8

/-- ZERO_TAKEN: the count becomes the zero count of the active and of the staged item (R71). -/
def State.takeZero (ch : Fin 12) (count : Nat) (s : State) : State :=
  { s with
    active := { s.active with channels := modify s.active.channels ch ({ · with zeroCount := count }) }
    cm := { s.cm with bytes := s.cm.bytes.writeWord (zeroCountAddress ch) (wordNat count) } }

/-- The hand-over of one window (R61, R62, R71). -/
def State.takeWindow (ch : Fin 12) (w : Window) (s : State) : State :=
  let item := s.active.channels[ch]
  let c := s.channels[ch]
  let d := c.handOver item s.regs.seconds w
  let m0 := { s.mail with windows := modify s.mail.windows ch List.tail }
  let m1 := if c.takesZero item w then m0.complete c.zeroCard.toList (.plain .done (wordNat w.count) 0) else m0
  let m2 := if c.status = d.status ∧ c.band = d.band then m1 else m1.reevaluate item.zone
  let m3 := if s.active.gallery.pressureChannel = some ch
    then { m2 with readings := m2.readings ++ [{ status := d.status, average := average d.history }] } else m2
  let t := if c.takesZero item w then s.takeZero ch w.count else s
  { t with channels := s.channels.set ch d, mail := m3 }

/-- WINDOW_HANDOVER (R61): the oldest window handed over for the channel is taken. -/
def execWindowHandover (channel : Fin 12) (s : State) : Host.Outcome State Fault Refusal :=
  internal s (!s.mail.windows[channel].isEmpty) fun s =>
    match s.mail.windows[channel] with
    | [] => s
    | w :: _ => s.takeWindow channel w

end Sys2Proof.Machine
end

