-- ==== Sys2Proof/Machine/Zones.lean ====
section
/-! DEFINITION. The zone evaluator (sections 4.7, 4.8): worst band, evidence, confirmation and creation requests. -/

namespace Sys2Proof.Machine

/-! ## What the channel table says of a zone (R76, R77) -/

/-- A channel is counted for a zone (R76). -/
def counted (item : ChannelItem) (c : Channel) (z : Fin 8) : Bool :=
  decide (item.zone = some z) && !c.out && (decide (c.status = .ok) || decide (c.status = .over))

/-- A kind enters the worst band (R76). -/
def ChannelKind.inWorst (k : ChannelKind) : Bool :=
  match k with
  | .velocity => false
  | .pressure => false
  | _ => true

/-- The higher of two bands. -/
def Band.max (a b : Band) : Band := if a.demand ≤ b.demand then b else a

/-- The worst band of a zone (R76). -/
def State.worstBand (s : State) (z : Fin 8) : Band :=
  (List.finRange 12).foldl (fun acc i =>
    if counted s.active.channels[i] s.channels[i] z && s.active.channels[i].kind.inWorst
    then acc.max s.channels[i].band else acc) .normal

/-- A channel triggers for a zone (R77). -/
def triggers (item : ChannelItem) (c : Channel) (z : Fin 8) : Bool :=
  counted item c z && item.trigger && decide (c.band = .alarm)

/-- A zone has evidence (R77). -/
def State.evidence (s : State) (z : Fin 8) : Bool :=
  (List.finRange 12).any fun i => triggers s.active.channels[i] s.channels[i] z

/-- The evidence list: the triggering channels in number order, cut to the first four (R77). -/
def State.evidenceList (s : State) (z : Fin 8) : List (Fin 12) :=
  ((List.finRange 12).filter fun i => triggers s.active.channels[i] s.channels[i] z).take 4

/-! ## Zone states (R79 to R83) -/

/-- A QUIET zone whose evidence appears with confirm time 0 asks for creation at once (R79). -/
def Zone.asksAtOnce (item : ZoneItem) (evidence : Bool) (z : Zone) : Bool :=
  evidence && !z.evidence && decide (z.state = .quiet) && decide (item.confirmTime = 0)

/-- The zone entry after a re-evaluation (R78, R79). -/
def Zone.reevaluate (item : ZoneItem) (now : Nat) (sec : DWord) (worst : Band) (evidence : Bool) (z : Zone) : Zone :=
  let y := { z with worst := worst, evidence := evidence }
  if evidence = z.evidence then y
  else if evidence then
    if z.state = .quiet ∧ item.confirmTime ≠ 0 then
      { y with state := .confirming, confirm := some { since := sec, due := now + seconds item.confirmTime } }
    else y
  else
    match z.state with
    | .confirming => { y with state := .quiet, confirm := none }
    | .blocked => { y with state := .quiet }
    | .held => { y with state := .quiet }
    | _ => y

/-- The answer Created, and the identity a DECLARE naming the zone delivers (R80, R83). -/
def Zone.created (i : Ident) (z : Zone) : Zone := { z with state := .triggered, confirm := none, ident := some i }

/-- The answer Full (R80). -/
def Zone.full (z : Zone) : Zone := { z with state := .blocked, confirm := none, ident := none }

/-- Incident freed (R82): the evidence is the zone's as recorded at its last re-evaluation (log entry 60). -/
def Zone.freed (i : Ident) (z : Zone) : Zone :=
  if z.state = .triggered ∧ z.ident = some i then
    { z with ident := none, state := if z.evidence then .held else .quiet }
  else z

/-- The position of a zone's centre niche (R74). -/
def ActiveConfig.zonePosition (cfg : ActiveConfig) (z : Fin 8) : Nat := cfg.span.firstNiche + cfg.zones[z].centre

/-- The creation request of a zone (R80). -/
def State.requestOf (s : State) (z : Fin 8) : CreationRequest :=
  { position := s.active.zonePosition z, template := s.active.zones[z].template, mirror := s.active.zones[z].mirror
    evidence := s.evidenceList z }

/-- The zone sends its creation request (R80). -/
def State.ask (z : Fin 8) (s : State) : State :=
  { s with mail := { s.mail with requests := s.mail.requests.set z (some (s.requestOf z)) } }

/-- No exchange of the zone with the incident unit is open: the zone may take events (R80, log entry 25). -/
def State.zoneFree (s : State) (z : Fin 8) : Bool := s.mail.requests[z].isNone

/-! ## The zone's events -/

/-- A re-evaluation of a zone (R78, R76); one that asks at once changes its state with the answer (log entry 57). -/
def State.reevaluate (z : Fin 8) (s : State) : State :=
  let item := s.active.zones[z]
  let old := s.zones[z]
  let worst := s.worstBand z
  let ev := s.evidence z
  let t := { s with
    zones := s.zones.set z (old.reevaluate item s.now s.regs.seconds worst ev)
    mail := { s.mail with
      demandLevels := if worst.demand = old.worst.demand then s.mail.demandLevels
        else modify s.mail.demandLevels z (· ++ [worst.demand]) } }
  if old.asksAtOnce item ev then t.ask z else t

/-- ZONE_REEVALUATION (R78). -/
def execZoneReevaluation (zone : Fin 8) (s : State) : Host.Outcome State Fault Refusal :=
  internal s (decide (0 < s.mail.reevaluations[zone]) && s.zoneFree zone) fun s =>
    State.reevaluate zone { s with mail := { s.mail with reevaluations := modify s.mail.reevaluations zone (· - 1) } }

/-- CONFIRM_TIMER_EXPIRY can be taken (R79). -/
def State.confirmDue (s : State) (z : Fin 8) : Bool :=
  decide (s.zones[z].state = .confirming) && expired (s.zones[z].confirm.map (·.due)) s.now && s.zoneFree z

/-- CONFIRM_TIMER_EXPIRY (R79): the zone asks for creation. -/
def execConfirmTimerExpiry (zone : Fin 8) (s : State) : Host.Outcome State Fault Refusal :=
  internal s (s.confirmDue zone) (State.ask zone)

/-- SLOT_FREED (R81): a BLOCKED zone asks for creation again. -/
def execSlotFreed (zone : Fin 8) (s : State) : Host.Outcome State Fault Refusal :=
  internal s (decide (0 < s.mail.slotFreed[zone]) && s.zoneFree zone) fun s =>
    let t := { s with mail := { s.mail with slotFreed := modify s.mail.slotFreed zone (· - 1) } }
    if s.zones[zone].state = .blocked then t.ask zone else t

/-- INCIDENT_FREED (R82). -/
def execIncidentFreed (zone : Fin 8) (s : State) : Host.Outcome State Fault Refusal :=
  internal s (!s.mail.incidentFreed[zone].isEmpty && s.zoneFree zone) fun s =>
    match s.mail.incidentFreed[zone] with
    | [] => s
    | i :: rest =>
      { s with zones := modify s.zones zone (Zone.freed i)
               mail := { s.mail with incidentFreed := s.mail.incidentFreed.set zone rest } }

end Sys2Proof.Machine
end

