-- ==== Sys2Proof/Machine/Fans.lean ====
section
/-! DEFINITION. The fan controller (chapter 5): claims, the state machine of each fan, the start queue and slots, tach
supervision, and what each event does to attached cards and availability. -/

namespace Sys2Proof.Machine

/-! ## Claims (R87 to R91) -/

/-- A request to run at a speed; speed 0 is read as STOP (R87). -/
def runTarget (dir : Direction) (speed : Nat) : Target := if speed = 0 then .stop else .run dir speed

/-- A zone covers a local niche (R89). -/
def ZoneItem.covers (z : ZoneItem) (niche : Nat) : Bool := decide (z.first ≤ niche) && decide (niche ≤ z.last)

/-- The demand level of a fan: the highest among the zones that cover its niche (R89). -/
def FanUnit.demandOf (cfg : ActiveConfig) (u : FanUnit) (f : Fin 8) : Nat :=
  (List.finRange 8).foldl (fun acc z =>
    if cfg.zones[z].covers cfg.fans[f].niche then max acc u.zoneDemand[z] else acc) 0

/-- The request of a fan in AUTO (R89). -/
def FanItem.autoTarget (item : FanItem) (level : Nat) : Target :=
  match level with
  | 0 => .stop
  | 1 => runTarget item.normalDirection item.speedL1
  | _ => runTarget item.normalDirection item.speedL2

/-- The request a placed action makes (R90). -/
def Fan.placedTarget (e : Fan) : Target :=
  match e.incident with
  | some (.run dir speed) => runTarget dir speed
  | some .keep => e.entryTarget.getD .stop
  | _ => .stop

/-- The host request as a target (R87, R89). -/
def Fan.hostTarget (item : FanItem) (e : Fan) : Target :=
  match e.request with
  | .manual dir speed => runTarget dir speed
  | .auto => item.autoTarget e.demand

/-- The highest claimant (R87). -/
def FanUnit.ownerOf (cfg : ActiveConfig) (u : FanUnit) (f : Fin 8) : Owner :=
  let e := u.fans[f]
  if e.out then .service
  else if e.localSwitch then .localPanel
  else if cfg.fans[f].role = .jet ∧ e.incident.isSome then .incident
  else if cfg.fans[f].role = .gallery ∧ u.galleryDemand ≠ .idle then .gallery
  else .host

/-- The request of the highest claimant (R87); the gallery speed is that of the active item for the demand copied, also while a
delivery of IDLE waits (R91, R129, log entry 64). -/
def FanUnit.targetOf (cfg : ActiveConfig) (u : FanUnit) (f : Fin 8) : Target :=
  match u.ownerOf cfg f with
  | .service => .stop
  | .localPanel => .stop
  | .incident => u.fans[f].placedTarget
  | .gallery => runTarget .fwd (gallerySpeed cfg.gallery u.galleryDemand)
  | .host => u.fans[f].hostTarget cfg.fans[f]

/-! ## The start queue (R102) -/

/-- The priority class of the start queue. -/
def Owner.priority (o : Owner) : Bool :=
  match o with
  | .incident => true
  | .gallery => true
  | _ => false

/-- A fan leaves the queue; those behind close up. -/
def FanUnit.leaveQueue (u : FanUnit) (f : Fin 8) : FanUnit :=
  { u with queue := u.queue.filter fun g => decide (g ≠ f) }

/-- A fan joins at the back of its class; one already queued keeps its place. -/
def FanUnit.joinQueue (u : FanUnit) (f : Fin 8) : FanUnit :=
  if u.queue.contains f then u
  else if u.fans[f].owner.priority then
    { u with queue := u.queue.filter (fun g => u.fans[g].owner.priority) ++ f ::
        u.queue.filter (fun g => !u.fans[g].owner.priority) }
  else { u with queue := u.queue ++ [f] }

/-! ## The state machine (R92 to R100) -/

/-- Replaces a fan's entry. -/
def FanUnit.change (u : FanUnit) (f : Fin 8) (g : Fan → Fan) : FanUnit := { u with fans := modify u.fans f g }

/-- A fan entry enters a state (R92): the rundown clock restarts when RUN goes off, timers follow the state, UNDERSPEED
and the fault cause clear. -/
def Fan.enter (x : Ctx) (item : FanItem) (st : FanState) (e : Fan) : Fan :=
  { e with
    state := st, entered := x.sec, cause := .none, supervised := false, underspeed := false
    rundownFrom := if e.state.runOn && !st.runOn then x.now else e.rundownFrom
    startLimitDue := if st = .starting then some (x.now + seconds item.startLimit) else none
    settleDue := if st = .running then some (x.now + seconds item.settleTime) else none }

/-- A fan enters a state other than QUEUED, and leaves the start queue (R92). -/
def FanUnit.enter (x : Ctx) (f : Fin 8) (st : FanState) (u : FanUnit) : FanUnit :=
  (u.change f (Fan.enter x x.cfg.fans[f] st)).leaveQueue f

/-- A fan enters QUEUED and stands in the queue, in its place if it was there (R93, R97). -/
def FanUnit.enterQueued (x : Ctx) (f : Fin 8) (u : FanUnit) : FanUnit :=
  (u.change f (Fan.enter x x.cfg.fans[f] .queued)).joinQueue f

/-- A fan enters FAULTED with a cause (R98). -/
def FanUnit.enterFaulted (x : Ctx) (f : Fin 8) (c : FanFault) (u : FanUnit) : FanUnit :=
  (u.enter x f .faulted).change f ({ · with cause := c })

/-- A fan enters STARTING, RUNNING or STOPPING, and goes on to FAULTED if its FAULT contact is active (R98). -/
def FanUnit.enterChecked (x : Ctx) (f : Fin 8) (st : FanState) (u : FanUnit) : FanUnit :=
  if u.fans[f].fault then (u.enter x f st).enterFaulted x f .driveFault else u.enter x f st

/-- A STOPPED fan pursues its live target (R93). -/
def FanUnit.leaveStopped (x : Ctx) (f : Fin 8) (u : FanUnit) : FanUnit :=
  match u.fans[f].target with
  | .stop => u
  | .run dir _ =>
    if u.fans[f].fault then u.enterFaulted x f .driveFault
    else (u.change f ({ · with reverse := decide (dir = .rev) })).enterQueued x f

/-- The rundown is over: RUNNING inactive and the rundown time passed on the clock (R97). -/
def Fan.rundownOver (x : Ctx) (item : FanItem) (e : Fan) : Bool :=
  !e.running && decide (e.rundownFrom + seconds item.rundownTime ≤ x.now)

/-- A STOPPING fan checks its rundown (R97): a fan queued for a flying restart keeps its place as QUEUED. -/
def FanUnit.checkRundown (x : Ctx) (f : Fin 8) (u : FanUnit) : FanUnit :=
  if u.fans[f].rundownOver x x.cfg.fans[f] then
    if u.queue.contains f then u.enterQueued x f else (u.enter x f .stopped).leaveStopped x f
  else u

/-- A fan enters STOPPING, and checks its FAULT contact and its rundown on entry (R97, R98). -/
def FanUnit.enterStopping (x : Ctx) (f : Fin 8) (u : FanUnit) : FanUnit :=
  if u.fans[f].fault then u.enterChecked x f .stopping else (u.enter x f .stopping).checkRundown x f

/-- The rundown clock restarts (R99, R100). -/
def FanUnit.restartClock (x : Ctx) (f : Fin 8) (u : FanUnit) : FanUnit := u.change f ({ · with rundownFrom := x.now })

/-- A target runs in the direction REVERSE shows (section 5.3). -/
def Fan.sameDirection (e : Fan) : Bool :=
  match e.target with
  | .stop => false
  | .run dir _ => decide (dir = .rev) == e.reverse

/-- A fan acts on a change of its live target (R93 to R98). -/
def FanUnit.pursue (x : Ctx) (f : Fin 8) (u : FanUnit) : FanUnit :=
  let e := u.fans[f]
  match e.state with
  | .stopped => u.leaveStopped x f
  | .queued => if e.sameDirection then u else (u.enter x f .stopped).leaveStopped x f
  | .starting => if e.sameDirection then u else u.enterStopping x f
  | .running =>
    if e.sameDirection then
      u.change f ({ · with settleDue := some (x.now + seconds x.cfg.fans[f].settleTime), supervised := false,
                           underspeed := false })
    else u.enterStopping x f
  | .stopping =>
    if e.sameDirection then (if x.cfg.fans[f].flyingRestart then u.joinQueue f else u) else u.leaveQueue f
  | _ => u

/-- Owner and live target are recomputed; a queued fan whose class changes goes to the back of its new class (R87, R102). -/
def FanUnit.claim (x : Ctx) (f : Fin 8) (u : FanUnit) : FanUnit :=
  let owner := u.ownerOf x.cfg f
  let v := u.change f ({ · with owner := owner, target := u.targetOf x.cfg f })
  if u.queue.contains f ∧ owner.priority ≠ u.fans[f].owner.priority then (v.leaveQueue f).joinQueue f else v

/-- LIVE_TARGET_CHANGE (R87): owner and target are recomputed and a new target is handed to the state machine. -/
def FanUnit.recompute (x : Ctx) (f : Fin 8) (u : FanUnit) : FanUnit :=
  let v := u.claim x f
  if v.fans[f].target = u.fans[f].target then v else v.pursue x f

/-- Several fans recompute, in fan order (log entry 20). -/
def FanUnit.recomputeAll (x : Ctx) (which : Fin 8 → Bool) (u : FanUnit) : FanUnit :=
  (List.finRange 8).foldl (fun v f => if which f then v.recompute x f else v) u

/-! ## Start slots (R95, R103) -/

/-- The number of fans that hold a start slot. -/
def FanUnit.starting (u : FanUnit) : Nat := ((List.finRange 8).filter fun f => decide (u.fans[f].state = .starting)).length

/-- A fan is granted a slot and enters STARTING; caught on the fly, it goes on to RUNNING (R95, R103). -/
def FanUnit.start (x : Ctx) (f : Fin 8) (u : FanUnit) : FanUnit :=
  let v := u.enterChecked x f .starting
  if v.fans[f].state = .starting ∧ v.fans[f].running then v.enter x f .running else v

/-- SLOT_GRANT (R103): while a slot is free, the head of the queue is granted one; `fuel` bounds the queue's length. -/
def FanUnit.grant (x : Ctx) (fuel : Nat) (u : FanUnit) : FanUnit :=
  match fuel with
  | 0 => u
  | fuel + 1 =>
    match u.queue with
    | [] => u
    | f :: _ => if u.starting < x.cfg.span.startSlots then (u.start x f).grant x fuel else u

/-! ## What an event leaves: cards and availability (R101, R106) -/

/-- A fan in FAULTED, LOCAL or SERVICE (R101, R106). -/
def FanState.unavailable (s : FanState) : Bool :=
  match s with
  | .faulted => true
  | .localPanel => true
  | .service => true
  | _ => false

/-- The requested state: the live target reached (R105). -/
def Fan.reached (e : Fan) : Bool :=
  match e.target with
  | .stop => decide (e.state = .stopped)
  | .run _ _ => decide (e.state = .running) && e.sameDirection

/-- An event overtakes the cards attached before it (R106). -/
def overtakes (before after : Fan) : Bool :=
  decide (before.target ≠ after.target) || (decide (before.owner = .host) && decide (after.owner ≠ .host)) ||
    after.state.unavailable

/-- The decks of the attached cards of the fans that satisfy a test. -/
def FanUnit.cards (u : FanUnit) (which : Fin 8 → Bool) : List (Fin 4) :=
  (List.finRange 8).flatMap fun f => if which f then u.fans[f].attached else []

/-- The availability changes an event makes, appended to those outstanding (R101, log entry 17). -/
def availabilityMail (before after : FanUnit) (m : Vector (List Bool) 8) : Vector (List Bool) 8 :=
  Vector.ofFn fun f =>
    if before.fans[f].state.unavailable = after.fans[f].state.unavailable then m[f]
    else m[f] ++ [!after.fans[f].state.unavailable]

/-- A completion that shows a fan's status when the card completes (R105, log entry 18). -/
def Answer.fanStatus (o : CardOutcome) (f : Fin 8) : Answer :=
  { outcome := o, reason := .none, results := .fanStatus f, condition := none }

/-- Sends a completion to every card of the fans that satisfy a test. -/
def Mail.completeFans (m : Mail) (u : FanUnit) (which : Fin 8 → Bool) (o : CardOutcome) : Mail :=
  (List.finRange 8).foldl (fun m f => if which f then m.complete u.fans[f].attached (.fanStatus o f) else m) m

/-- One event at the fan controller: the event acts, slots are granted (R103), cards attached before it complete
OVERTAKEN or DONE (R106), and availability changes are delivered (R101). -/
def State.fanEvent (act : FanUnit → FanUnit) (s : State) : State :=
  let u := (act s.fans).grant s.ctx 8
  let late (f : Fin 8) : Bool := overtakes s.fans.fans[f] u.fans[f]
  let done (f : Fin 8) : Bool := !late f && u.fans[f].reached
  let m := (s.mail.completeFans u late .overtaken).completeFans u done .done
  { s with
    fans := { u with fans := Vector.ofFn fun f =>
                if late f || done f then { u.fans[f] with attached := [] } else u.fans[f] }
    mail := { m with availability := availabilityMail s.fans u m.availability } }

/-! ## Contact changes (R93 to R101) -/

/-- A change of the RUNNING contact (R93 to R97); a QUEUED fan that it takes to STOPPING leaves the queue, and joins it for a
flying restart only at a change of its live target (log entry 50). -/
def FanUnit.runningContact (x : Ctx) (f : Fin 8) (level : Bool) (u : FanUnit) : FanUnit :=
  let v := u.change f ({ · with running := level })
  match u.fans[f].state with
  | .stopped => if level then v.enterStopping x f else v
  | .queued => if level then v.enterStopping x f else v
  | .starting => if level then v.enterChecked x f .running else v
  | .running => if level then v else v.enterFaulted x f .feedbackLost
  | .stopping => v.checkRundown x f
  | _ => v

/-- A change of the FAULT contact (R98). -/
def FanUnit.faultContact (x : Ctx) (f : Fin 8) (level : Bool) (u : FanUnit) : FanUnit :=
  let v := u.change f ({ · with fault := level })
  if level then
    match u.fans[f].state with
    | .queued => v.enterFaulted x f .driveFault
    | .starting => v.enterFaulted x f .driveFault
    | .running => v.enterFaulted x f .driveFault
    | .stopping => v.enterFaulted x f .driveFault
    | _ => v
  else v

/-- A change of the LOCAL contact (R99): on leaving LOCAL the fan waits for its rundown before it pursues its target
(log entry 15). -/
def FanUnit.localContact (x : Ctx) (f : Fin 8) (level : Bool) (u : FanUnit) : FanUnit :=
  let v := u.change f ({ · with localSwitch := level })
  if u.fans[f].state = .service then v.claim x f
  else if level then (v.enter x f .localPanel).claim x f
  else if u.fans[f].state = .localPanel then ((v.claim x f).restartClock x f).enterStopping x f
  else v.recompute x f

/-- The oldest change of a contact leaves the queue of deliveries. -/
def State.popContact (i : Fin 36) (s : State) : State :=
  { s with mail := { s.mail with contactChanges := modify s.mail.contactChanges i List.tail } }

/-- One debounced change of a fan's contact k, if one is outstanding. -/
def State.fanContact (f : Fin 8) (k : Fin 3) (act : Ctx → Bool → FanUnit → FanUnit) (s : State) : State :=
  match s.mail.contactChanges[fanInput f k] with
  | [] => s
  | level :: _ => (s.popContact (fanInput f k)).fanEvent (act s.ctx level)

/-- A change of a contact is outstanding. -/
def State.contactWaiting (s : State) (i : Fin 36) : Bool := !s.mail.contactChanges[i].isEmpty

/-- FAN_RUNNING_CONTACT (R95). -/
def execFanRunningContact (fan : Fin 8) (s : State) : Host.Outcome State Fault Refusal :=
  internal s (s.contactWaiting (fanInput fan 0)) (State.fanContact fan 0 fun x l => FanUnit.runningContact x fan l)

/-- FAN_FAULT_CONTACT (R98). -/
def execFanFaultContact (fan : Fin 8) (s : State) : Host.Outcome State Fault Refusal :=
  internal s (s.contactWaiting (fanInput fan 1)) (State.fanContact fan 1 fun x l => FanUnit.faultContact x fan l)

/-- FAN_LOCAL_CONTACT (R99). -/
def execFanLocalContact (fan : Fin 8) (s : State) : Host.Outcome State Fault Refusal :=
  internal s (s.contactWaiting (fanInput fan 2)) (State.fanContact fan 2 fun x l => FanUnit.localContact x fan l)

/-! ## Claim events -/

/-- DEMAND_LEVEL_CHANGE (R89): the fans that the zone covers recompute. -/
def FanUnit.zoneDemandChange (x : Ctx) (z : Fin 8) (level : Nat) (u : FanUnit) : FanUnit :=
  let v := { u with zoneDemand := u.zoneDemand.set z level }
  let covered (f : Fin 8) : Bool := x.cfg.zones[z].covers x.cfg.fans[f].niche
  let fans : Vector Fan 8 := Vector.ofFn fun f =>
    if covered f then { v.fans[f] with demand := v.demandOf x.cfg f } else v.fans[f]
  FanUnit.recomputeAll x covered { v with fans := fans }

/-- DEMAND_LEVEL_CHANGE (R89). -/
def execDemandLevelChange (zone : Fin 8) (s : State) : Host.Outcome State Fault Refusal :=
  internal s (!s.mail.demandLevels[zone].isEmpty) fun s =>
    match s.mail.demandLevels[zone] with
    | [] => s
    | level :: rest =>
      State.fanEvent (FanUnit.zoneDemandChange s.ctx zone level)
        { s with mail := { s.mail with demandLevels := s.mail.demandLevels.set zone rest } }

/-- ZONE_LOAD_COMMIT (R89): every fan's demand level is recomputed with the new coverage and the zone's demand level as
the zone evaluator then reports it. -/
def FanUnit.zoneLoadCommit (x : Ctx) (z : Fin 8) (level : Nat) (u : FanUnit) : FanUnit :=
  let v := { u with zoneDemand := u.zoneDemand.set z level }
  let fans : Vector Fan 8 := Vector.ofFn fun f => { v.fans[f] with demand := v.demandOf x.cfg f }
  FanUnit.recomputeAll x (fun _ => true) { v with fans := fans }

/-- ZONE_LOAD_COMMIT (R89). -/
def execZoneLoadCommit (s : State) : Host.Outcome State Fault Refusal :=
  internal s (!s.mail.zoneCommits.isEmpty) fun s =>
    match s.mail.zoneCommits with
    | [] => s
    | z :: rest =>
      State.fanEvent (FanUnit.zoneLoadCommit s.ctx z s.zones[z].worst.demand)
        { s with mail := { s.mail with zoneCommits := rest } }

/-- The entry of a fan in a placement list. -/
def listed (l : List ListEntry) (f : Fin 8) : Option ListEntry := l.find? fun e => decide (e.fan = f)

/-- A fan's incident request and entry target under a new placement list (R90). -/
def Fan.place (entry : Option ListEntry) (e : Fan) : Fan :=
  match entry with
  | none => { e with incident := none, entryTarget := none }
  | some p => { e with incident := some p.action
                       entryTarget := if e.incident.isSome then e.entryTarget else some e.target }

/-- PLACEMENT_CHANGE (R90). -/
def FanUnit.placementChange (x : Ctx) (l : List ListEntry) (u : FanUnit) : FanUnit :=
  FanUnit.recomputeAll x (fun _ => true) { u with fans := Vector.ofFn fun f => u.fans[f].place (listed l f) }

/-- PLACEMENT_CHANGE (R90). -/
def execPlacementChange (s : State) : Host.Outcome State Fault Refusal :=
  internal s (!s.mail.placements.isEmpty) fun s =>
    match s.mail.placements with
    | [] => s
    | l :: rest =>
      State.fanEvent (FanUnit.placementChange s.ctx l) { s with mail := { s.mail with placements := rest } }

/-- GALLERY_DEMAND_CHANGE (R91): the gallery fans recompute. -/
def FanUnit.galleryChange (x : Ctx) (d : GalleryDemand) (u : FanUnit) : FanUnit :=
  FanUnit.recomputeAll x (fun f => decide (x.cfg.fans[f].role = .gallery)) { u with galleryDemand := d }

/-- GALLERY_DEMAND_CHANGE (R91). -/
def execGalleryDemandChange (s : State) : Host.Outcome State Fault Refusal :=
  internal s (!s.mail.galleryDemands.isEmpty) fun s =>
    match s.mail.galleryDemands with
    | [] => s
    | d :: rest =>
      State.fanEvent (FanUnit.galleryChange s.ctx d) { s with mail := { s.mail with galleryDemands := rest } }

/-! ## Timers -/

/-- START_LIMIT_EXPIRY can be taken (R95). -/
def State.startLimitDue (s : State) (f : Fin 8) : Bool :=
  decide (s.fans.fans[f].state = .starting) && expired s.fans.fans[f].startLimitDue s.now

/-- START_LIMIT_EXPIRY (R95). -/
def execStartLimitExpiry (fan : Fin 8) (s : State) : Host.Outcome State Fault Refusal :=
  internal s (s.startLimitDue fan) fun s => s.fanEvent (FanUnit.enterFaulted s.ctx fan .startFailed)

/-- SETTLE_EXPIRY can be taken (R96). -/
def State.settleDue (s : State) (f : Fin 8) : Bool :=
  decide (s.fans.fans[f].state = .running) && expired s.fans.fans[f].settleDue s.now

/-- Supervision begins (R96). -/
def FanUnit.supervise (f : Fin 8) (u : FanUnit) : FanUnit := u.change f ({ · with settleDue := none, supervised := true })

/-- SETTLE_EXPIRY (R96). -/
def execSettleExpiry (fan : Fin 8) (s : State) : Host.Outcome State Fault Refusal :=
  internal s (s.settleDue fan) (State.fanEvent (FanUnit.supervise fan))

/-- RUNDOWN_EXPIRY can be taken (R97): the rundown time has passed with RUNNING inactive. -/
def State.rundownDue (s : State) (f : Fin 8) : Bool :=
  decide (s.fans.fans[f].state = .stopping) && s.fans.fans[f].rundownOver s.ctx s.active.fans[f]

/-- RUNDOWN_EXPIRY (R97). -/
def execRundownExpiry (fan : Fin 8) (s : State) : Host.Outcome State Fault Refusal :=
  internal s (s.rundownDue fan) fun s => s.fanEvent (FanUnit.checkRundown s.ctx fan)

/-! ## Tach supervision (R104) -/

/-- The speed a tach window shows (R104). -/
def FanItem.rpm (item : FanItem) (w : Window) : Nat := min 65535 (w.count * 60000 / (w.lengthMs * item.pulsesPerRev))

/-- The underspeed limit (R104). -/
def FanItem.underspeedLimit (item : FanItem) (speed : Nat) : Nat :=
  speed * item.ratedRpm * item.underspeedPercent / 10000

/-- A tach hand-over (R104); with no tach gate the last rpm is 0 (log entry 41), and a window handed over before a LOAD is taken under
the new item (log entry 61). -/
def Fan.tachWindow (item : FanItem) (w : Window) (e : Fan) : Fan :=
  if item.tachGate = none then e
  else
    { e with
      lastRpm := item.rpm w
      underspeed := if e.state = .running ∧ e.supervised then decide (item.rpm w < item.underspeedLimit e.target.speed)
        else e.underspeed }

/-- TACH_HANDOVER (R104). -/
def execTachHandover (fan : Fin 8) (s : State) : Host.Outcome State Fault Refusal :=
  internal s (!s.mail.tachWindows[fan].isEmpty) fun s =>
    match s.mail.tachWindows[fan] with
    | [] => s
    | w :: rest =>
      State.fanEvent (fun u => u.change fan (Fan.tachWindow s.active.fans[fan] w))
        { s with mail := { s.mail with tachWindows := s.mail.tachWindows.set fan rest } }

/-! ## Entering RUNNING (R86, R101) -/

/-- A fan takes its starting contact levels (R101). -/
def FanUnit.takeUp (x : Ctx) (f : Fin 8) (running fault localSwitch : Bool) (u : FanUnit) : FanUnit :=
  let v := u.change f ({ · with running := running, fault := fault, localSwitch := localSwitch,
                                rundownFrom := x.now, entered := x.sec })
  if localSwitch then (v.enter x f .localPanel).claim x f
  else if running then v.enterStopping x f
  else v

/-- The fan controller on entering RUNNING, from the first levels of the contacts (R86, R101). -/
def FanUnit.enterRunning (x : Ctx) (levels : Vector Contact 36) : FanUnit :=
  (List.finRange 8).foldl (fun u f =>
    u.takeUp x f levels[fanInput f 0].level levels[fanInput f 1].level levels[fanInput f 2].level) FanUnit.reset

end Sys2Proof.Machine
end

