-- ==== Sys2Proof/Machine/Doors.lean ====
section
/-! DEFINITION. The door controller (chapter 6): the state machine of each door, the reach list and secure wanted, the push
sequence, the gallery demand and the copy of the pressure reading. -/

namespace Sys2Proof.Machine

/-! ## Reach (R111, R123) -/

/-- A door is secure wanted: its host mode is SECURE and no entry of the reach list lies within door reach (R111). -/
def wantsSecure (cfg : ActiveConfig) (reach : List ReachEntry) (d : Fin 4) (e : Door) : Bool :=
  e.secureMode && !reach.any fun r => decide (distance r.position (doorNiche cfg d) ≤ cfg.span.doorReach)

/-- The reach list after a delivery of the incident unit (R111). -/
def reachAfter (m : IncidentDelivery) (l : List ReachEntry) : List ReachEntry :=
  let gone := l.filter fun r => decide (r.ident ≠ m.ident)
  match m.state with
  | none => gone
  | some .clearing => gone
  | some _ => if l.any fun r => decide (r.ident = m.ident) then l else l ++ [{ ident := m.ident, position := m.position }]

/-- The gallery demand that the door states and the reach list give (R123). -/
def DoorUnit.demandOf (cfg : ActiveConfig) (u : DoorUnit) : GalleryDemand :=
  if anyEntry u.doors fun d => decide (d.state = .opening) then .relief
  else if (galleryEntries cfg u.reach).isEmpty then .idle
  else if anyEntry u.doors fun d => d.state.isOpen then .outflow
  else .pressurise

/-- A usable reading is at or below the open limit: the test of the pressure path (R117). -/
def pressurePasses (g : GalleryItem) (r : Reading) : Bool :=
  g.pressureChannel.isSome && (decide (r.status = .ok) || decide (r.status = .over)) &&
    (match r.average with
     | none => false
     | some a => decide (a ≤ g.openLimit))

/-! ## Entering the states (R112 to R120) -/

/-- A door enters a state: the timers and ASSIST of the state left stop (R110); the fault cause is BOLT in FAULT alone
(R120, R126, R127). -/
def Door.enter (x : Ctx) (st : DoorState) (e : Door) : Door :=
  { e with state := st, entered := x.sec, assist := false, boltDue := none, heldOpenDue := none, reliefDue := none
           assistDue := none, boltFault := decide (st = .fault) }

/-- A door throws its bolt: SECURED if it shows thrown, else BOLTING with the bolt timer (R114, R115, R116). -/
def Door.throwBolt (x : Ctx) (item : DoorItem) (e : Door) : Door :=
  if e.bolted then e.enter x .secured
  else { e.enter x .bolting with boltDue := some (x.now + seconds item.boltTime) }

/-- A door enters OPEN; a held-open time of 0 starts no timer (R119). -/
def Door.goOpen (x : Ctx) (item : DoorItem) (e : Door) : Door :=
  { e.enter x .openLeaf with
    heldOpenDue := if item.heldOpenTime = 0 then none else some (x.now + seconds item.heldOpenTime) }

/-- A door enters FORCED and latches its flag (R116). -/
def Door.goForced (x : Ctx) (e : Door) : Door := { e.enter x .forced with forcedFlag := true }

/-- ASSIST comes on by a path and the assist timer starts (R117). -/
def Door.energise (x : Ctx) (item : DoorItem) (p : AssistPath) (e : Door) : Door :=
  { e with assist := true, path := p, assistDue := some (x.now + seconds item.assistTime) }

/-- A door enters OPENING, with the pressure test on entry (R117). -/
def Door.goOpening (x : Ctx) (item : DoorItem) (passes : Bool) (e : Door) : Door :=
  let o := { e.enter x .opening with path := .none, reliefDue := some (x.now + seconds item.reliefTime) }
  if passes then o.energise x item .pressure else o

/-- A door takes up its contacts from RELEASED (R112). -/
def Door.takeUp (x : Ctx) (item : DoorItem) (e : Door) : Door :=
  if !e.closed then e.goOpen x item else if e.secureWanted then e.throwBolt x item else e

/-! ## Events of one door -/

/-- A change of secure wanted is taken by the door's state (R113 to R116). -/
def Door.takeSecure (x : Ctx) (item : DoorItem) (wanted : Bool) (e : Door) : Door :=
  let d := { e with secureWanted := wanted }
  if wanted = e.secureWanted then e
  else if wanted then
    if e.state = .released ∧ e.closed then d.throwBolt x item else d
  else
    match e.state with
    | .bolting => d.enter x .released
    | .secured => d.enter x .released
    | .forced => d.goOpen x item
    | _ => d

/-- CLOSED becomes active (R113, R116, R118, R119). -/
def Door.closedReturns (x : Ctx) (item : DoorItem) (e : Door) : Door :=
  match e.state with
  | .forced => e.throwBolt x item
  | .openLeaf => if e.secureWanted then e.throwBolt x item else e.enter x .released
  | .heldOpen => if e.secureWanted then e.throwBolt x item else e.enter x .released
  | _ => e

/-- CLOSED becomes inactive (R113 to R115, R118). -/
def Door.closedLost (x : Ctx) (item : DoorItem) (e : Door) : Door :=
  match e.state with
  | .released => e.goOpen x item
  | .bolting => e.goOpen x item
  | .secured => if e.push then e.goOpen x item else e.goForced x
  | .opening => e.goOpen x item
  | _ => e

/-- A change of the CLOSED contact. -/
def Door.closedContact (x : Ctx) (item : DoorItem) (level : Bool) (e : Door) : Door :=
  let d := { e with closed := level }
  if level then d.closedReturns x item else d.closedLost x item

/-- A change of the BOLTED contact (R114, R115). -/
def Door.boltedContact (x : Ctx) (item : DoorItem) (level : Bool) (e : Door) : Door :=
  let d := { e with bolted := level }
  match e.state with
  | .bolting => if level then d.enter x .secured else d
  | .secured => if level then d else d.throwBolt x item
  | _ => d

/-- A change of the PUSH contact (R113 to R117). -/
def Door.pushContact (x : Ctx) (item : DoorItem) (passes level : Bool) (e : Door) : Door :=
  let d := { e with push := level }
  if level then
    match e.state with
    | .released => d.goOpening x item passes
    | .bolting => d.goOpening x item passes
    | .secured => d.goOpening x item passes
    | .forced => d.goOpen x item
    | _ => d
  else d

/-- The relief clock has expired: with ASSIST off, the time path (R117). -/
def Door.reliefExpired (x : Ctx) (item : DoorItem) (e : Door) : Door :=
  let d := { e with reliefDue := none }
  if e.assist then d else d.energise x item .time

/-- The assist timer has expired (R118). -/
def Door.assistExpired (x : Ctx) (item : DoorItem) (e : Door) : Door :=
  ({ e.enter x .released with assistTimeoutFlag := true }).takeUp x item

/-- The held-open timer has expired (R119). -/
def Door.heldOpenExpired (x : Ctx) (e : Door) : Door := { e.enter x .heldOpen with heldOpenFlag := true }

/-- A delivered reading is tested by a door in OPENING with ASSIST off (R124). -/
def Door.testReading (x : Ctx) (item : DoorItem) (passes : Bool) (e : Door) : Door :=
  if e.state = .opening ∧ e.assist = false ∧ passes then e.energise x item .pressure else e

/-- DOOR_RESET's effect (R127). -/
def Door.resetFlags (x : Ctx) (item : DoorItem) (e : Door) : Door :=
  let d := { e with
    assistTimeoutFlag := false
    forcedFlag := e.forcedFlag && decide (e.state = .forced)
    heldOpenFlag := e.heldOpenFlag && decide (e.state = .heldOpen) }
  if e.state = .fault then (d.enter x .released).takeUp x item else d

/-! ## Events of the controller -/

/-- Changes one door, in the light of its item. -/
def DoorUnit.change (x : Ctx) (d : Fin 4) (f : DoorItem → Door → Door) (u : DoorUnit) : DoorUnit :=
  { u with doors := modify u.doors d (f x.cfg.doors[d]) }

/-- Secure wanted of one door is recomputed and a change is taken (R111). -/
def DoorUnit.recomputeSecure (x : Ctx) (d : Fin 4) (u : DoorUnit) : DoorUnit :=
  u.change x d fun item e => e.takeSecure x item (wantsSecure x.cfg u.reach d e)

/-- INCIDENT_DELIVERY (R111): the reach list, then secure wanted of every door. -/
def DoorUnit.incident (x : Ctx) (m : IncidentDelivery) (u : DoorUnit) : DoorUnit :=
  let reach := reachAfter m u.reach
  { u with
    reach := reach
    doors := Vector.ofFn fun d => u.doors[d].takeSecure x x.cfg.doors[d] (wantsSecure x.cfg reach d u.doors[d]) }

/-- PRESSURE_READING (R124): the copy is replaced and every door tests it, also where the channel named has changed since the
reading was sent (log entry 51). -/
def DoorUnit.reading (x : Ctx) (r : Reading) (u : DoorUnit) : DoorUnit :=
  { u with
    pressure := r
    doors := Vector.ofFn fun d => u.doors[d].testReading x x.cfg.doors[d] (pressurePasses x.cfg.gallery r) }

/-- GALLERY_DEMAND_RECOMPUTE (R123). -/
def DoorUnit.settle (x : Ctx) (u : DoorUnit) : DoorUnit :=
  if u.demandOf x.cfg = u.demand then u else { u with demand := u.demandOf x.cfg, demandEntered := x.sec }

/-- One event at the door controller: it acts, the gallery demand is recomputed, and a change of it is delivered to the
fan controller (R123). -/
def State.doorEvent (act : DoorUnit → DoorUnit) (s : State) : State :=
  let u := (act s.doors).settle s.ctx
  { s with
    doors := u
    mail := if u.demand = s.doors.demand then s.mail
      else { s.mail with galleryDemands := s.mail.galleryDemands ++ [u.demand] } }

/-- One debounced change of a door's contact k, if one is outstanding. -/
def State.doorContact (d : Fin 4) (k : Fin 3) (act : Ctx → Bool → DoorUnit → DoorUnit) (s : State) : State :=
  match s.mail.contactChanges[doorInput d k] with
  | [] => s
  | level :: _ => (s.popContact (doorInput d k)).doorEvent (act s.ctx level)

/-- DOOR_CLOSED_CONTACT (R113). -/
def execDoorClosedContact (door : Fin 4) (s : State) : Host.Outcome State Fault Refusal :=
  internal s (s.contactWaiting (doorInput door 0)) (State.doorContact door 0 fun x l u =>
    u.change x door fun item e => e.closedContact x item l)

/-- DOOR_BOLTED_CONTACT (R114). -/
def execDoorBoltedContact (door : Fin 4) (s : State) : Host.Outcome State Fault Refusal :=
  internal s (s.contactWaiting (doorInput door 1)) (State.doorContact door 1 fun x l u =>
    u.change x door fun item e => e.boltedContact x item l)

/-- DOOR_PUSH_CONTACT (R117). -/
def execDoorPushContact (door : Fin 4) (s : State) : Host.Outcome State Fault Refusal :=
  internal s (s.contactWaiting (doorInput door 2)) (State.doorContact door 2 fun x l u =>
    u.change x door fun item e => e.pushContact x item (pressurePasses x.cfg.gallery u.pressure) l)

/-- INCIDENT_DELIVERY (R111). -/
def execIncidentDelivery (s : State) : Host.Outcome State Fault Refusal :=
  internal s (!s.mail.incidents.isEmpty) fun s =>
    match s.mail.incidents with
    | [] => s
    | m :: rest => State.doorEvent (DoorUnit.incident s.ctx m) { s with mail := { s.mail with incidents := rest } }

/-- PRESSURE_READING (R124). -/
def execPressureReading (s : State) : Host.Outcome State Fault Refusal :=
  internal s (!s.mail.readings.isEmpty) fun s =>
    match s.mail.readings with
    | [] => s
    | r :: rest => State.doorEvent (DoorUnit.reading s.ctx r) { s with mail := { s.mail with readings := rest } }

/-! ## Timers -/

/-- BOLT_TIMER_EXPIRY can be taken (R114). -/
def State.boltDue (s : State) (d : Fin 4) : Bool :=
  decide (s.doors.doors[d].state = .bolting) && expired s.doors.doors[d].boltDue s.now

/-- BOLT_TIMER_EXPIRY (R114, R120). -/
def execBoltTimerExpiry (door : Fin 4) (s : State) : Host.Outcome State Fault Refusal :=
  internal s (s.boltDue door) fun s => s.doorEvent fun u => u.change s.ctx door fun _ e => e.enter s.ctx .fault

/-- RELIEF_CLOCK_EXPIRY can be taken (R117). -/
def State.reliefDue (s : State) (d : Fin 4) : Bool :=
  decide (s.doors.doors[d].state = .opening) && expired s.doors.doors[d].reliefDue s.now

/-- RELIEF_CLOCK_EXPIRY (R117). -/
def execReliefClockExpiry (door : Fin 4) (s : State) : Host.Outcome State Fault Refusal :=
  internal s (s.reliefDue door) fun s => s.doorEvent fun u => u.change s.ctx door fun item e => e.reliefExpired s.ctx item

/-- ASSIST_TIMER_EXPIRY can be taken (R118). -/
def State.assistDue (s : State) (d : Fin 4) : Bool :=
  decide (s.doors.doors[d].state = .opening) && expired s.doors.doors[d].assistDue s.now

/-- ASSIST_TIMER_EXPIRY (R118). -/
def execAssistTimerExpiry (door : Fin 4) (s : State) : Host.Outcome State Fault Refusal :=
  internal s (s.assistDue door) fun s => s.doorEvent fun u => u.change s.ctx door fun item e => e.assistExpired s.ctx item

/-- HELD_OPEN_EXPIRY can be taken (R119). -/
def State.heldOpenDue (s : State) (d : Fin 4) : Bool :=
  decide (s.doors.doors[d].state = .openLeaf) && expired s.doors.doors[d].heldOpenDue s.now

/-- HELD_OPEN_EXPIRY (R119). -/
def execHeldOpenExpiry (door : Fin 4) (s : State) : Host.Outcome State Fault Refusal :=
  internal s (s.heldOpenDue door) fun s => s.doorEvent fun u => u.change s.ctx door fun _ e => e.heldOpenExpired s.ctx

/-! ## Entering RUNNING (R110, R112, R124) -/

/-- A door on entering RUNNING: its initial mode, its starting contact levels, secure wanted by its definition (log
entry 42), then the take-up. -/
def Door.enterRunning (x : Ctx) (item : DoorItem) (closed bolted push : Bool) : Door :=
  ({ Door.reset with
     secureMode := item.initialSecure, secureWanted := item.initialSecure, closed := closed, bolted := bolted
     push := push, entered := x.sec }).takeUp x item

/-- The door controller on entering RUNNING, from the first levels of the contacts. -/
def DoorUnit.enterRunning (x : Ctx) (levels : Vector Contact 36) : DoorUnit :=
  { DoorUnit.reset with
    doors := Vector.ofFn fun d => Door.enterRunning x x.cfg.doors[d] levels[doorInput d 0].level
      levels[doorInput d 1].level levels[doorInput d 2].level
    demandEntered := x.sec }

end Sys2Proof.Machine
end

