-- ==== Sys2Proof/Machine/Incidents.lean ====
section
/-! DEFINITION. The incident unit (chapter 7): identities, slots and displacement, notices, the governing record, and the
life of a record. -/

namespace Sys2Proof.Machine

/-! ## What an event of the incident unit does (R131) -/

/-- The unit after an event with what it sends: deliveries to the door controller, identities freed, whether a slot
stays EMPTY, and notices for both ports. -/
structure IncidentStep where
  unit : IncidentUnit
  deliveries : List IncidentDelivery
  freed : List Ident
  slotFreed : Bool
  notices : List Notice
  deriving DecidableEq, Repr

/-- An event that sends nothing. -/
def IncidentStep.silent (u : IncidentUnit) : IncidentStep :=
  { unit := u, deliveries := [], freed := [], slotFreed := false, notices := [] }

/-- The delivery of a record's present state. -/
def Incident.delivery (r : Incident) : IncidentDelivery := { ident := r.ident, position := r.position, state := some r.state }

/-! ## Governing (R139) -/

/-- A record is eligible. -/
def Incident.eligible (r : Incident) : Bool := decide (r.state ≠ .clearing)

/-- The governing order: earlier start (signed), then lower span id, then lower sequence (R139). -/
def Incident.before (a b : Incident) : Bool :=
  decide (a.start.toInt < b.start.toInt) ||
    (decide (a.start = b.start) && (decide (a.ident.span.toNat < b.ident.span.toNat) ||
      (decide (a.ident.span = b.ident.span) && decide (a.ident.seq.toNat < b.ident.seq.toNat))))

/-- Of the slots that satisfy a test, the one that `better` puts first. -/
def IncidentUnit.best (u : IncidentUnit) (test : Incident → Bool) (better : Incident → Incident → Bool) : Option (Fin 4) :=
  (List.finRange 4).foldl (fun acc k =>
    match u.slots[k] with
    | none => acc
    | some r =>
      if test r then
        match acc with
        | none => some k
        | some j =>
          match u.slots[j] with
          | none => some k
          | some q => if better r q then some k else some j
      else acc) none

/-- GOVERNING_RECOMPUTE (R139, R140): the earliest-started eligible record governs; every other has its flag clear and
deficit 0. -/
def IncidentUnit.govern (u : IncidentUnit) : IncidentUnit :=
  let g := u.best Incident.eligible Incident.before
  { u with slots := Vector.ofFn fun k => u.slots[k].map fun r =>
      { r with governing := decide (g = some k), deficit := if g = some k then r.deficit else 0 } }

/-- What the placement unit is told of a governing record (R140). -/
def Incident.toGoverning (r : Incident) : Governing :=
  { ident := r.ident, position := r.position, template := r.template, mirror := r.mirror }

/-- Notices handed to one port (R142, R176), each with the SECONDS value at which it was handed over. -/
def PortMail.hand (m : PortMail) (sec : DWord) (l : List Notice) : PortMail :=
  { m with own := m.own ++ l.map fun n => { notice := n, origin := .own, joined := sec } }

/-- The deliveries of one event to the other blocks (R131, R140). -/
def Mail.incidentStep (m : Mail) (sec : DWord) (r : IncidentStep) (before after : Option Incident) : Mail :=
  { m with
    incidents := m.incidents ++ r.deliveries
    incidentFreed := mapTable m.incidentFreed (· ++ r.freed)
    slotFreed := if r.slotFreed then mapTable m.slotFreed (· + 1) else m.slotFreed
    governing := if before.map (·.ident) = after.map (·.ident) then m.governing
      else m.governing ++ [after.map Incident.toGoverning]
    up := m.up.hand sec r.notices
    down := m.down.hand sec r.notices }

/-- One event at the incident unit: it acts, the governing record is recomputed, INCIDENT is set where a record was
created, changed state or was freed, and the deliveries are made (R131, R140). -/
def State.incidentEvent (act : IncidentUnit → IncidentStep) (s : State) : State :=
  let r := act s.incidents
  let u := r.unit.govern
  { s with
    incidents := u
    regs := s.regs.raiseIf (!r.deliveries.isEmpty) .incident
    mail := s.mail.incidentStep s.regs.seconds r s.incidents.governingRecord u.governingRecord }

/-! ## Identities and the cleared-identity list (R132, R133) -/

/-- The slot that holds an identity. -/
def IncidentUnit.find (u : IncidentUnit) (i : Ident) : Option (Fin 4) :=
  (List.finRange 4).find? fun k => decide (u.slots[k].map (·.ident) = some i)

/-- An identity is in the cleared-identity list. -/
def IncidentUnit.wasCleared (u : IncidentUnit) (i : Ident) : Bool := u.cleared.any fun e => decide (e.ident = i)

/-- The first candidate, from the local sequence on, whose identity is neither in the table nor in the list (R132). -/
def IncidentUnit.freshSeq (u : IncidentUnit) (span : Byte) : Byte :=
  let test (k : Nat) : Bool :=
    let i : Ident := { span := span, seq := u.localSeq + BitVec.ofNat 8 k }
    (u.find i).isNone && !u.wasCleared i
  u.localSeq + BitVec.ofNat 8 (((List.range 13).find? test).getD 0)

/-- An identity joins the list at its newest end; with 8 entries the oldest is removed (R133). -/
def IncidentUnit.joinCleared (x : Ctx) (i : Ident) (u : IncidentUnit) : IncidentUnit :=
  { u with cleared :=
      (if u.cleared.length < Config.clearedCapacity then u.cleared else u.cleared.tail) ++
        [{ ident := i, joined := x.sec, due := x.now + Config.clearedTicks }] }

/-! ## Slots (R134) -/

/-- The lowest-numbered EMPTY slot. -/
def IncidentUnit.emptySlot (u : IncidentUnit) : Option (Fin 4) := (List.finRange 4).find? fun k => u.slots[k].isNone

/-- The displacement candidate: of the NOTICE records not in CLEARING, the one the governing order reaches last. -/
def IncidentUnit.displaced (u : IncidentUnit) : Option (Fin 4) :=
  u.best (fun r => decide (r.origin = .notice) && decide (r.state ≠ .clearing)) (fun a b => b.before a)

/-- An outcome marked OVERFLOW. -/
def IncidentUnit.overflowed (u : IncidentUnit) : IncidentUnit :=
  { u with overflow := true, overflowCount := satSucc u.overflowCount }

/-- Puts a record into a slot. -/
def IncidentUnit.put (u : IncidentUnit) (k : Fin 4) (r : Incident) : IncidentUnit := { u with slots := u.slots.set k (some r) }

/-! ## Notices (R142, R144) -/

/-- The notice a record sends, carrying a state (R142, R144). -/
def Incident.notice (x : Ctx) (st : NoticeState) (r : Incident) : Notice :=
  { ident := r.ident, state := st, position := wordNat r.position, template := BitVec.ofNat 8 r.template.val
    mirror := BitVec.ofNat 8 (boolNat r.mirror), age := wordNat (clip16 (x.sec - r.start).toInt)
    hops := BitVec.ofNat 8 x.cfg.span.noticeReach }

/-- The state an ACTIVE or ACKNOWLEDGED record's notice carries. -/
def Incident.noticeState (r : Incident) : NoticeState := if r.state = .acknowledged then .acknowledged else .active

/-- A record that has sent a notice: last refresh, refresh timer restarted (R142). -/
def Incident.sent (x : Ctx) (r : Incident) : Incident :=
  { r with lastRefresh := x.sec, refreshDue := some (x.now + Config.refreshTicks) }

/-- A record that has sent a CLEAR notice: one fewer left, clearing timer restarted (R144). -/
def Incident.sentClear (x : Ctx) (r : Incident) : Incident :=
  { r with lastRefresh := x.sec, clearLeft := r.clearLeft - 1, clearingDue := some (x.now + Config.clearingTicks) }

/-- A record enters CLEARING and sends its first CLEAR notice (R143). -/
def Incident.enterClearing (x : Ctx) (r : Incident) : Incident :=
  ({ r with state := .clearing, entered := x.sec, refreshDue := none, staleDue := none
            clearLeft := Config.clearNotices }).sentClear x

/-! ## Creation (R134, R135, R136, R138) -/

/-- A local-origin record as it is created (R135, R136). -/
def Incident.createLocal (x : Ctx) (i : Ident) (o : Origin) (position : Nat) (zone : Option (Fin 8)) (template : Fin 8)
    (mirror : Bool) (evidence : List (Fin 12)) : Incident :=
  { ident := i, origin := o, state := .active, resumeAcknowledged := false, position := position, zone := zone
    template := template, mirror := mirror, start := x.sec, lastRefresh := x.sec, evidence := evidence, deficit := 0
    governing := false, clearLeft := 0, refreshDue := some (x.now + Config.refreshTicks), staleDue := none
    clearingDue := none, entered := x.sec }

/-- A local creation: by an EMPTY slot, by displacement with OVERFLOW, or not at all with OVERFLOW (R134). The answer
is the identity and slot if a record was created. -/
def IncidentUnit.create (x : Ctx) (o : Origin) (position : Nat) (zone : Option (Fin 8)) (template : Fin 8) (mirror : Bool)
    (evidence : List (Fin 12)) (u : IncidentUnit) : Option (Ident × Fin 4) × IncidentStep :=
  let i : Ident := { span := x.cfg.span.spanId, seq := u.freshSeq x.cfg.span.spanId }
  let r := Incident.createLocal x i o position zone template mirror evidence
  let next (v : IncidentUnit) (k : Fin 4) : IncidentUnit := { v.put k r with localSeq := i.seq + 1 }
  match u.emptySlot with
  | some k =>
    (some (i, k), { unit := next u k, deliveries := [r.delivery], freed := [], slotFreed := false
                    notices := [r.notice x .active] })
  | none =>
    match u.displaced with
    | none => (none, IncidentStep.silent u.overflowed)
    | some k =>
      let old : List Incident := u.slots[k].toList
      (some (i, k),
       { unit := next u.overflowed k
         deliveries := old.map (fun d => { ident := d.ident, position := d.position, state := none }) ++ [r.delivery]
         freed := old.map (·.ident), slotFreed := false, notices := [r.notice x .active] })

/-- CREATION_REQUEST (R135, R80): the incident unit decides and the zone takes the answer, one exchange. -/
def State.decideRequest (z : Fin 8) (q : CreationRequest) (s : State) : State :=
  let x := s.ctx
  let create := IncidentUnit.create x .detected q.position (some z) q.template q.mirror q.evidence
  let t := s.incidentEvent fun u => (create u).2
  let answered : State := { t with mail := { t.mail with requests := t.mail.requests.set z none } }
  match (create s.incidents).1 with
  | none => { answered with zones := modify answered.zones z Zone.full }
  | some (i, _) => { answered with zones := modify answered.zones z (Zone.created i) }

/-- CREATION_REQUEST (R135). -/
def execCreationRequest (zone : Fin 8) (s : State) : Host.Outcome State Fault Refusal :=
  internal s s.mail.requests[zone].isSome fun s =>
    match s.mail.requests[zone] with
    | none => s
    | some q => s.decideRequest zone q

/-! ## Changes of a record -/

/-- A record changes its state, with the effects of R131 and the notices sent. -/
def IncidentUnit.becomes (u : IncidentUnit) (k : Fin 4) (r : Incident) (notices : List Notice) : IncidentStep :=
  { unit := u.put k r, deliveries := [r.delivery], freed := [], slotFreed := false, notices := notices }

/-- ENTER_CLEARING (R143). -/
def IncidentUnit.enterClearing (x : Ctx) (k : Fin 4) (r : Incident) (u : IncidentUnit) : IncidentStep :=
  u.becomes k (r.enterClearing x) [r.notice x .clear]

/-- A record is freed from CLEARING: the slot is EMPTY, the identity joins the cleared-identity list, OVERFLOW clears
(R134, R144). -/
def IncidentUnit.release (x : Ctx) (k : Fin 4) (r : Incident) (u : IncidentUnit) : IncidentStep :=
  { unit := ({ u with slots := u.slots.set k none, overflow := false }).joinCleared x r.ident
    deliveries := [{ ident := r.ident, position := r.position, state := none }], freed := [r.ident], slotFreed := true
    notices := [] }

/-- ACKNOWLEDGE on a record (R141, R142): a local-origin record sends its notice at once. -/
def IncidentUnit.acknowledge (x : Ctx) (k : Fin 4) (r : Incident) (u : IncidentUnit) : IncidentStep :=
  if r.state = .active then
    let a := { r with state := .acknowledged, resumeAcknowledged := true, entered := x.sec }
    if r.origin = .notice then u.becomes k a [] else u.becomes k (a.sent x) [a.notice x .acknowledged]
  else .silent u

/-- The refresh of a NOTICE record by a notice carrying ACTIVE or ACKNOWLEDGED (R137, R142). -/
def Incident.refreshed (x : Ctx) (acknowledged : Bool) (r : Incident) : Incident :=
  let f := { r with lastRefresh := x.sec, staleDue := some (x.now + Config.staleTicks)
                    resumeAcknowledged := r.resumeAcknowledged || acknowledged }
  let st : IncidentState :=
    match r.state with
    | .active => if acknowledged then .acknowledged else .active
    | .stale => if r.resumeAcknowledged || acknowledged then .acknowledged else .active
    | other => other
  if st = r.state then f else { f with state := st, entered := x.sec }

/-- A notice is set aside (R137). -/
def Notice.setAside (cfg : ActiveConfig) (n : Notice) : Bool :=
  decide (n.ident.span = cfg.span.spanId) || !validSpan n.ident.span || decide (1023 < n.position.toNat) ||
    decide (7 < n.template.toNat) || decide (1 < n.mirror.toNat)

/-- NOTICE_RECORD_CREATE: the record a notice creates (R138). -/
def Notice.toRecord (x : Ctx) (n : Notice) : Incident :=
  let ack := decide (n.state = .acknowledged)
  { ident := n.ident, origin := .notice, state := if ack then .acknowledged else .active, resumeAcknowledged := ack
    position := n.position.toNat, zone := none, template := indexField 8 (by decide) (n.template.setWidth 16)
    mirror := decide (n.mirror = 1), start := x.sec - n.age.setWidth 32, lastRefresh := x.sec, evidence := [], deficit := 0
    governing := false, clearLeft := 0, refreshDue := none, staleDue := some (x.now + Config.staleTicks)
    clearingDue := none, entered := x.sec }

/-- The unit takes a notice (R137, R138, R145). -/
def IncidentUnit.takeNotice (x : Ctx) (n : Notice) (u : IncidentUnit) : IncidentStep :=
  if n.setAside x.cfg then .silent u
  else
    match (u.find n.ident).bind fun k => u.slots[k].map fun r => (k, r) with
    | some (k, r) =>
      if r.state = .clearing then .silent u
      else if n.state = .clear then u.enterClearing x k r
      else
        let f := r.refreshed x (decide (n.state = .acknowledged))
        if f.state = r.state then .silent (u.put k f) else u.becomes k f []
    | none =>
      if u.wasCleared n.ident then .silent u
      else if n.state = .clear then .silent (u.joinCleared x n.ident)
      else
        match u.emptySlot with
        | none => .silent u.overflowed
        | some k => u.becomes k (n.toRecord x) []

/-- NOTICE (R137). -/
def execNotice (s : State) : Host.Outcome State Fault Refusal :=
  internal s (!s.mail.notices.isEmpty) fun s =>
    match s.mail.notices with
    | [] => s
    | n :: rest =>
      State.incidentEvent (IncidentUnit.takeNotice s.ctx n) { s with mail := { s.mail with notices := rest } }

/-! ## Timers (R133, R142, R144) -/

/-- A timer of the record in a slot has expired. -/
def State.slotDue (s : State) (k : Fin 4) (timer : Incident → Option Nat) : Bool :=
  match s.incidents.slots[k] with
  | none => false
  | some r => expired (timer r) s.now

/-- One event on the record of a slot. -/
def State.slotEvent (k : Fin 4) (act : Incident → IncidentUnit → IncidentStep) (s : State) : State :=
  match s.incidents.slots[k] with
  | none => s
  | some r => s.incidentEvent (act r)

/-- REFRESH_TIMER_EXPIRY (R142). -/
def execRefreshTimerExpiry (slot : Fin 4) (s : State) : Host.Outcome State Fault Refusal :=
  internal s (s.slotDue slot (·.refreshDue)) fun s => s.slotEvent slot fun r u =>
    { IncidentStep.silent (u.put slot (r.sent s.ctx)) with notices := [r.notice s.ctx r.noticeState] }

/-- The stale timer of a record has expired (R142). -/
def Incident.becomesStale (x : Ctx) (r : Incident) : Incident :=
  { r with state := .stale, resumeAcknowledged := decide (r.state = .acknowledged), staleDue := none, entered := x.sec }

/-- STALE_TIMER_EXPIRY (R142). -/
def execStaleTimerExpiry (slot : Fin 4) (s : State) : Host.Outcome State Fault Refusal :=
  internal s (s.slotDue slot (·.staleDue)) fun s => s.slotEvent slot fun r u => u.becomes slot (r.becomesStale s.ctx) []

/-- The clearing timer of a record has expired (R144). -/
def IncidentUnit.clearingExpired (x : Ctx) (k : Fin 4) (r : Incident) (u : IncidentUnit) : IncidentStep :=
  if 0 < r.clearLeft then { IncidentStep.silent (u.put k (r.sentClear x)) with notices := [r.notice x .clear] }
  else u.release x k r

/-- CLEARING_TIMER_EXPIRY (R144). -/
def execClearingTimerExpiry (slot : Fin 4) (s : State) : Host.Outcome State Fault Refusal :=
  internal s (s.slotDue slot (·.clearingDue)) fun s => s.slotEvent slot fun r u => u.clearingExpired s.ctx slot r

/-- CLEARED_ENTRY_EXPIRY can be taken: the oldest entry's time has passed (R133). -/
def State.clearedDue (s : State) : Bool := expired (s.incidents.cleared.head?.map (·.due)) s.now

/-- CLEARED_ENTRY_EXPIRY (R133). -/
def execClearedEntryExpiry (s : State) : Host.Outcome State Fault Refusal :=
  internal s s.clearedDue fun s => { s with incidents := { s.incidents with cleared := s.incidents.cleared.tail } }

/-! ## The deficit (R140) -/

/-- A delivered deficit is written into the governing record. -/
def IncidentUnit.writeDeficit (d : Nat) (u : IncidentUnit) : IncidentUnit :=
  { u with slots := Vector.ofFn fun k => u.slots[k].map fun r => if r.governing then { r with deficit := d } else r }

/-- DEFICIT_DELIVERY (R140). -/
def execDeficitDelivery (s : State) : Host.Outcome State Fault Refusal :=
  internal s (!s.mail.deficits.isEmpty) fun s =>
    match s.mail.deficits with
    | [] => s
    | d :: rest => { s with incidents := s.incidents.writeDeficit d, mail := { s.mail with deficits := rest } }

end Sys2Proof.Machine
end

