-- ==== Sys2Proof/Machine/Placement.lean ====
section
/-! DEFINITION. The placement unit (chapter 8): place, availability and substitute stages, the counts and what a placement
delivers. -/

namespace Sys2Proof.Machine

/-! ## The entry for an offset (R153) -/

/-- The template entry used for offset d: its own, or with mirror set the entry for -d (R153). -/
def TemplateItem.entryAt (t : TemplateItem) (mirror : Bool) (d : Int) : TemplateEntry :=
  t.entries[(⟨(if mirror then 7 - d else 7 + d).toNat % 15, Nat.mod_lt _ (by decide)⟩ : Fin 15)]

/-- The action an entry gives a fan; with mirror set FWD and REV are exchanged (R153). -/
def TemplateEntry.placed (e : TemplateEntry) (mirror : Bool) : Option PlacedAction :=
  match e.action with
  | .none => none
  | .keep => some .keep
  | .stop => some .stop
  | .fwd => some (.run (if mirror then .rev else .fwd) e.speed)
  | .rev => some (.run (if mirror then .fwd else .rev) e.speed)

/-- An action runs its fan. -/
def PlacedAction.runs (a : PlacedAction) : Bool :=
  match a with
  | .run _ _ => true
  | _ => false

/-! ## The stages (R154 to R156) -/

/-- The tunnel niche of a fan (R154). -/
def fanNiche (cfg : ActiveConfig) (f : Fin 8) : Nat := cfg.span.firstNiche + cfg.fans[f].niche

/-- The offset of a fan from the governing position (R154). -/
def fanOffset (cfg : ActiveConfig) (g : Governing) (f : Fin 8) : Int := (fanNiche cfg f : Int) - g.position

/-- A niche lies in the candidate range (R154). -/
def inRange (cfg : ActiveConfig) (p q : Nat) : Bool :=
  decide (p ≤ q + 7) && decide (q ≤ p + 7) && decide (cfg.span.firstNiche ≤ q) &&
    decide (q < cfg.span.firstNiche + cfg.span.nicheCount)

/-- The place stage: a fan's candidate, if any (R154). -/
def candidate (cfg : ActiveConfig) (g : Governing) (f : Fin 8) : Option PlacedAction :=
  if cfg.fans[f].role = .jet ∧ inRange cfg g.position (fanNiche cfg f) then
    (cfg.templates[g.template].entryAt g.mirror (fanOffset cfg g f)).placed g.mirror
  else none

/-- The candidate after the availability stage (R155). -/
def keptCandidate (cfg : ActiveConfig) (g : Governing) (available : Vector Bool 8) (f : Fin 8) : Option ListEntry :=
  if available[f] then (candidate cfg g f).map fun a => { fan := f, action := a, standsFor := none } else none

/-- The action that the availability stage leaves unmet: FWD, REV or STOP on an unavailable fan (R155). -/
def unmetAction (cfg : ActiveConfig) (g : Governing) (available : Vector Bool 8) (f : Fin 8) : Option PlacedAction :=
  if available[f] then none
  else match candidate cfg g f with
    | some .keep => none
    | other => other

/-- A fan's FWD or REV entry is unmet. -/
def unmetRun (cfg : ActiveConfig) (g : Governing) (available : Vector Bool 8) (f : Fin 8) : Bool :=
  match unmetAction cfg g available f with
  | some a => a.runs
  | none => false

/-- The offsets in the order in which unmet entries are taken: by magnitude, the negative one first (R156). -/
def offsetOrder : List Int := 0 :: (List.range 7).flatMap fun k => [-((k : Int) + 1), (k : Int) + 1]

/-- The unmet FWD and REV entries in the order in which they are taken (R156). -/
def unmetOrder (cfg : ActiveConfig) (g : Governing) (available : Vector Bool 8) : List (Fin 8) :=
  offsetOrder.flatMap fun d =>
    (List.finRange 8).filter fun f => unmetRun cfg g available f && decide (fanOffset cfg g f = d)

/-- A fan may stand in for the unmet entry of fan f (R156). -/
def maySubstitute (cfg : ActiveConfig) (g : Governing) (available : Vector Bool 8) (held : Vector (Option ListEntry) 8)
    (f h : Fin 8) : Bool :=
  let q := fanNiche cfg f
  let d := fanOffset cfg g f
  decide (cfg.fans[h].role = .jet) && available[h] &&
    (match held[h] with
     | none => true
     | some e => decide (e.action = .keep)) &&
    (if d < 0 then decide (fanNiche cfg h ≤ q) else if 0 < d then decide (q ≤ fanNiche cfg h) else true)

/-- Fan h is the nearer substitute than fan k for niche q: distance, then niche, then fan number (R156). -/
def nearer (cfg : ActiveConfig) (q : Nat) (h k : Fin 8) : Bool :=
  let a := distance (fanNiche cfg h) q
  let b := distance (fanNiche cfg k) q
  decide (a < b) || (decide (a = b) && (decide (fanNiche cfg h < fanNiche cfg k) ||
    (decide (fanNiche cfg h = fanNiche cfg k) && decide (h < k))))

/-- The substitute for the unmet entry of fan f, if one exists (R156). -/
def substitute (cfg : ActiveConfig) (g : Governing) (available : Vector Bool 8) (held : Vector (Option ListEntry) 8)
    (f : Fin 8) : Option (Fin 8) :=
  (List.finRange 8).foldl (fun acc h =>
    if maySubstitute cfg g available held f h then
      match acc with
      | none => some h
      | some k => if nearer cfg (fanNiche cfg f) h k then some h else some k
    else acc) none

/-- The candidates and the fans whose entries are left over, as the substitute stage goes on. -/
structure Substituted where
  candidates : Vector (Option ListEntry) 8
  leftOver : List (Fin 8)
  deriving DecidableEq, Repr

/-- One unmet entry is taken (R156). -/
def Substituted.take (cfg : ActiveConfig) (g : Governing) (available : Vector Bool 8) (acc : Substituted) (f : Fin 8) :
    Substituted :=
  match unmetAction cfg g available f, substitute cfg g available acc.candidates f with
  | some a, some h =>
    { acc with candidates := acc.candidates.set h (some { fan := h, action := a, standsFor := some f }) }
  | _, _ => { acc with leftOver := acc.leftOver ++ [f] }

/-- The substitute stage: it runs only with the template's substitute flag set (R156). -/
def substituteStage (cfg : ActiveConfig) (g : Governing) (available : Vector Bool 8) : Substituted :=
  let start : Vector (Option ListEntry) 8 := Vector.ofFn fun f => keptCandidate cfg g available f
  let order := unmetOrder cfg g available
  if cfg.templates[g.template].substitute then
    order.foldl (Substituted.take cfg g available) { candidates := start, leftOver := [] }
  else { candidates := start, leftOver := order }

/-! ## The result (R157) -/

/-- The list: every fan with a candidate, in fan number order (R157). -/
def Substituted.list (r : Substituted) : List ListEntry := (List.finRange 8).filterMap fun f => r.candidates[f]

/-- The record that a placement for a governing copy gives, its time apart (R157). -/
def computeFor (cfg : ActiveConfig) (g : Governing) (available : Vector Bool 8) : PlacementRecord :=
  let r := substituteStage cfg g available
  let running := (r.list.filter fun e => e.action.runs).length
  let unmet := r.leftOver.length
  { governing := some g, list := r.list, running := running, unmet := unmet
    unmetFans := (List.finRange 8).filter fun f =>
      r.leftOver.contains f || decide (unmetAction cfg g available f = some .stop)
    deficit := (cfg.templates[g.template].minRunning - running) + unmet, time := 0 }

/-- The record that a placement gives, its time apart: empty with the governing copy none (R152). -/
def PlacementUnit.compute (cfg : ActiveConfig) (u : PlacementUnit) : PlacementRecord :=
  match u.governing with
  | none => .empty
  | some g => computeFor cfg g u.available

/-- PLACEMENT: the record is replaced unless the result equals it apart from the time (R151, R158); the empty record of a
governing change to none has SECONDS as its time (log entry 52). -/
def PlacementUnit.place (x : Ctx) (u : PlacementUnit) : PlacementUnit :=
  let r := u.compute x.cfg
  if { r with time := u.record.time } = u.record then u else { u with record := { r with time := x.sec } }

/-- What R158 compares of a list entry: its fan, action with speed, and origin, SUBSTITUTE or TEMPLATE. -/
def ListEntry.compared (e : ListEntry) : Fin 8 × PlacedAction × Bool := (e.fan, e.action, e.standsFor.isSome)

/-- What a placement delivers: the list if it differs in any fan, action, speed or origin, the deficit if it or the governing
identity differs (R158). -/
def Mail.placed (m : Mail) (before after : PlacementRecord) : Mail :=
  { m with
    placements := if before.list.map ListEntry.compared = after.list.map ListEntry.compared then m.placements else m.placements ++ [after.list]
    deficits := if before.deficit = after.deficit ∧ before.governing.map (·.ident) = after.governing.map (·.ident)
      then m.deficits else m.deficits ++ [after.deficit] }

/-- One event at the placement unit: the unit takes what reached it and, where R152 says so, places. -/
def State.placementEvent (places : Bool) (act : PlacementUnit → PlacementUnit) (s : State) : State :=
  let v := act s.placement
  let u := if places then v.place s.ctx else v
  { s with placement := u, mail := s.mail.placed s.placement.record u.record }

/-! ## Events (R152) -/

/-- GOVERNING_CHANGE (R152). -/
def execGoverningChange (s : State) : Host.Outcome State Fault Refusal :=
  internal s (!s.mail.governing.isEmpty) fun s =>
    match s.mail.governing with
    | [] => s
    | g :: rest =>
      State.placementEvent true ({ · with governing := g }) { s with mail := { s.mail with governing := rest } }

/-- AVAILABILITY_CHANGE (R152): of a jet fan, with a governing copy, it places. -/
def execAvailabilityChange (fan : Fin 8) (s : State) : Host.Outcome State Fault Refusal :=
  internal s (!s.mail.availability[fan].isEmpty) fun s =>
    match s.mail.availability[fan] with
    | [] => s
    | b :: rest =>
      State.placementEvent (decide (s.active.fans[fan].role = .jet) && s.placement.governing.isSome)
        (fun u => { u with available := u.available.set fan b })
        { s with mail := { s.mail with availability := s.mail.availability.set fan rest } }

/-- FAN_ITEM_CHANGE (R152). -/
def execFanItemChange (fan : Fin 8) (s : State) : Host.Outcome State Fault Refusal :=
  internal s (decide (0 < s.mail.fanItems[fan])) fun s =>
    State.placementEvent s.placement.governing.isSome id
      { s with mail := { s.mail with fanItems := modify s.mail.fanItems fan (· - 1) } }

end Sys2Proof.Machine
end

