-- ==== Sys2Proof/Machine/Link.lean ====
section
/-! DEFINITION. The span link (chapter 9, section 10.6): frames and their CRC, reception, the receive and transmit queues,
hold marks, neighbours, forwarding and transmission. -/

namespace Sys2Proof.Machine

/-! ## Frames (section 9.2, R167, R184) -/

/-- One bit of the CRC register's shift (R167). -/
def crcShift (r : Word) : Word := if r.getLsbD 15 then (r <<< 1) ^^^ 0x1021 else r <<< 1

/-- One byte enters the CRC register, most significant bit first (R167). -/
def crcByte (r : Word) (b : Byte) : Word :=
  crcShift (crcShift (crcShift (crcShift (crcShift (crcShift (crcShift (crcShift (r ^^^ (b.setWidth 16 <<< 8)))))))))

/-- The CRC of the bytes it covers (R167). -/
def crc (l : List Byte) : Word := l.foldl crcByte 0xFFFF

/-- The two bytes of a word in link order, high byte first (R184). -/
def bigEndian (w : Word) : List Byte := [highByte w, lowByte w]

/-- A whole frame from its kind, body length and body: marker before, CRC after (R167, R184). -/
def frameBytes (kind : Byte) (body : List Byte) : List Byte :=
  let covered := kind :: BitVec.ofNat 8 body.length :: body
  Config.startMarker :: covered ++ bigEndian (crc covered)

/-- A HELLO frame (R167, R184). -/
def Hello.frame (h : Hello) : List Byte :=
  frameBytes 0x01 (h.spanId :: bigEndian h.firstNiche ++ [h.nicheCount] ++ bigEndian (identWord h.governing) ++ [1])

/-- The code of a notice state (R184). -/
def NoticeState.code (s : NoticeState) : Byte :=
  match s with
  | .active => 1
  | .acknowledged => 2
  | .clear => 3

/-- The notice state of a code. -/
def NoticeState.ofCode (b : Byte) : Option NoticeState :=
  match b.toNat with
  | 1 => some .active
  | 2 => some .acknowledged
  | 3 => some .clear
  | _ => none

/-- An INCIDENT frame (R167, R184). -/
def Notice.frame (n : Notice) : List Byte :=
  frameBytes 0x02 ([n.ident.span, n.ident.seq, n.state.code] ++ bigEndian n.position ++ [n.template, n.mirror] ++
    bigEndian n.age ++ [n.hops])

/-- A HOLD frame (R167, R184). -/
def holdFrame (time : Byte) : List Byte := frameBytes 0x03 [time]

/-- The body length of a kind, or none where the kind names no frame (R184). -/
def bodyLength (kind : Byte) : Option Nat :=
  match kind.toNat with
  | 1 => some 7
  | 2 => some 10
  | 3 => some 1
  | _ => none

/-- What a good frame is (R168). -/
inductive GoodFrame where
  | hold (time : Byte)
  | queued (f : Frame)
  deriving DecidableEq, Repr

/-- The frame a complete body of a kind spells, or none where check 6 or 7 of R168 fails. -/
def readBody (kind : Byte) (body : List Byte) : Option GoodFrame :=
  let b (k : Nat) : Byte := body[k]?.getD 0
  match kind.toNat with
  | 1 =>
    if validSpan (b 0) && b 6 == 1 then
      some (.queued (.hello { spanId := b 0, firstNiche := wordOf (b 2) (b 1), nicheCount := b 3
                              governing := identOfWord (wordOf (b 5) (b 4)) }))
    else none
  | 2 =>
    match NoticeState.ofCode (b 2) with
    | none => none
    | some st =>
      if (b 9).toNat ≤ 15 then
        some (.queued (.incident { ident := { span := b 0, seq := b 1 }, state := st, position := wordOf (b 4) (b 3)
                                   template := b 5, mirror := b 6, age := wordOf (b 8) (b 7), hops := b 9 }))
      else none
  | 3 => some (.hold (b 0))
  | _ => none

/-- What the bytes received so far amount to (R168). -/
inductive Progress where
  | more
  | bad
  | good (f : GoodFrame)
  deriving DecidableEq, Repr

/-- Checks 1, 2, 3, 5, 6 and 7 of R168 on the bytes received so far. -/
def frameProgress (l : List Byte) : Progress :=
  match l with
  | [] => .more
  | [m] => if m = Config.startMarker then .more else .bad
  | [_, kind] => if (bodyLength kind).isSome then .more else .bad
  | _ :: kind :: len :: rest =>
    match bodyLength kind with
    | none => .bad
    | some n =>
      if len.toNat ≠ n then .bad
      else if rest.length < n + 2 then .more
      else if wordOf (rest[n + 1]?.getD 0) (rest[n]?.getD 0) ≠ crc (kind :: len :: rest.take n) then .bad
      else match readBody kind (rest.take n) with
        | none => .bad
        | some f => .good f

/-! ## Reception (R168 to R170, R179) -/

/-- A good HOLD is taken at once (R179). -/
def PortState.takeHold (x : Ctx) (time : Byte) (p : PortState) : PortState :=
  { p with holdDue := if time = 0 then none else some (x.now + 10 * time.toNat), holdShown := time }

/-- HOLD_MARK_SET: a queue of 3 or more frames with the mark clear asks the neighbour to stop (R170). -/
def PortState.markIfFilling (x : Ctx) (p : PortState) : PortState :=
  if Config.holdMarkSet ≤ p.receiveQueue.length ∧ p.holdMark = false then
    { p with holdMark := true, pendingHold := some Config.holdFull, holdRepeatDue := some (x.now + Config.holdRepeatTicks) }
  else p

/-- A good HELLO or INCIDENT joins the receive queue, or is discarded and counted (R169). -/
def PortState.joinReceive (x : Ctx) (f : Frame) (p : PortState) : PortState :=
  if p.receiveQueue.length < Config.receiveCapacity then
    ({ p with receiveQueue := p.receiveQueue ++ [f] }).markIfFilling x
  else { p with overrun := satSucc p.overrun }

/-- A good frame acts (R168). -/
def PortState.takeGood (x : Ctx) (f : GoodFrame) (p : PortState) : PortState :=
  match f with
  | .hold t => p.takeHold x t
  | .queued g => p.joinReceive x g

/-- The line has been idle for 2 ms (R168), the port's own frame in transmission not counted (log entries 12, 58). -/
def PortState.idleTwo (now : Nat) (p : PortState) : Bool := decide (p.idleSince + Config.idleTicks ≤ now)

/-- A frame received in part is given up: rejected and counted (R168 check 4). -/
def PortState.breakOff (p : PortState) : PortState := { p with receiving := [], rejected := satSucc p.rejected }

/-- What an idle line of 2 ms does before the next byte: a frame received in part is broken off, and bytes are no longer
ignored (R168). -/
def PortState.settle (now : Nat) (p : PortState) : PortState :=
  if p.idleTwo now then
    let q := if p.receiving.isEmpty then p else p.breakOff
    { q with ignoring := false }
  else p

/-- One byte is received at an enabled port: it goes on with the frame being received, or starts one if the line was idle before
it; any other byte is ignored (R168, log entry 12). -/
def PortState.receive (x : Ctx) (p : PortState) (b : Byte) : PortState :=
  let q := { p with idleSince := x.now, ownLast := false }
  if p.ignoring || (p.receiving.isEmpty && !p.idleTwo x.now) then q
  else
    match frameProgress (p.receiving ++ [b]) with
    | .more => { q with receiving := p.receiving ++ [b] }
    | .bad => { q with receiving := [], ignoring := true, rejected := satSucc p.rejected }
    | .good f => ({ q with receiving := [] }).takeGood x f

/-- One byte arrives: the line is not idle and the port's own frame is not the last on it, whatever becomes of the byte (R166,
log entry 66); a disabled port
discards it (R163), and an enabled one receives it on the line as it then stands (R168). -/
def PortState.byteArrives (x : Ctx) (enabled : Bool) (p : PortState) (b : Byte) : PortState :=
  if enabled then (p.settle x.now).receive x b else { p with idleSince := x.now, ownLast := false }

/-- LINK attention is called for: the port became UP or DOWN, migrated, or heard changed values (R182). -/
def linkChanged (before after : PortState) : Bool := decide (before.neighbour.map (·.hello) ≠ after.neighbour.map (·.hello))

/-- One event at a port: it acts, and LINK is set where R182 calls for it. -/
def State.portEvent (p : Port) (act : PortState → PortState) (s : State) : State :=
  let q := act (s.link.get p)
  { s with link := s.link.set p q, regs := s.regs.raiseIf (linkChanged (s.link.get p) q) .link }

/-- FRAME_RECEIVE (R168): bytes arrive without an idle line between them. -/
def execFrameReceive (port : Port) (bytes : List Byte) (s : State) : Host.Outcome State Fault Refusal :=
  internal s true (State.portEvent port fun p => bytes.foldl (PortState.byteArrives s.ctx (portEnabled s.active port)) p)

/-- INCOMPLETE_FRAME can be taken (R168 check 4). -/
def State.frameBroken (s : State) (p : Port) : Bool := !(s.link.get p).receiving.isEmpty && (s.link.get p).idleTwo s.now

/-- INCOMPLETE_FRAME (R168): rejected and counted; the next byte starts a new frame. -/
def execIncompleteFrame (port : Port) (s : State) : Host.Outcome State Fault Refusal :=
  internal s (s.frameBroken port) (State.portEvent port PortState.breakOff)

/-- LINE_IDLE_AFTER_REJECT can be taken (R168). -/
def State.ignoringEnds (s : State) (p : Port) : Bool := (s.link.get p).ignoring && (s.link.get p).idleTwo s.now

/-- LINE_IDLE_AFTER_REJECT (R168). -/
def execLineIdleAfterReject (port : Port) (s : State) : Host.Outcome State Fault Refusal :=
  internal s (s.ignoringEnds port) (State.portEvent port fun p => { p with ignoring := false })

/-- A whole HOLD frame can end on the port: enabled, and the line was idle before the frame (R168, log entry 14). -/
def State.mayTakeHold (s : State) (p : Port) : Bool := portEnabled s.active p && (s.link.get p).idleTwo s.now

/-- HOLD (R179): the end of the reception of a good HOLD. -/
def execHold (port : Port) (time : Byte) (s : State) : Host.Outcome State Fault Refusal :=
  internal s (s.mayTakeHold port) (State.portEvent port fun p =>
    ({ p.settle s.now with idleSince := s.now, ownLast := false }).takeHold s.ctx time)

/-! ## Taking frames (R169, R170, R172, R173, R180) -/

/-- The head frame leaves the receive queue; HOLD_RELEASE at 1 frame or none with the mark set (R169, R170). -/
def PortState.takeHead (p : PortState) : PortState :=
  let q := { p with receiveQueue := p.receiveQueue.tail }
  if q.receiveQueue.length ≤ Config.holdMarkRelease ∧ p.holdMark then
    { q with holdMark := false, holdRepeatDue := none, pendingHold := some 0 }
  else q

/-- A HELLO acts on the neighbour entry: UP, refreshed or MIGRATION (R172, R173). -/
def PortState.hear (x : Ctx) (h : Hello) (p : PortState) : PortState :=
  let entry : Neighbour :=
    match p.neighbour with
    | none => { hello := h, lastHeard := x.sec, migrated := false, previous := 255 }
    | some n =>
      if n.hello.spanId = h.spanId then { n with hello := h, lastHeard := x.sec }
      else { hello := h, lastHeard := x.sec, migrated := true, previous := n.hello.spanId }
  { p with neighbour := some entry, agingDue := some (x.now + Config.agingTicks) }

/-- HELLO_TAKEN can be taken: a HELLO heads the receive queue. -/
def State.helloWaiting (s : State) (p : Port) : Bool :=
  match (s.link.get p).receiveQueue with
  | .hello _ :: _ => true
  | _ => false

/-- HELLO_TAKEN (R172). -/
def execHelloTaken (port : Port) (s : State) : Host.Outcome State Fault Refusal :=
  internal s (s.helloWaiting port) (State.portEvent port fun p =>
    match p.receiveQueue with
    | .hello h :: _ => p.takeHead.hear s.ctx h
    | _ => p)

/-- INCIDENT_FRAME_TAKEN can be taken: an INCIDENT heads the receive queue. -/
def State.incidentWaiting (s : State) (p : Port) : Bool :=
  match (s.link.get p).receiveQueue with
  | .incident _ :: _ => true
  | _ => false

/-- The deliveries handed to a port. -/
def Mail.port (m : Mail) (p : Port) : PortMail :=
  match p with
  | .up => m.up
  | .down => m.down

/-- Replaces the deliveries handed to a port. -/
def Mail.setPort (m : Mail) (p : Port) (x : PortMail) : Mail :=
  match p with
  | .up => { m with up := x }
  | .down => { m with down := x }

/-- FORWARDING: with a hop count above 0, a copy with one hop fewer is handed to the port (R180). -/
def PortMail.forward (m : PortMail) (sec : DWord) (n : Notice) : PortMail :=
  if n.hops = 0 then m
  else { m with forwarded := m.forwarded ++
    [{ notice := { n with hops := n.hops - 1 }, origin := .forwarded, joined := sec }] }

/-- An INCIDENT is delivered to the incident unit and handed to forwarding (R169, R180). -/
def State.takeIncidentFrame (p : Port) (n : Notice) (s : State) : State :=
  let m := { s.mail with notices := s.mail.notices ++ [n] }
  let other := (m.port (otherPort p)).forward s.regs.seconds n
  State.portEvent p PortState.takeHead { s with mail := m.setPort (otherPort p) other }

/-- INCIDENT_FRAME_TAKEN (R169). -/
def execIncidentFrameTaken (port : Port) (s : State) : Host.Outcome State Fault Refusal :=
  internal s (s.incidentWaiting port) fun s =>
    match (s.link.get port).receiveQueue with
    | .incident n :: _ => s.takeIncidentFrame port n
    | _ => s

/-- Going DOWN: the entry empties, queued notices are discarded, a queued HELLO stays (R174). -/
def PortState.goDown (p : PortState) : PortState :=
  { p with neighbour := none, agingDue := none, transmitQueue := p.transmitQueue.filter fun e => decide (e = .hello) }

/-- AGING_TIMER_EXPIRY (R174). -/
def execAgingTimerExpiry (port : Port) (s : State) : Host.Outcome State Fault Refusal :=
  internal s (expired (s.link.get port).agingDue s.now) (State.portEvent port PortState.goDown)

/-- HOLD_TIMER_EXPIRY (R179). -/
def execHoldTimerExpiry (port : Port) (s : State) : Host.Outcome State Fault Refusal :=
  internal s (expired (s.link.get port).holdDue s.now) (State.portEvent port fun p =>
    { p with holdDue := none, holdShown := 0 })

/-- HOLD_REPEAT_EXPIRY (R170). -/
def execHoldRepeatExpiry (port : Port) (s : State) : Host.Outcome State Fault Refusal :=
  internal s (expired (s.link.get port).holdRepeatDue s.now && (s.link.get port).holdMark) (State.portEvent port fun p =>
    { p with pendingHold := some Config.holdFull, holdRepeatDue := some (s.now + Config.holdRepeatTicks) })

/-! ## The transmit queue (R171, R175 to R177) -/

/-- A HELLO is offered to the transmit queue (R171). -/
def PortState.offerHello (p : PortState) : PortState :=
  if p.transmitQueue.contains .hello then p
  else if p.transmitQueue.length < Config.transmitCapacity then { p with transmitQueue := p.transmitQueue ++ [.hello] }
  else { p with dropped := satSucc p.dropped }

/-- HELLO_TIMER_EXPIRY (R171). -/
def execHelloTimerExpiry (port : Port) (s : State) : Host.Outcome State Fault Refusal :=
  internal s (expired (s.link.get port).helloDue s.now) (State.portEvent port fun p =>
    { p.offerHello with helloDue := some (s.now + Config.helloTicks) })

/-- An entry is a notice of an origin. -/
def TxEntry.isOrigin (o : NoticeOrigin) (e : TxEntry) : Bool :=
  match e with
  | .notice q => decide (q.origin = o)
  | .hello => false

/-- An entry is a notice for an identity. -/
def TxEntry.isFor (i : Ident) (e : TxEntry) : Bool :=
  match e with
  | .notice q => decide (q.notice.ident = i)
  | .hello => false

/-- A notice joins at the back of its class: LOCAL, then FORWARDED, then the HELLO (R175). -/
def joinClass (l : List TxEntry) (q : QueuedNotice) : List TxEntry :=
  let own := l.filter (TxEntry.isOrigin .own)
  let forwarded := l.filter (TxEntry.isOrigin .forwarded)
  let hello := l.filter fun e => decide (e = .hello)
  match q.origin with
  | .own => own ++ .notice q :: forwarded ++ hello
  | .forwarded => own ++ forwarded ++ .notice q :: hello

/-- The queue takes a notice whose identity it holds: in place, or at the back of its new class (R176). -/
def replaceNotice (l : List TxEntry) (q : QueuedNotice) : List TxEntry :=
  if l.any fun e => e.isFor q.notice.ident && e.isOrigin q.origin then
    l.map fun e => if e.isFor q.notice.ident then .notice q else e
  else joinClass (l.filter fun e => !e.isFor q.notice.ident) q

/-- Removes the first entry that satisfies a test. -/
def dropFirst (test : TxEntry → Bool) (l : List TxEntry) : List TxEntry :=
  match l with
  | [] => []
  | e :: rest => if test e then rest else e :: dropFirst test rest

/-- QUEUE_DROP: what a full queue gives way to (R177). -/
def overfull (l : List TxEntry) (q : QueuedNotice) : List TxEntry :=
  if l.contains .hello then joinClass (dropFirst (fun e => decide (e = .hello)) l) q
  else if l.any (TxEntry.isOrigin .forwarded) then joinClass (dropFirst (TxEntry.isOrigin .forwarded) l) q
  else match q.origin with
    | .forwarded => l
    | .own => joinClass (dropFirst (TxEntry.isOrigin .own) l) q

/-- A notice handed to a port is enqueued (R176, R177). -/
def PortState.enqueue (enabled : Bool) (q : QueuedNotice) (p : PortState) : PortState :=
  if p.neighbour.isNone || !enabled then p
  else if p.transmitQueue.any (TxEntry.isFor q.notice.ident) then
    { p with transmitQueue := replaceNotice p.transmitQueue q }
  else if p.transmitQueue.length < Config.transmitCapacity then { p with transmitQueue := joinClass p.transmitQueue q }
  else { p with transmitQueue := overfull p.transmitQueue q, dropped := satSucc p.dropped }

/-- The notices handed to a port from an origin and not yet enqueued. -/
def PortMail.of (m : PortMail) (o : NoticeOrigin) : List QueuedNotice :=
  match o with
  | .own => m.own
  | .forwarded => m.forwarded

/-- The oldest of them is taken. -/
def PortMail.pop (m : PortMail) (o : NoticeOrigin) : PortMail :=
  match o with
  | .own => { m with own := m.own.tail }
  | .forwarded => { m with forwarded := m.forwarded.tail }

/-- NOTICE_ENQUEUE (R176). -/
def execNoticeEnqueue (port : Port) (origin : NoticeOrigin) (s : State) : Host.Outcome State Fault Refusal :=
  internal s (!((s.mail.port port).of origin).isEmpty) fun s =>
    match (s.mail.port port).of origin with
    | [] => s
    | q :: _ =>
      State.portEvent port (PortState.enqueue (portEnabled s.active port) q)
        { s with mail := s.mail.setPort port ((s.mail.port port).pop origin) }

/-! ## Transmission (R166, R178) -/

/-- The gap a port waits for, in ticks (R166). -/
def gap (p : Port) (ownLast : Bool) : Nat :=
  (match p with
   | .down => 2
   | .up => 3) + (if ownLast then Config.ownGapTicks else 0)

/-- A port has a frame to send: a pending HOLD, or with no hold timer running a queued entry (R178). -/
def PortState.hasFrame (p : PortState) : Bool := p.pendingHold.isSome || (p.holdDue.isNone && !p.transmitQueue.isEmpty)

/-- FRAME_BEGIN can be taken: enabled, not transmitting, its gap has run, and it has a frame to send (R166, R178). -/
def State.mayBegin (s : State) (p : Port) : Bool :=
  let q := s.link.get p
  portEnabled s.active p && q.transmission.isNone && decide (q.idleSince + gap p q.ownLast ≤ s.now) && q.hasFrame

/-- The HELLO a part sends (R167). -/
def State.hello (s : State) : Hello :=
  { spanId := s.active.span.spanId, firstNiche := wordNat s.active.span.firstNiche
    nicheCount := BitVec.ofNat 8 s.active.span.nicheCount, governing := s.incidents.governingIdent }

/-- The notice as it is sent: its age counts the time it waited, clipped to 65535 (R178). -/
def QueuedNotice.aged (sec : DWord) (q : QueuedNotice) : Notice :=
  { q.notice with age := wordNat (clip16 ((q.notice.age.toNat : Int) + (sec - q.joined).toNat)) }

/-- The bytes an entry is sent as (R178). -/
def State.entryBytes (s : State) (e : TxEntry) : List Byte :=
  match e with
  | .hello => s.hello.frame
  | .notice q => (q.aged s.regs.seconds).frame

/-- The frame chosen at a beginning, and the port without it (R178). -/
def State.beginFrame (s : State) (p : PortState) : PortState :=
  match p.pendingHold with
  | some t => { p with pendingHold := none, transmission := some { bytes := holdFrame t, began := s.now } }
  | none =>
    match p.transmitQueue with
    | [] => p
    | e :: rest => { p with transmitQueue := rest, transmission := some { bytes := s.entryBytes e, began := s.now } }

/-- FRAME_BEGIN (R178). -/
def execFrameBegin (port : Port) (s : State) : Host.Outcome State Fault Refusal :=
  internal s (s.mayBegin port) (State.portEvent port s.beginFrame)

/-- The last byte of a frame has been sent: 10 bit times of 1/57.6 ms for each byte (section 9.1, log entry 13). -/
def Transmission.over (t : Transmission) (now : Nat) : Bool := decide (t.bytes.length * 100 ≤ (now - t.began) * 576)

/-- FRAME_END can be taken. -/
def State.frameOver (s : State) (p : Port) : Bool :=
  match (s.link.get p).transmission with
  | none => false
  | some t => t.over s.now

/-- FRAME_END (R178, R166): the frame is gone and the lengthened gap applies. -/
def execFrameEnd (port : Port) (s : State) : Host.Outcome State Fault Refusal :=
  internal s (s.frameOver port) (State.portEvent port fun p =>
    { p with transmission := none, idleSince := s.now, ownLast := true })

/-! ## LOAD of the link item, and entering RUNNING (R163, R164) -/

/-- A port takes part in the link: a HELLO in its queue, the HELLO timer running (R163, R164). -/
def PortState.begins (now : Nat) (p : PortState) : PortState := { p.offerHello with helloDue := some (now + Config.helloTicks) }

/-- A port is disabled by a LOAD; a frame being sent completes (R164). -/
def PortState.disabled (p : PortState) : PortState :=
  { p.goDown with
    receiving := [], ignoring := false, receiveQueue := [], transmitQueue := [], pendingHold := none, holdDue := none
    holdShown := 0, helloDue := none, holdRepeatDue := none, holdMark := false }

/-- A port at the commit of a link item (R164). -/
def PortState.load (now : Nat) (before after : Bool) (p : PortState) : PortState :=
  if before = after then p else if after then p.begins now else p.disabled

/-- A port on entering RUNNING (R163). -/
def PortState.enterRunning (now : Nat) (enabled : Bool) : PortState :=
  let p := { PortState.reset with idleSince := now }
  if enabled then p.begins now else p

/-- The link on entering RUNNING: ports and relay (R163, R165). -/
def LinkUnit.enterRunning (x : Ctx) : LinkUnit :=
  { up := PortState.enterRunning x.now x.cfg.link.upEnabled, down := PortState.enterRunning x.now x.cfg.link.downEnabled
    relay := true }

end Sys2Proof.Machine
end

