-- ==== Sys2Proof/Machine/Decks.lean ====
section
/-! DEFINITION. Deck processors, the fetch arbiter and the card executor (sections 2.1 to 2.4). -/

namespace Sys2Proof.Machine

/-! ## Deck states -/

/-- The number of cards outstanding: (accepted post - done) modulo length (section 2.1). -/
def Deck.outstanding (d : Deck) : Nat := (d.accepted + d.length - d.done) % d.length

/-- A deck is ready: WAITING with a card outstanding (R27). -/
def Deck.ready (d : Deck) : Bool := decide (d.state = .waiting) && decide (0 < d.outstanding)

/-- An enabled deck whose card area counts in the overlap check (R22). -/
def Deck.holdsArea (d : Deck) : Bool :=
  match d.state with
  | .off => false
  | .stopped => decide (d.error ≠ .header)
  | _ => true

/-- A deck stops on an error: its card in flight is abandoned; done, the accepted post and the taken-card offset stay
(R26). -/
def Deck.stop (e : DeckError) (d : Deck) : Deck := { d with state := .stopped, error := e, inFlight := none }

/-- A deck returns to OFF (R23). -/
def Deck.disable (d : Deck) : Deck :=
  { d with state := .off, error := .none, accepted := 0, done := 0, taken := 0, inFlight := none }

/-- The checks of R22 that look at the deck's own header. -/
def Deck.headerOk (d : Deck) : Bool :=
  let b := d.baseWord.toNat
  let l := d.lengthWord.toNat
  decide (2 ≤ l) && decide (l ≤ 256) && decide (0x1000 ≤ b) && decide (b ≤ 0x7FFF) && decide (b % 32 = 0) &&
    decide (b + 32 * l ≤ 0x8000)

/-- The check of R22 against one other deck: no shared byte. -/
def Deck.clearOf (d other : Deck) : Bool :=
  !other.holdsArea ||
    decide (d.baseWord.toNat + 32 * d.lengthWord.toNat ≤ other.base) ||
    decide (other.base + 32 * other.length ≤ d.baseWord.toNat)

/-- DECK_ENABLE (R22): `valid` is the result of the four checks. -/
def Deck.enable (valid suspend : Bool) (d : Deck) : Deck :=
  if valid then
    { d with base := d.baseWord.toNat, length := d.lengthWord.toNat, done := 0, accepted := 0
             state := if suspend then .suspended else .waiting }
  else d.stop .header

/-- DECK_SUSPEND (R25). -/
def Deck.suspend (d : Deck) : Deck :=
  match d.state with
  | .waiting => { d with state := .suspended }
  | .running => { d with state := .suspendPending }
  | _ => d

/-- DECK_RESUME (R25). -/
def Deck.resume (d : Deck) : Deck :=
  match d.state with
  | .suspended => { d with state := .waiting }
  | .suspendPending => { d with state := .running }
  | _ => d

/-- A control event (R21): the change it shows, and the last-seen value. -/
def Deck.control (valid : Bool) (v : Word) (d : Deck) : Deck :=
  let enable := v.getLsbD 0
  let suspend := v.getLsbD 1
  let e :=
    if enable && !d.seenEnable then d.enable valid suspend
    else if !enable && d.seenEnable then d.disable
    else if enable && suspend && !d.seenSuspend then d.suspend
    else if enable && !suspend && d.seenSuspend then d.resume
    else d
  { e with seenEnable := enable, seenSuspend := suspend }

/-- A post event (R24). -/
def Deck.post (v : Word) (d : Deck) : Deck :=
  let p := v.toNat
  match d.state with
  | .off => d
  | .stopped => d
  | _ =>
    if d.length ≤ p then d.stop .postRange
    else if ({ d with accepted := p }).outstanding < d.outstanding then d.stop .postWithdraw
    else { d with accepted := p }

/-! ## Attachments -/

/-- The attachment of a deck's card is removed from the owning block (R23, R30, R34). -/
def State.detach (d : Fin 4) (s : State) : State :=
  { s with
    channels := mapTable s.channels fun c => if c.zeroCard = some d then { c with zero := some { card := none } } else c
    fans := { s.fans with fans := mapTable s.fans.fans fun f =>
      { f with attached := f.attached.filter fun k => decide (k ≠ d) } }
    mail := { s.mail with completions := s.mail.completions.set d none } }

/-! ## Control and post events -/

/-- The four checks of R22 for a deck. -/
def State.deckValid (s : State) (d : Fin 4) : Bool :=
  s.decks[d].headerOk && (List.finRange 4).all fun k => decide (k = d) || s.decks[d].clearOf s.decks[k]

/-- One event at a deck processor: a card in flight that it abandons is detached (CARD_ABANDON, R23), and DECK is set
on entry to STOPPED (R26). -/
def State.deckEvent (d : Fin 4) (act : Deck → Deck) (s : State) : State :=
  let before := s.decks[d]
  let after := act before
  let t := if before.inFlight.isSome && after.inFlight.isNone then s.detach d else s
  { t with
    decks := t.decks.set d after
    regs := t.regs.raiseIf (decide (after.state = .stopped) && decide (before.state ≠ .stopped)) .deck }

/-- The oldest event of a deck is taken. -/
def State.popDeckEvent (d : Fin 4) (s : State) : State :=
  { s with mail := { s.mail with deckEvents := modify s.mail.deckEvents d List.tail } }

/-- The deck processor is not between the two accesses of a completion (R30, log entry 6). -/
def Deck.settled (d : Deck) : Bool := d.finishing.isNone

/-- CONTROL_EVENT can be taken: the deck's oldest event is a control write (R5), and no header write is outstanding. -/
def State.controlWaiting (s : State) (d : Fin 4) : Bool :=
  s.decks[d].settled &&
    match s.mail.deckEvents[d] with
    | .control _ :: _ => true
    | _ => false

/-- CONTROL_EVENT (R21). -/
def execControlEvent (deck : Fin 4) (s : State) : Host.Outcome State Fault Refusal :=
  internal s (s.controlWaiting deck) fun s =>
    match s.mail.deckEvents[deck] with
    | .control v :: _ => (s.popDeckEvent deck).deckEvent deck (Deck.control (s.deckValid deck) v)
    | _ => s

/-- POST_EVENT can be taken: the deck's oldest event is a post write (R5), and no header write is outstanding. -/
def State.postWaiting (s : State) (d : Fin 4) : Bool :=
  s.decks[d].settled &&
    match s.mail.deckEvents[d] with
    | .post _ :: _ => true
    | _ => false

/-- POST_EVENT (R24). -/
def execPostEvent (deck : Fin 4) (s : State) : Host.Outcome State Fault Refusal :=
  internal s (s.postWaiting deck) fun s =>
    match s.mail.deckEvents[deck] with
    | .post v :: _ => (s.popDeckEvent deck).deckEvent deck (Deck.post v)
    | _ => s

/-! ## The take (R27, R28) -/

/-- The next deck in the round DP1, DP2, DP3 (R27). -/
def nextInRound (d : Fin 4) : Fin 4 :=
  match d with
  | 0 => 1
  | 1 => 2
  | 2 => 3
  | 3 => 1

/-- The order in which the arbiter looks at the decks (R27). -/
def arbiterOrder (fair : Bool) (last : Fin 4) : List (Fin 4) :=
  if fair then
    let a := nextInRound last
    let b := nextInRound a
    [0, a, b, nextInRound b]
  else [0, 1, 2, 3]

/-- FETCH_GRANT: the deck granted (R27). -/
def State.granted (s : State) : Option (Fin 4) :=
  (arbiterOrder s.active.span.fair s.lastGranted).find? fun d => s.decks[d].ready

/-- The card at done of a deck, read whole (R28). -/
def State.cardAtDone (s : State) (d : Fin 4) : Card := readCard s.cm.bytes (s.decks[d].base + 32 * s.decks[d].done)

/-- The deck makes the card at done the card in flight (R28, R35). -/
def Deck.take (now : Nat) (c : Card) (d : Deck) : Deck :=
  { d with
    state := .running, taken := wordNat (d.base + 32 * d.done)
    inFlight := some { slot := d.done, card := c
                       deadline := if c.wait && decide (c.deadline ≠ 0) then some (now + seconds c.deadline) else none } }

/-- The take of a granted deck: dispatch, or UNKNOWN_KIND refused at once (R28, R38). -/
def State.takeCard (d : Fin 4) (s : State) : State :=
  let c := s.cardAtDone d
  { s with
    decks := modify s.decks d (Deck.take s.now c)
    executor := some { deck := d, card := c, answer := if c.kind.isNone then some (.refuse .badKind) else none }
    lastGranted := if d = 0 then s.lastGranted else d }

/-- CARD_TAKE (R28): the executor is free and some deck is ready. -/
def execCardTake (s : State) : Host.Outcome State Fault Refusal :=
  internal s (s.executor.isNone && s.granted.isSome) fun s =>
    match s.granted with
    | none => s
    | some d => s.takeCard d

/-! ## Completion (R30, R31, R36) -/

/-- The four results as they stand at completion (R31, R105). -/
def State.resultWords (s : State) (r : Results) : List Word :=
  match r with
  | .words r0 r1 r2 r3 => [r0, r1, r2, r3]
  | .fanStatus f =>
    let e := s.fans.fans[f]
    [wordNat e.owner.code, wordNat e.state.code, wordNat e.target.speed, wordNat (boolNat e.target.isRev)]

/-- The card write (R30, R31): outcome and reason, the condition where called for, r0-r3, completed-at. -/
def writeCompletion (m : Memory) (at_ : Nat) (a : Answer) (results : List Word) (sec : DWord) : Memory :=
  let m1 := m.writeWord (at_ + 14) (packed a.outcome.code a.reason.code)
  let m2 := match a.condition with
    | none => m1
    | some w => m1.writeWord (at_ + 16) w
  (m2.writeWords (at_ + 18) results).writeWords (at_ + 28) (dwordWords sec)

/-- The deck at the card write (R30): no card is in flight any more, and the header write is to come. -/
def Deck.writeCard (immediate : Bool) (f : InFlight) (d : Deck) : Deck :=
  { d with inFlight := none, finishing := some { slot := f.slot, notify := f.card.notify, immediate := immediate } }

/-- The header write (R30). -/
def Deck.writeHeader (f : Finishing) (d : Deck) : Deck :=
  { d with
    done := (f.slot + 1) % d.length, taken := 0, finishing := none
    state := if d.state = .suspendPending then .suspended else .waiting }

/-- The first access of a completion, the card write: the card in flight receives its completion fields, its deadline timer
stops and its attachment is removed; with no card in flight nothing is written (R30, log entry 6). -/
def State.writeCard (d : Fin 4) (immediate : Bool) (a : Answer) (s : State) : State :=
  match s.decks[d].inFlight with
  | none => s
  | some f =>
    let t := s.detach d
    let slotAddress := s.decks[d].base + 32 * f.slot
    { t with
      cm := { t.cm with bytes := writeCompletion s.cm.bytes slotAddress a (s.resultWords a.results) s.regs.seconds }
      decks := modify t.decks d (Deck.writeCard immediate f) }

/-- The second access of a completion, the header write, with NOTIFY if the card asks for it; the completion of an immediate
answer has then been taken, and the executor is free (R28, R30, R36). -/
def State.writeDone (d : Fin 4) (f : Finishing) (s : State) : State :=
  { s with
    decks := modify s.decks d (Deck.writeHeader f), regs := s.regs.raiseIf f.notify .notify
    executor := if f.immediate then none else s.executor }

/-- The answer that waits at the executor for a deck. -/
def State.executorAnswer (s : State) (d : Fin 4) : Option Answer :=
  match s.executor with
  | none => none
  | some t => if t.deck = d then t.answer else none

/-- A completion waits for a deck: its header write, an immediate answer, or an answer sent by an owning block (R30). -/
def State.completionWaiting (s : State) (d : Fin 4) : Bool :=
  !s.decks[d].settled || (s.executorAnswer d).isSome || s.mail.completions[d].isSome

/-- A completion reaches the deck: its card write. An immediate answer that finds no card in flight frees the executor, and a
completion sent by an owning block leaves the deliveries (R28, R30). -/
def State.takeCompletion (d : Fin 4) (s : State) : State :=
  match s.executorAnswer d with
  | some a => if s.decks[d].inFlight.isSome then s.writeCard d true a else { s with executor := none }
  | none =>
    match s.mail.completions[d] with
    | some a => ({ s with mail := { s.mail with completions := s.mail.completions.set d none } }).writeCard d false a
    | none => s

/-- CARD_COMPLETION (R30): the header write of a completion whose card write has been made, and else the card write of the
completion that waits. -/
def execCardCompletion (deck : Fin 4) (s : State) : Host.Outcome State Fault Refusal :=
  internal s (s.completionWaiting deck) fun s =>
    match s.decks[deck].finishing with
    | some f => s.writeDone deck f
    | none => s.takeCompletion deck

/-! ## Deadline (R35) -/

/-- DEADLINE_EXPIRY can be taken. -/
def State.deadlineDue (s : State) (d : Fin 4) : Bool := expired (s.decks[d].inFlight.bind (·.deadline)) s.now

/-- The results of a TIMED_OUT card: a FAN_REQUEST reports its fan (R105), any other kind zeros (R31). -/
def timedOut (c : Card) : Answer :=
  match c.kind, targetIndex 8 c.target with
  | some .fanRequest, some f => .fanStatus .timedOut f
  | _, _ => .plain .timedOut 0 0

/-- DEADLINE_EXPIRY (R35): the card write of the completion TIMED_OUT; its header write is a CARD_COMPLETION (R30). -/
def execDeadlineExpiry (deck : Fin 4) (s : State) : Host.Outcome State Fault Refusal :=
  internal s (s.deadlineDue deck) fun s =>
    match s.decks[deck].inFlight with
    | none => s
    | some f => s.writeCard deck false (timedOut f.card)

end Sys2Proof.Machine
end

