-- ==== Sys2Proof/Machine/Cards.lean ====
section
/-! DEFINITION. The card kinds (section 2.5): what the owning block does with a dispatched card and how it answers. -/

namespace Sys2Proof.Machine

/-! ## Dispatch and answer (R28, R34) -/

/-- A card of a kind has been dispatched and waits for its owning block. -/
def State.cardWaiting (s : State) (k : CardKind) : Bool :=
  match s.executor with
  | none => false
  | some t => t.answer.isNone && decide (t.card.kind = some k)

/-- The owning block acts on the card of the take in progress: what R29, R68, R105 and R136 take at dispatch stands as it does
now, and not as at the take (log entry 65). -/
def State.dispatch (act : Take → State → State) (s : State) : State :=
  match s.executor with
  | none => s
  | some t => act t s

/-- An immediate answer (R28). -/
def State.reply (t : Take) (a : Answer) (s : State) : State := { s with executor := some { t with answer := some a } }

/-- A started answer: the executor is free (R28). -/
def State.started (s : State) : State := { s with executor := none }

/-- The attachment of a card: its deck while the card is still in flight (R23, R34). -/
def State.attachment (s : State) (d : Fin 4) : Option (Fin 4) := if s.decks[d].inFlight.isSome then some d else none

/-- A card on an object of a class of n, refused BAD_TARGET where the target names none (R32). -/
def State.onTarget (n : Nat) (act : Fin n → Take → State → State) (t : Take) (s : State) : State :=
  match targetIndex n t.card.target with
  | none => s.reply t (.refuse .badTarget)
  | some i => act i t s

/-! ## MARK (R39) -/

/-- MARK (R39). -/
def execMarkCard (s : State) : Host.Outcome State Fault Refusal :=
  internal s (s.cardWaiting .mark) (State.dispatch fun t s => s.reply t (.plain .done 0 0))

/-! ## READ (R68, R37) -/

/-- The comparison code of an average with a0 (R37, R183). -/
def comparison (avg : Option Int) (a0 : Int) : Nat :=
  match avg with
  | none => 0
  | some a => if a < a0 then 1 else if a = a0 then 2 else 3

/-- The answer of a READ (R68, R37). -/
def readAnswer (c : Channel) (card : Card) : Answer :=
  { outcome := .done, reason := .none
    results := .words (wordInt (lastValue c.history)) (wordInt ((average c.history).getD 0))
      (packed c.band.code c.status.code) c.flagsAndCount
    condition := if card.record then
        some (wordNat (comparison (average c.history) card.a0.toInt) ||| flagBit 8 c.summary)
      else none }

/-- READ (R68). -/
def execReadCard (s : State) : Host.Outcome State Fault Refusal :=
  internal s (s.cardWaiting .read) (State.dispatch (State.onTarget 12 fun ch t s =>
    s.reply t (readAnswer s.channels[ch] t.card)))

/-! ## ZERO (R70) -/

/-- ZERO on a channel (R70). -/
def State.zeroChannel (ch : Fin 12) (t : Take) (s : State) : State :=
  let c := s.channels[ch]
  let pend (card : Option (Fin 4)) : State := { s with channels := s.channels.set ch { c with zero := some { card := card } } }
  if c.out = false then s.reply t (.refuse .notPermitted)
  else if c.zero.isSome then s.reply t (.refuse .busy)
  else if t.card.wait then (pend (s.attachment t.deck)).started
  else (pend none).reply t (.plain .accepted 0 0)

/-- ZERO (R70). -/
def execZeroCard (s : State) : Host.Outcome State Fault Refusal :=
  internal s (s.cardWaiting .zero) (State.dispatch (State.onTarget 12 State.zeroChannel))

/-! ## CLEAR_SUMMARY (R69) and CHANNEL_SERVICE (R66, R67) -/

/-- CLEAR_SUMMARY on a channel (R69). -/
def State.clearSummary (ch : Fin 12) (t : Take) (s : State) : State :=
  let c := s.channels[ch]
  if c.band = .alarm then s.reply t (.plain .done 1 0)
  else State.reply t (.plain .done 0 0) { s with channels := s.channels.set ch { c with summary := false } }

/-- CLEAR_SUMMARY (R69). -/
def execClearSummaryCard (s : State) : Host.Outcome State Fault Refusal :=
  internal s (s.cardWaiting .clearSummary) (State.dispatch (State.onTarget 12 State.clearSummary))

/-- A channel is taken out of service or returned: a pending zero ends on return, its card OVERTAKEN, and the zone is
told (R66, R67, R72). -/
def State.setService (ch : Fin 12) (out : Bool) (s : State) : State :=
  let c := s.channels[ch]
  if out = c.out then s
  else if out then
    { s with channels := s.channels.set ch { c with out := true }
             mail := s.mail.reevaluate s.active.channels[ch].zone }
  else
    { s with channels := s.channels.set ch c.returnToService
             mail := (s.mail.complete c.zeroCard.toList (.plain .overtaken 0 0)).reevaluate s.active.channels[ch].zone }

/-- CHANNEL_SERVICE on a channel (R66). -/
def State.channelService (ch : Fin 12) (t : Take) (s : State) : State :=
  if 1 < t.card.a0.toNat then s.reply t (.refuse .badArgument)
  else (s.setService ch (t.card.a0 == 1)).reply t (.plain .done (wordNat (boolNat s.channels[ch].out)) 0)

/-- CHANNEL_SERVICE (R66). -/
def execChannelServiceCard (s : State) : Host.Outcome State Fault Refusal :=
  internal s (s.cardWaiting .channelService) (State.dispatch (State.onTarget 12 State.channelService))

/-! ## FAN_REQUEST (R105, R106) -/

/-- The host request a card spells, or none where an argument is out of range (R105). -/
def fanRequestOf (c : Card) : Option HostRequest :=
  match c.a0.toNat with
  | 0 => if c.a1.toNat ≤ 1 ∧ c.a2.toNat ≤ 100 then some (.manual (if c.a1 = 1 then .rev else .fwd) c.a2.toNat) else none
  | 1 => some .auto
  | _ => none

/-- The host request is replaced, and owner and live target are recomputed (R105). -/
def FanUnit.request (x : Ctx) (f : Fin 8) (r : HostRequest) (u : FanUnit) : FanUnit :=
  (u.change f ({ · with request := r })).recompute x f

/-- The answer to a FAN_REQUEST by the owner and state it finds: an outcome at once, or none for started (R105). -/
def requestOutcome (e : Fan) (wait : Bool) : Option CardOutcome :=
  if e.owner ≠ .host then some .deferred
  else if e.state = .faulted then some .accepted
  else if e.reached then some .done
  else if wait then none
  else some .accepted

/-- FAN_REQUEST on a fan (R105). -/
def State.fanRequest (f : Fin 8) (t : Take) (s : State) : State :=
  match fanRequestOf t.card with
  | none => s.reply t { outcome := .refused, reason := .badArgument, results := .fanStatus f, condition := none }
  | some r =>
    let v := s.fanEvent (FanUnit.request s.ctx f r)
    match requestOutcome v.fans.fans[f] t.card.wait with
    | some o => v.reply t (.fanStatus o f)
    | none =>
      State.started { v with fans := v.fans.change f fun e => { e with attached := e.attached ++ (v.attachment t.deck).toList } }

/-- FAN_REQUEST (R105). -/
def execFanRequestCard (s : State) : Host.Outcome State Fault Refusal :=
  internal s (s.cardWaiting .fanRequest) (State.dispatch (State.onTarget 8 State.fanRequest))

/-! ## FAN_SERVICE (R100) and FAN_RESET (R107) -/

/-- A fan is taken out of service or returned (R100). -/
def FanUnit.service (x : Ctx) (f : Fin 8) (out : Bool) (u : FanUnit) : FanUnit :=
  let v := u.change f ({ · with out := out })
  if out = u.fans[f].out then u
  else if out then (v.enter x f .service).recompute x f
  else if u.fans[f].localSwitch then (v.enter x f .localPanel).recompute x f
  else ((v.restartClock x f).enterStopping x f).recompute x f

/-- FAN_SERVICE on a fan (R100). -/
def State.fanService (f : Fin 8) (t : Take) (s : State) : State :=
  if 1 < t.card.a0.toNat then s.reply t (.refuse .badArgument)
  else (s.fanEvent (FanUnit.service s.ctx f (t.card.a0 == 1))).reply t
    (.plain .done (wordNat (boolNat s.fans.fans[f].out)) 0)

/-- FAN_SERVICE (R100). -/
def execFanServiceCard (s : State) : Host.Outcome State Fault Refusal :=
  internal s (s.cardWaiting .fanService) (State.dispatch (State.onTarget 8 State.fanService))

/-- A FAULTED fan is reset: owner and live target are recomputed (R87), and the STOPPED fan pursues the target (R107). -/
def FanUnit.clearFault (x : Ctx) (f : Fin 8) (u : FanUnit) : FanUnit := ((u.claim x f).enter x f .stopped).leaveStopped x f

/-- FAN_RESET on a fan (R107); a refused one recomputes nothing (log entry 59). -/
def State.fanReset (f : Fin 8) (t : Take) (s : State) : State :=
  let e := s.fans.fans[f]
  if e.state ≠ .faulted then s.reply t (.refuse .notPermitted)
  else if e.fault || !e.rundownOver s.ctx s.active.fans[f] then s.reply t (.refuse .busy)
  else (s.fanEvent (FanUnit.clearFault s.ctx f)).reply t
    (.plain .done (wordNat e.cause.code) 0)

/-- FAN_RESET (R107). -/
def execFanResetCard (s : State) : Host.Outcome State Fault Refusal :=
  internal s (s.cardWaiting .fanReset) (State.dispatch (State.onTarget 8 State.fanReset))

/-! ## Door cards (R125 to R127) -/

/-- The host mode is stored and secure wanted recomputed (R125). -/
def DoorUnit.mode (x : Ctx) (d : Fin 4) (secure : Bool) (u : DoorUnit) : DoorUnit :=
  (u.change x d fun _ e => { e with secureMode := secure }).recomputeSecure x d

/-- DOOR_MODE on a door (R125). -/
def State.doorMode (d : Fin 4) (t : Take) (s : State) : State :=
  if 1 < t.card.a0.toNat then s.reply t (.refuse .badArgument)
  else (s.doorEvent (DoorUnit.mode s.ctx d (t.card.a0 == 1))).reply t
    (.plain .done (wordNat (boolNat s.doors.doors[d].secureMode)) 0)

/-- DOOR_MODE (R125). -/
def execDoorModeCard (s : State) : Host.Outcome State Fault Refusal :=
  internal s (s.cardWaiting .doorMode) (State.dispatch (State.onTarget 4 State.doorMode))

/-- A door is taken out of service or returned (R126). -/
def Door.service (x : Ctx) (item : DoorItem) (out : Bool) (e : Door) : Door :=
  if out = decide (e.state = .service) then e
  else if out then e.enter x .service
  else (e.enter x .released).takeUp x item

/-- DOOR_SERVICE on a door (R126). -/
def State.doorService (d : Fin 4) (t : Take) (s : State) : State :=
  if 1 < t.card.a0.toNat then s.reply t (.refuse .badArgument)
  else (s.doorEvent fun u => u.change s.ctx d fun item e => e.service s.ctx item (t.card.a0 == 1)).reply t
    (.plain .done (wordNat (boolNat (decide (s.doors.doors[d].state = .service)))) 0)

/-- DOOR_SERVICE (R126). -/
def execDoorServiceCard (s : State) : Host.Outcome State Fault Refusal :=
  internal s (s.cardWaiting .doorService) (State.dispatch (State.onTarget 4 State.doorService))

/-- DOOR_RESET on a door (R127). -/
def State.doorReset (d : Fin 4) (t : Take) (s : State) : State :=
  let v := s.doorEvent fun u => u.change s.ctx d fun item e => e.resetFlags s.ctx item
  v.reply t (.plain .done v.doors.doors[d].flagWord (wordNat (boolNat s.doors.doors[d].boltFault)))

/-- DOOR_RESET (R127). -/
def execDoorResetCard (s : State) : Host.Outcome State Fault Refusal :=
  internal s (s.cardWaiting .doorReset) (State.dispatch (State.onTarget 4 State.doorReset))

/-! ## Incident cards (R136, R141, R143) -/

/-- The target of a DECLARE: a zone, or none at 255; another target names nothing (R136). -/
def declareTarget (w : Word) : Option (Option (Fin 8)) :=
  if w = 255 then some none else (targetIndex 8 w).map some

/-- The zone that the dispatched DECLARE names has no exchange open with the incident unit (R80, log entry 25). -/
def State.declareFree (s : State) : Bool :=
  match s.executor.bind fun t => targetIndex 8 t.card.target with
  | none => true
  | some z => s.zoneFree z

/-- DECLARE whose target and arguments are in range and whose zone is not TRIGGERED: creation, with SECONDS as this command
finds it (log entry 65), or TABLE_FULL (R136). -/
def State.declare (zone : Option (Fin 8)) (t : Take) (s : State) : State :=
  let x := s.ctx
  let position := match zone with
    | none => t.card.a0.toNat
    | some z => s.active.zonePosition z
  let create := IncidentUnit.create x .declared position zone (indexField 8 (by decide) t.card.a1) (t.card.a2 == 1) []
  let v := s.incidentEvent fun u => (create u).2
  match (create s.incidents).1 with
  | none => v.reply t { outcome := .refused, reason := .tableFull, results := .words identNone 0 0 0, condition := none }
  | some (i, k) =>
    let zones := match zone with
      | none => v.zones
      | some z => modify v.zones z (Zone.created i)
    State.reply t (.plain .done i.word (wordNat k.val)) { v with zones := zones }

/-- DECLARE on a valid target (R136). -/
def State.declareOn (zone : Option (Fin 8)) (t : Take) (s : State) : State :=
  let position : Nat := match zone with
    | none => t.card.a0.toNat
    | some _ => 0
  let busy : Option Zone := (zone.map fun z => s.zones[z]).filter fun z => decide (z.state = .triggered)
  if 7 < t.card.a1.toNat ∨ 1 < t.card.a2.toNat ∨ 1023 < position then s.reply t (.refuse .badArgument)
  else match busy with
    | some z =>
      s.reply t { outcome := .refused, reason := .busy, results := .words (identWord z.ident) 0 0 0, condition := none }
    | none => s.declare zone t

/-- DECLARE (R136). -/
def execDeclareCard (s : State) : Host.Outcome State Fault Refusal :=
  internal s (s.cardWaiting .declare && s.declareFree) (State.dispatch fun t s =>
    match declareTarget t.card.target with
    | none => s.reply t (.refuse .badTarget)
    | some zone => s.declareOn zone t)

/-- A card whose target holds an identity: BAD_TARGET outside 1-254, UNKNOWN_ID in no record (R141, R143). -/
def State.onIncident (act : Fin 4 → Incident → Take → State → State) (t : Take) (s : State) : State :=
  let i := Ident.ofWord t.card.target
  if !validSpan i.span then s.reply t (.refuse .badTarget)
  else match (s.incidents.find i).bind fun k => s.incidents.slots[k].map fun r => (k, r) with
    | none => s.reply t (.refuse .unknownId)
    | some (k, r) => act k r t s

/-- ACKNOWLEDGE on a record: r0 its state after the card, r1 its slot (R141). -/
def State.acknowledge (k : Fin 4) (r : Incident) (t : Take) (s : State) : State :=
  let after : IncidentState := if r.state = .active then .acknowledged else r.state
  (s.incidentEvent (IncidentUnit.acknowledge s.ctx k r)).reply t (.plain .done (wordNat after.code) (wordNat k.val))

/-- ACKNOWLEDGE (R141). -/
def execAcknowledgeCard (s : State) : Host.Outcome State Fault Refusal :=
  internal s (s.cardWaiting .acknowledge) (State.dispatch (State.onIncident State.acknowledge))

/-- CLEAR on a record: r0 its state before the card, r1 its slot (R143). -/
def State.clearIncident (k : Fin 4) (r : Incident) (t : Take) (s : State) : State :=
  let v := if r.state = .clearing then s else s.incidentEvent (IncidentUnit.enterClearing s.ctx k r)
  v.reply t (.plain .done (wordNat r.state.code) (wordNat k.val))

/-- CLEAR (R143). -/
def execClearCard (s : State) : Host.Outcome State Fault Refusal :=
  internal s (s.cardWaiting .clear) (State.dispatch (State.onIncident State.clearIncident))

/-! ## LOAD (R18, R19, R40, R41) -/

/-- The item a LOAD's target names (section 10.4, R40). -/
def loadTarget (w : Word) : Option ItemRef := ItemRef.ofCodes (lowByte w).toNat (highByte w).toNat

/-- The owning block's condition of R18: R52, R73, R84, R108, R129, R128, R150, R164. -/
def State.loadAllowed (s : State) (r : ItemRef) : Bool :=
  match r with
  | .zone z => decide (s.zones[z].state = .quiet)
  | .fan f => decide (s.fans.fans[f].state = .stopped) || decide (s.fans.fans[f].state = .service)
  | .gallery => decide (s.doors.demand = .idle)
  | .door d => decide (s.doors.doors[d].state = .secured) || decide (s.doors.doors[d].state = .released) ||
      decide (s.doors.doors[d].state = .service)
  | _ => true

/-- The item read whole from the configuration block (R18). -/
def State.staged (s : State) (r : ItemRef) : Nat → Word := itemField s.cm.bytes r

/-- The first check that fails of a LOAD (R18, R19). -/
def State.loadFailure (s : State) (r : ItemRef) : Option ItemCheck :=
  firstFailure (itemChecks s.active r (s.staged r) ++ namedByChecks s.active r (s.staged r))

/-- The answer of a LOAD refused BAD_CONFIG (R41). -/
def badConfig (c : ItemCheck) : Answer :=
  { outcome := .refused, reason := .badConfig, condition := none
    results := .words (wordNat c.reason.code) (wordNat c.field)
      ((c.other.map fun o => wordNat o.classNo).getD 0xFFFF) ((c.other.map fun o => wordNat o.index).getD 0xFFFF) }

/-- The copy read becomes the active item (R18). -/
def State.storeItem (r : ItemRef) (s : State) : State := { s with active := s.active.store r (s.staged r) }

/-- A committed channel item (R73, R48, R56): `old` is the channel's zone before. A window handed over before the commit and not
yet taken stays and is judged under the new item (log entry 49). -/
def State.loadChannel (c : Fin 12) (s : State) : State :=
  let old := s.active.channels[c].zone
  let t := s.storeItem (.channel c)
  let item := t.active.channels[c]
  let m := (s.mail.complete s.channels[c].zeroCard.toList (.plain .overtaken 0 0)).reevaluate old
  { t with
    channels := modify s.channels c Channel.load
    measured := modify s.measured c fun p => (p.setFilter item.filter).rebind (some item.gate)
    mail := if item.zone = old then m else m.reevaluate item.zone }

/-- A committed zone item (R84, R89); the zone's re-evaluation is an event of its own (log entry 63). -/
def State.loadZone (z : Fin 8) (s : State) : State :=
  let t := s.storeItem (.zone z)
  let m := t.mail.reevaluate (some z)
  { t with mail := { m with zoneCommits := m.zoneCommits ++ [z] } }

/-- The contact inputs take the settings of the active items that own them; those of other owners keep a candidate (R47). -/
def State.configureContacts (owned : Fin 36 → Bool) (s : State) : State :=
  { s with contacts := Vector.ofFn fun i =>
      if owned i then s.contacts[i].configure (contactSetting s.active i) else s.contacts[i] }

/-- A fan entry at the commit of its item (R108); with no tach gate the last rpm is 0 (log entry 41). -/
def Fan.load (item : FanItem) (e : Fan) : Fan :=
  { e with underspeed := false, lastRpm := if item.tachGate = none then 0 else e.lastRpm }

/-- The fan controller at the commit of a fan item (R108, R89). -/
def FanUnit.load (x : Ctx) (f : Fin 8) (u : FanUnit) : FanUnit :=
  let v := u.change f (Fan.load x.cfg.fans[f])
  (v.change f fun e => { e with demand := v.demandOf x.cfg f }).recompute x f

/-- A committed fan item (R108, R47, R56, R101). -/
def State.loadFan (f : Fin 8) (s : State) : State :=
  let old := s.active.fans[f]
  let t := (s.storeItem (.fan f)).configureContacts fun i =>
    decide (i = fanInput f 0) || decide (i = fanInput f 1) || decide (i = fanInput f 2)
  let item := t.active.fans[f]
  let u : State := { t with tach := modify t.tach f (Pulse.rebind item.tachGate) }
  let v := u.fanEvent (FanUnit.load u.ctx f)
  if old.role = item.role ∧ old.niche = item.niche then v
  else { v with mail := { v.mail with fanItems := modify v.mail.fanItems f (· + 1) } }

/-- A committed gallery item (R129, R124). -/
def State.loadGallery (s : State) : State :=
  let t := s.storeItem .gallery
  if t.active.gallery.pressureChannel = s.active.gallery.pressureChannel then t
  else { t with doors := { t.doors with pressure := .absent } }

/-- A committed door item (R128, R47). -/
def State.loadDoor (d : Fin 4) (s : State) : State :=
  let t := (s.storeItem (.door d)).configureContacts fun i =>
    decide (i = doorInput d 0) || decide (i = doorInput d 1) || decide (i = doorInput d 2)
  t.doorEvent (DoorUnit.recomputeSecure t.ctx d)

/-- A committed template item (R150, R152). -/
def State.loadTemplate (i : Fin 8) (s : State) : State :=
  (s.storeItem (.template i)).placementEvent (decide (s.placement.governing.map (·.template) = some i)) id

/-- A committed link item (R164). -/
def State.loadLink (s : State) : State :=
  let t := s.storeItem .link
  let load (p : Port) : PortState → PortState := PortState.load s.now (portEnabled s.active p) (portEnabled t.active p)
  State.portEvent .down (load .down) (State.portEvent .up (load .up) t)

/-- The commit of an item and the owning block's action on it. -/
def State.commit (r : ItemRef) (s : State) : State :=
  match r with
  | .span => s
  | .gate g =>
    let t := s.storeItem (.gate g)
    { t with gates := modify t.gates g (Gate.setPending t.active.gates[g]) }
  | .channel c => s.loadChannel c
  | .zone z => s.loadZone z
  | .fan f => s.loadFan f
  | .gallery => s.loadGallery
  | .door d => s.loadDoor d
  | .template i => s.loadTemplate i
  | .link => s.loadLink

/-- LOAD of a named item (R18, R40). -/
def State.loadItem (r : ItemRef) (t : Take) (s : State) : State :=
  if r = .span then s.reply t (.refuse .notPermitted)
  else if !s.loadAllowed r then s.reply t (.refuse .busy)
  else match s.loadFailure r with
    | some c => s.reply t (badConfig c)
    | none => (s.commit r).reply t (.plain .done (wordNat r.classNo) (wordNat r.index))

/-- The zone whose item the dispatched LOAD names has no exchange open with the incident unit (R80, log entry 25). -/
def State.loadFree (s : State) : Bool :=
  match s.executor.bind fun t => loadTarget t.card.target with
  | some (.zone z) => s.zoneFree z
  | _ => true

/-- LOAD (R40). -/
def execLoadCard (s : State) : Host.Outcome State Fault Refusal :=
  internal s (s.cardWaiting .load && s.loadFree) (State.dispatch fun t s =>
    match loadTarget t.card.target with
    | none => s.reply t (.refuse .badTarget)
    | some r => s.loadItem r t)

end Sys2Proof.Machine
end

