-- ==== Sys2Proof/Machine/StartUp.lean ====
section
/-! DEFINITION. Run states: resets, START, item validation, entering RUNNING and SECONDS (section 1.6, R12 to R17). -/

namespace Sys2Proof.Machine

/-! ## Resets (R16, R17) -/

/-- What both resets make of the part: every block at its reset state (R16), the time base, the environment's pins, the
word last read and the bytes of the common memory kept. -/
def State.softReset (s : State) : State :=
  { State.reset with
    pending := s.pending, now := s.now, hd := s.hd, resetAsserted := s.resetAsserted
    cm := { State.reset.cm with bytes := s.cm.bytes }
    contacts := mapTable s.contacts fun c => { Contact.reset with pin := c.pin }
    measured := mapTable s.measured fun p => { Pulse.reset with pin := p.pin }
    tach := mapTable s.tach fun p => { Pulse.reset with pin := p.pin } }

/-- A power-on reset: also the whole common memory is zeroed, and RESET stands asserted (R17). -/
def State.powerOnReset (s : State) : State :=
  { s.softReset with resetAsserted := true, cm := State.reset.cm }

/-- POWER_ON_RESET (R17). -/
def execPowerOnReset (s : State) : Host.Outcome State Fault Refusal := .next s.powerOnReset

/-- RESET_RELEASE (R17): the part is HALTED and takes host accesses. -/
def execResetRelease (s : State) : Host.Outcome State Fault Refusal := .next { s with resetAsserted := false }

/-! ## START (R13) -/

/-- The part enters STARTING: the failing fields of RUN STATE are zero and validation begins at the first item (R13, R14). -/
def Registers.startUp (r : Registers) : Registers :=
  { r with runState := .starting, failClass := 0, failIndex := 0, failReason := none, nextItem := 0 }

/-- START can act: HALTED or CONFIG_FAULT (R13). -/
def RunState.takesStart (r : RunState) : Bool :=
  match r with
  | .halted => true
  | .configFault => true
  | _ => false

/-- START acts (R13): ignored in STARTING and RUNNING. -/
def State.start (s : State) : State :=
  if s.regs.runState.takesStart then { s with regs := s.regs.startUp, candidate := ActiveConfig.zero } else s

/-! ## Entering RUNNING (R15) -/

/-- The change masks on entering RUNNING: every bit of an image record; the deck bits stay clear (R15). -/
def enteringMasks : Vector Word 8 := Vector.ofFn fun w => if w.val = 7 then 0 else maskUsed w

/-- A deck on entering RUNNING: the host's header words stay, the processor is OFF (R15, R20). -/
def Deck.enterRunning (d : Deck) : Deck :=
  { Deck.reset with baseWord := d.baseWord, lengthWord := d.lengthWord, controlWord := d.controlWord, postWord := d.postWord }

/-- The registers on entering RUNNING (R12, R15). -/
def Registers.enterRunning (r : Registers) : Registers :=
  ({ r with runState := .running, seconds := 0, nextItem := itemCount }.raise .start).raise .change

/-- ENTER_RUNNING (R15): the items read become active and each block begins at its stated state, with CONTACT_TAKE_UP
(R45) for fans (R101) and doors (R112) and the first HELLO of each enabled port (R163) as parts of the first contents of
the image (log entry 10). -/
def State.enterRunning (s : State) : State :=
  let cfg := s.candidate
  let x : Ctx := { cfg := cfg, now := s.now, sec := 0 }
  let contacts : Vector Contact 36 := Vector.ofFn fun i => s.contacts[i].enterRunning (contactSetting cfg i)
  let fans := FanUnit.enterRunning x contacts
  { s with
    secondsDue := s.now + Config.ticksPerSecond, periodDue := false, regs := s.regs.enterRunning
    cm := { s.cm with masks := enteringMasks, sequences := Vector.replicate 41 0 }
    active := cfg, decks := mapTable s.decks Deck.enterRunning, executor := none, lastGranted := 3, contacts := contacts
    measured := Vector.ofFn fun i => s.measured[i].enterRunning cfg.channels[i].filter (some cfg.channels[i].gate)
    tach := Vector.ofFn fun i => s.tach[i].enterRunning .fast cfg.fans[i].tachGate
    gates := Vector.ofFn fun i => Gate.enterRunning cfg.gates[i] s.now
    sref := Vector.replicate 8 0, channels := Vector.replicate 12 Channel.reset, zones := Vector.replicate 8 Zone.reset
    fans := fans, doors := DoorUnit.enterRunning x contacts, incidents := .reset, placement := .reset
    link := LinkUnit.enterRunning x
    mail := { Mail.empty with availability := availabilityMail FanUnit.reset fans Mail.empty.availability } }

/-! ## ITEM_VALIDATION (R14) -/

/-- ENTER_CONFIG_FAULT (R14). -/
def Registers.configFault (r : Registers) (item : ItemRef) (reason : ValReason) : Registers :=
  { r with runState := .configFault, failClass := item.classNo, failIndex := item.index, failReason := some reason }.raise
    .start

/-- One item read whole and checked against those before it; the 47th pass enters RUNNING (R14, R15). -/
def State.validateItem (item : ItemRef) (s : State) : State :=
  let words := itemField s.cm.bytes item
  match firstFailure (itemChecks s.candidate item words) with
  | some c => { s with regs := s.regs.configFault item c.reason }
  | none =>
    let t := { s with candidate := s.candidate.store item words, regs := { s.regs with nextItem := s.regs.nextItem + 1 } }
    if s.regs.nextItem + 1 < itemCount then t else t.enterRunning

/-- ITEM_VALIDATION can be taken: the part is STARTING. -/
def State.validating (s : State) : Bool := decide (s.regs.runState = .starting) && !s.resetAsserted

/-- ITEM_VALIDATION (R14). -/
def execItemValidation (s : State) : Host.Outcome State Fault Refusal :=
  if s.validating then
    match startItem s.regs.nextItem with
    | none => .next s
    | some item => .next (s.validateItem item)
  else .next s

/-! ## SECONDS (R12) -/

/-- SECONDS_INCREMENT can be taken: 1000 ticks have passed since the last. -/
def State.secondDue (s : State) : Bool := decide (s.secondsDue ≤ s.now)

/-- SECONDS counts one second, wrapping (R12). -/
def State.countSecond (s : State) : State :=
  { s with secondsDue := s.secondsDue + Config.ticksPerSecond, regs := { s.regs with seconds := s.regs.seconds + 1 } }

/-- SECONDS_INCREMENT (R12). -/
def execSecondsIncrement (s : State) : Host.Outcome State Fault Refusal := internal s s.secondDue State.countSecond

end Sys2Proof.Machine
end

