-- ==== Sys2Proof/Machine/Registers.lean ====
section
/-! DEFINITION. The registers (section 1.5, R184): which register an access reaches, what a read returns and what a write does.
HA1-HA3 choose the register and HA4-HA14 are not decoded, so each row's command is the register access it names, and what it
does follows from the offset it carries (log entries 27, 28). -/

namespace Sys2Proof.Machine

/-- The register position an offset of the register window reaches, counting words: HA1-HA3 choose it (R184). -/
def registerPosition (o : Offset) : Nat := o.toNat / 2 % 8

/-- RUN STATE as it reads (R184). -/
def Registers.runStateWord (r : Registers) : Word :=
  wordNat r.runState.code ||| wordNat r.failClass <<< 4 ||| wordNat r.failIndex <<< 8 |||
    wordNat ((r.failReason.map ValReason.code).getD 0) <<< 12

/-- The word a read of a register position returns (R10 to R13, R184); CONTROL and the empty position read zero. -/
def Registers.word (r : Registers) (position : Nat) : Word :=
  match position with
  | 0 => if r.identNext then Config.revision else Config.familyCode
  | 2 => r.runStateWord
  | 3 => r.attention
  | 4 => r.attentionMask
  | 5 => dwordLow r.seconds
  | 6 => r.secondsHigh
  | _ => 0

/-- The registers after a read of a position: IDENT turns to its other word (R10), and SECONDS LOW latches the high half of the
same value (R12). -/
def Registers.afterRead (r : Registers) (position : Nat) : Registers :=
  match position with
  | 0 => { r with identNext := !r.identNext }
  | 5 => { r with secondsHigh := dwordHigh r.seconds }
  | _ => r

/-- A host read of a register. While RESET is asserted reads return 0x0000 (R1). -/
def State.registerRead (o : Offset) (s : State) : State :=
  if s.resetAsserted then { s with hd := 0 }
  else { s with hd := s.regs.word (registerPosition o), regs := s.regs.afterRead (registerPosition o) }

/-- A write to CONTROL: SOFT RESET goes before START, and bits that name nothing are ignored (R13, R16). -/
def State.controlWrite (v : Word) (s : State) : State :=
  if v.getLsbD 1 then s.softReset else if v.getLsbD 0 then s.start else s

/-- A host write to a register: CONTROL acts, ATTENTION clears each cause written as 1, ATTENTION MASK is replaced with its unused
bits zero (R11), and a write to a register that is only read or to the empty position is discarded (R10, R184). While RESET
is asserted host writes are lost (R1). -/
def State.registerWrite (o : Offset) (v : Word) (s : State) : State :=
  if s.resetAsserted then s
  else match registerPosition o with
    | 1 => s.controlWrite v
    | 3 => { s with regs := { s.regs with attention := s.regs.attention &&& ~~~v } }
    | 4 => { s with regs := { s.regs with attentionMask := v &&& causeBits } }
    | _ => s.discarded

/-- IDENT_READ (R10, R184). -/
def execIdentRead (s : State) (offset : Offset := 0x0) : Host.Outcome State Fault Refusal := .next (s.registerRead offset)

/-- SECONDS_LOW_READ (R12, R184). -/
def execSecondsLowRead (s : State) (offset : Offset := 0xA) : Host.Outcome State Fault Refusal := .next (s.registerRead offset)

/-- START (R13, R184). -/
def execStart (s : State) (value : Word := 0x0001) (offset : Offset := 0x2) : Host.Outcome State Fault Refusal :=
  .next (s.registerWrite offset value)

/-- SOFT_RESET (R16, R184). -/
def execSoftReset (s : State) (value : Word := 0x0002) (offset : Offset := 0x2) : Host.Outcome State Fault Refusal :=
  .next (s.registerWrite offset value)

/-- ATTENTION_CLEAR (R11, R184). -/
def execAttentionClear (value : Word) (s : State) (offset : Offset := 0x6) : Host.Outcome State Fault Refusal :=
  .next (s.registerWrite offset value)

/-- ATTENTION_MASK_WRITE (R11, R184). -/
def execAttentionMaskWrite (value : Word) (s : State) (offset : Offset := 0x8) : Host.Outcome State Fault Refusal :=
  .next (s.registerWrite offset value)

/-- REGISTER_WRITE_DISCARDED (R10, R184). -/
def execRegisterWriteDiscarded (value : Word) (offset : Offset) (s : State) : Host.Outcome State Fault Refusal :=
  .next (s.registerWrite offset value)

end Sys2Proof.Machine
end

