-- ==== Sys2Proof/Machine/Schedule.lean ====
section
/-! DEFINITION. Time and the part's own events: the 1 ms tick (R12), which events have come about, and the fixed order in
which the part takes them while no command waits (log entries 3, 4). -/

namespace Sys2Proof.Machine

/-- An event of the part's own blocks has come about: its command would act. Commands from outside are never ready. -/
def State.ready (s : State) (c : Instr) : Bool :=
  match c with
  | .itemValidation => s.validating
  | .secondsIncrement => s.running && s.secondDue
  | .controlEvent d => s.running && s.controlWaiting d
  | .postEvent d => s.running && s.postWaiting d
  | .cardTake => s.running && s.executor.isNone && s.granted.isSome
  | .cardCompletion d => s.running && s.completionWaiting d
  | .deadlineExpiry d => s.running && s.deadlineDue d
  | .markCard => s.running && s.cardWaiting .mark
  | .loadCard => s.running && s.cardWaiting .load && s.loadFree
  | .readCard => s.running && s.cardWaiting .read
  | .zeroCard => s.running && s.cardWaiting .zero
  | .clearSummaryCard => s.running && s.cardWaiting .clearSummary
  | .channelServiceCard => s.running && s.cardWaiting .channelService
  | .fanRequestCard => s.running && s.cardWaiting .fanRequest
  | .fanServiceCard => s.running && s.cardWaiting .fanService
  | .fanResetCard => s.running && s.cardWaiting .fanReset
  | .doorModeCard => s.running && s.cardWaiting .doorMode
  | .doorServiceCard => s.running && s.cardWaiting .doorService
  | .doorResetCard => s.running && s.cardWaiting .doorReset
  | .declareCard => s.running && s.cardWaiting .declare && s.declareFree
  | .acknowledgeCard => s.running && s.cardWaiting .acknowledge
  | .clearCard => s.running && s.cardWaiting .clear
  | .fanRunningContact f => s.running && s.contactWaiting (fanInput f 0)
  | .fanFaultContact f => s.running && s.contactWaiting (fanInput f 1)
  | .fanLocalContact f => s.running && s.contactWaiting (fanInput f 2)
  | .doorClosedContact d => s.running && s.contactWaiting (doorInput d 0)
  | .doorBoltedContact d => s.running && s.contactWaiting (doorInput d 1)
  | .doorPushContact d => s.running && s.contactWaiting (doorInput d 2)
  | .gateWindowEnd g => s.running && s.windowEndDue g
  | .windowHandover i => s.running && !s.mail.windows[i].isEmpty
  | .tachHandover f => s.running && !s.mail.tachWindows[f].isEmpty
  | .zoneReevaluation z => s.running && decide (0 < s.mail.reevaluations[z]) && s.zoneFree z
  | .confirmTimerExpiry z => s.running && s.confirmDue z
  | .creationRequest z => s.running && s.mail.requests[z].isSome
  | .slotFreed z => s.running && decide (0 < s.mail.slotFreed[z]) && s.zoneFree z
  | .incidentFreed z => s.running && !s.mail.incidentFreed[z].isEmpty && s.zoneFree z
  | .demandLevelChange z => s.running && !s.mail.demandLevels[z].isEmpty
  | .zoneLoadCommit => s.running && !s.mail.zoneCommits.isEmpty
  | .placementChange => s.running && !s.mail.placements.isEmpty
  | .galleryDemandChange => s.running && !s.mail.galleryDemands.isEmpty
  | .startLimitExpiry f => s.running && s.startLimitDue f
  | .settleExpiry f => s.running && s.settleDue f
  | .rundownExpiry f => s.running && s.rundownDue f
  | .availabilityChange f => s.running && !s.mail.availability[f].isEmpty
  | .fanItemChange f => s.running && decide (0 < s.mail.fanItems[f])
  | .governingChange => s.running && !s.mail.governing.isEmpty
  | .deficitDelivery => s.running && !s.mail.deficits.isEmpty
  | .incidentDelivery => s.running && !s.mail.incidents.isEmpty
  | .pressureReading => s.running && !s.mail.readings.isEmpty
  | .boltTimerExpiry d => s.running && s.boltDue d
  | .reliefClockExpiry d => s.running && s.reliefDue d
  | .assistTimerExpiry d => s.running && s.assistDue d
  | .heldOpenExpiry d => s.running && s.heldOpenDue d
  | .notice => s.running && !s.mail.notices.isEmpty
  | .refreshTimerExpiry k => s.running && s.slotDue k (·.refreshDue)
  | .staleTimerExpiry k => s.running && s.slotDue k (·.staleDue)
  | .clearingTimerExpiry k => s.running && s.slotDue k (·.clearingDue)
  | .clearedEntryExpiry => s.running && s.clearedDue
  | .noticeEnqueue p o => s.running && !((s.mail.port p).of o).isEmpty
  | .incompleteFrame p => s.running && s.frameBroken p
  | .helloTaken p => s.running && s.helloWaiting p
  | .incidentFrameTaken p => s.running && s.incidentWaiting p
  | .helloTimerExpiry p => s.running && expired (s.link.get p).helloDue s.now
  | .agingTimerExpiry p => s.running && expired (s.link.get p).agingDue s.now
  | .holdTimerExpiry p => s.running && expired (s.link.get p).holdDue s.now
  | .holdRepeatExpiry p => s.running && expired (s.link.get p).holdRepeatDue s.now && (s.link.get p).holdMark
  | .frameBegin p => s.running && s.mayBegin p
  | .frameEnd p => s.running && s.frameOver p
  | .speedReferencePeriodStart => s.running && s.periodDue
  | .lineIdleAfterReject p => s.running && s.ignoringEnds p
  | _ => false

/-- The commands of one event kind, by object number. -/
def each {n : Nat} (f : Fin n → Instr) : List Instr := (List.finRange n).map f

/-- The events of the inputs and of time. -/
def inputEvents : List Instr :=
  List.flatten
    [ [Instr.itemValidation, Instr.secondsIncrement, Instr.speedReferencePeriodStart], each Instr.gateWindowEnd,
      each Instr.windowHandover, each Instr.tachHandover ]

/-- The events of decks and cards. -/
def deckEvents : List Instr :=
  List.flatten
    [ each Instr.controlEvent, each Instr.postEvent, each Instr.cardCompletion, each Instr.deadlineExpiry,
      [ Instr.cardTake, Instr.markCard, Instr.loadCard, Instr.readCard, Instr.zeroCard, Instr.clearSummaryCard,
        Instr.channelServiceCard, Instr.fanRequestCard, Instr.fanServiceCard, Instr.fanResetCard, Instr.doorModeCard,
        Instr.doorServiceCard, Instr.doorResetCard, Instr.declareCard, Instr.acknowledgeCard, Instr.clearCard ] ]

/-- The events of zones and fans. -/
def fanEvents : List Instr :=
  List.flatten
    [ each Instr.creationRequest, each Instr.zoneReevaluation, each Instr.confirmTimerExpiry, each Instr.slotFreed,
      each Instr.incidentFreed, each Instr.demandLevelChange,
      [Instr.zoneLoadCommit, Instr.placementChange, Instr.galleryDemandChange], each Instr.fanRunningContact,
      each Instr.fanFaultContact, each Instr.fanLocalContact, each Instr.startLimitExpiry, each Instr.settleExpiry,
      each Instr.rundownExpiry ]

/-- The events of placement, doors and incidents. -/
def incidentEvents : List Instr :=
  List.flatten
    [ each Instr.availabilityChange, each Instr.fanItemChange,
      [Instr.governingChange, Instr.deficitDelivery, Instr.incidentDelivery, Instr.pressureReading],
      each Instr.doorClosedContact, each Instr.doorBoltedContact, each Instr.doorPushContact, each Instr.boltTimerExpiry,
      each Instr.reliefClockExpiry, each Instr.assistTimerExpiry, each Instr.heldOpenExpiry, [Instr.notice],
      each Instr.refreshTimerExpiry, each Instr.staleTimerExpiry, each Instr.clearingTimerExpiry,
      [Instr.clearedEntryExpiry] ]

/-- The events of one port. -/
def portEvents (p : Port) : List Instr :=
  [.noticeEnqueue p .own, .noticeEnqueue p .forwarded, .incompleteFrame p, .lineIdleAfterReject p, .helloTaken p,
   .incidentFrameTaken p, .helloTimerExpiry p, .agingTimerExpiry p, .holdTimerExpiry p, .holdRepeatExpiry p, .frameEnd p,
   .frameBegin p]

/-- The part's own events, in the order in which it looks for one that is ready (log entry 3). -/
def ownEvents : List Instr :=
  List.flatten [inputEvents, deckEvents, fanEvents, incidentEvents, portEvents .up, portEvents .down]

/-- The event the part takes next when no command waits. -/
def State.readyEvent (s : State) : Option Instr := ownEvents.find? s.ready

/-- Samples of the tick are still to come while the part is RUNNING (R43, R48). -/
def State.samplesWait (s : State) : Bool := s.running && s.samplesDue

/-- One tick of the 1 ms tick: time passes, and in RUNNING samples fall due and the gates count (R12, R43, R48, R50). -/
def State.tick (s : State) : State :=
  let t := { s with now := s.now + 1 }
  if t.running then t.tickInputs else t

end Sys2Proof.Machine
end

