-- ==== Sys2Proof/Machine/Dispatch.lean ====
section
/-! DEFINITION. The meaning of every command: one arm per constructor of Instr, each a direct call. -/

namespace Sys2Proof.Machine

def exec (i : Instr) (s : State) : Host.Outcome State Fault Refusal :=
  match i with
  | .hostMemoryRead offset => Sys2Proof.Machine.execHostMemoryRead offset s
  | .hostMemoryWrite offset value => Sys2Proof.Machine.execHostMemoryWrite offset value s
  | .identRead offset => Sys2Proof.Machine.execIdentRead s offset
  | .start value offset => Sys2Proof.Machine.execStart s value offset
  | .softReset value offset => Sys2Proof.Machine.execSoftReset s value offset
  | .attentionClear value offset => Sys2Proof.Machine.execAttentionClear value s offset
  | .attentionMaskWrite value offset => Sys2Proof.Machine.execAttentionMaskWrite value s offset
  | .secondsLowRead offset => Sys2Proof.Machine.execSecondsLowRead s offset
  | .registerWriteDiscarded value offset => Sys2Proof.Machine.execRegisterWriteDiscarded value offset s
  | .powerOnReset => Sys2Proof.Machine.execPowerOnReset s
  | .resetRelease => Sys2Proof.Machine.execResetRelease s
  | .itemValidation => Sys2Proof.Machine.execItemValidation s
  | .secondsIncrement => Sys2Proof.Machine.execSecondsIncrement s
  | .controlEvent deck => Sys2Proof.Machine.execControlEvent deck s
  | .postEvent deck => Sys2Proof.Machine.execPostEvent deck s
  | .cardTake => Sys2Proof.Machine.execCardTake s
  | .cardCompletion deck => Sys2Proof.Machine.execCardCompletion deck s
  | .deadlineExpiry deck => Sys2Proof.Machine.execDeadlineExpiry deck s
  | .markCard => Sys2Proof.Machine.execMarkCard s
  | .loadCard => Sys2Proof.Machine.execLoadCard s
  | .readCard => Sys2Proof.Machine.execReadCard s
  | .zeroCard => Sys2Proof.Machine.execZeroCard s
  | .clearSummaryCard => Sys2Proof.Machine.execClearSummaryCard s
  | .channelServiceCard => Sys2Proof.Machine.execChannelServiceCard s
  | .fanRequestCard => Sys2Proof.Machine.execFanRequestCard s
  | .fanServiceCard => Sys2Proof.Machine.execFanServiceCard s
  | .fanResetCard => Sys2Proof.Machine.execFanResetCard s
  | .doorModeCard => Sys2Proof.Machine.execDoorModeCard s
  | .doorServiceCard => Sys2Proof.Machine.execDoorServiceCard s
  | .doorResetCard => Sys2Proof.Machine.execDoorResetCard s
  | .declareCard => Sys2Proof.Machine.execDeclareCard s
  | .acknowledgeCard => Sys2Proof.Machine.execAcknowledgeCard s
  | .clearCard => Sys2Proof.Machine.execClearCard s
  | .contactConfirm input pin => Sys2Proof.Machine.execContactConfirm input pin s
  | .fanRunningContact fan => Sys2Proof.Machine.execFanRunningContact fan s
  | .fanFaultContact fan => Sys2Proof.Machine.execFanFaultContact fan s
  | .fanLocalContact fan => Sys2Proof.Machine.execFanLocalContact fan s
  | .doorClosedContact door => Sys2Proof.Machine.execDoorClosedContact door s
  | .doorBoltedContact door => Sys2Proof.Machine.execDoorBoltedContact door s
  | .doorPushContact door => Sys2Proof.Machine.execDoorPushContact door s
  | .pulseCount input pin => Sys2Proof.Machine.execPulseCount input pin s
  | .gateWindowEnd gate => Sys2Proof.Machine.execGateWindowEnd gate s
  | .windowHandover channel => Sys2Proof.Machine.execWindowHandover channel s
  | .tachHandover fan => Sys2Proof.Machine.execTachHandover fan s
  | .zoneReevaluation zone => Sys2Proof.Machine.execZoneReevaluation zone s
  | .confirmTimerExpiry zone => Sys2Proof.Machine.execConfirmTimerExpiry zone s
  | .creationRequest zone => Sys2Proof.Machine.execCreationRequest zone s
  | .slotFreed zone => Sys2Proof.Machine.execSlotFreed zone s
  | .incidentFreed zone => Sys2Proof.Machine.execIncidentFreed zone s
  | .demandLevelChange zone => Sys2Proof.Machine.execDemandLevelChange zone s
  | .zoneLoadCommit => Sys2Proof.Machine.execZoneLoadCommit s
  | .placementChange => Sys2Proof.Machine.execPlacementChange s
  | .galleryDemandChange => Sys2Proof.Machine.execGalleryDemandChange s
  | .startLimitExpiry fan => Sys2Proof.Machine.execStartLimitExpiry fan s
  | .settleExpiry fan => Sys2Proof.Machine.execSettleExpiry fan s
  | .rundownExpiry fan => Sys2Proof.Machine.execRundownExpiry fan s
  | .availabilityChange fan => Sys2Proof.Machine.execAvailabilityChange fan s
  | .fanItemChange fan => Sys2Proof.Machine.execFanItemChange fan s
  | .governingChange => Sys2Proof.Machine.execGoverningChange s
  | .deficitDelivery => Sys2Proof.Machine.execDeficitDelivery s
  | .incidentDelivery => Sys2Proof.Machine.execIncidentDelivery s
  | .pressureReading => Sys2Proof.Machine.execPressureReading s
  | .boltTimerExpiry door => Sys2Proof.Machine.execBoltTimerExpiry door s
  | .reliefClockExpiry door => Sys2Proof.Machine.execReliefClockExpiry door s
  | .assistTimerExpiry door => Sys2Proof.Machine.execAssistTimerExpiry door s
  | .heldOpenExpiry door => Sys2Proof.Machine.execHeldOpenExpiry door s
  | .notice => Sys2Proof.Machine.execNotice s
  | .refreshTimerExpiry slot => Sys2Proof.Machine.execRefreshTimerExpiry slot s
  | .staleTimerExpiry slot => Sys2Proof.Machine.execStaleTimerExpiry slot s
  | .clearingTimerExpiry slot => Sys2Proof.Machine.execClearingTimerExpiry slot s
  | .clearedEntryExpiry => Sys2Proof.Machine.execClearedEntryExpiry s
  | .noticeEnqueue port origin => Sys2Proof.Machine.execNoticeEnqueue port origin s
  | .frameReceive port bytes => Sys2Proof.Machine.execFrameReceive port bytes s
  | .incompleteFrame port => Sys2Proof.Machine.execIncompleteFrame port s
  | .hold port time => Sys2Proof.Machine.execHold port time s
  | .helloTaken port => Sys2Proof.Machine.execHelloTaken port s
  | .incidentFrameTaken port => Sys2Proof.Machine.execIncidentFrameTaken port s
  | .helloTimerExpiry port => Sys2Proof.Machine.execHelloTimerExpiry port s
  | .agingTimerExpiry port => Sys2Proof.Machine.execAgingTimerExpiry port s
  | .holdTimerExpiry port => Sys2Proof.Machine.execHoldTimerExpiry port s
  | .holdRepeatExpiry port => Sys2Proof.Machine.execHoldRepeatExpiry port s
  | .frameBegin port => Sys2Proof.Machine.execFrameBegin port s
  | .frameEnd port => Sys2Proof.Machine.execFrameEnd port s
  | .speedReferencePeriodStart => Sys2Proof.Machine.execSpeedReferencePeriodStart s
  | .lineIdleAfterReject port => Sys2Proof.Machine.execLineIdleAfterReject port s

end Sys2Proof.Machine
end

