-- ==== Sys2Proof/Machine/Step.lean ====
section
/-! DEFINITION. One step of the part: the command at the front of the queue; with the queue empty, the part's own next event,
else the samples of the tick that are still to come, else a tick (log entries 1, 3, 4). -/

namespace Sys2Proof.Machine

/-- One step. -/
def step (s : State) : Host.Outcome State Fault Refusal :=
  match s.pending with
  | c :: rest => exec c { s with pending := rest }
  | [] =>
    match s.readyEvent with
    | some c => exec c s
    | none => .next (if s.samplesWait then s.takeSamples else s.tick)

/-- The state with the command that a table word spells put at the front of its queue; the table gives no row bits, so no
word spells one and the state stays as it is. -/
def State.withFetchWord (s : State) (nbits w : Nat) : State :=
  match decodeTableWord nbits w with
  | none => s
  | some c => { s with pending := c :: s.pending }

end Sys2Proof.Machine
end

