-- ==== Sys2Proof/Safety.lean ====
section
/-! DEFINITION. The words that the statements about the part are written with: what it means that a command acts, that a card is
answered, that a completion is written, the frames, and the invariants that every step keeps. -/

namespace Sys2Proof.Machine

/-! ## Commands that act -/

/-- The command takes a next state: what it makes of `s`, with the updates of R6 and R7 published, satisfies `post`. -/
def Acts (c : Instr) (s : State) (post : State → Prop) : Prop := ∃ a, exec c s = .next (publish s a) ∧ post a

/-- A card of a kind has been dispatched (R28): the executor holds it and its owning block has not answered. -/
def State.dispatched (s : State) (t : Take) (k : CardKind) : Prop :=
  s.running = true ∧ s.executor = some t ∧ t.answer = none ∧ t.card.kind = some k

/-- The card is answered and nothing else in the part changes. -/
def AnswersAlone (c : Instr) (s : State) (t : Take) (a : Answer) : Prop :=
  exec c s = .next { s with executor := some { t with answer := some a } }

/-- The card is refused with a reason and zero results, and the refusal has no other effect (R32). -/
def Refuses (c : Instr) (s : State) (t : Take) (r : CardReason) : Prop :=
  AnswersAlone c s t { outcome := .refused, reason := r, results := .words 0 0 0 0, condition := none }

/-- The executor holds the answer DONE with these r0 and r1, and zeros in r2 and r3. -/
def DoneWith (a : State) (t : Take) (r0 r1 : Word) : Prop :=
  a.executor = some { t with answer := some { outcome := .done, reason := .none, results := .words r0 r1 0 0, condition := none } }

/-! ## The status image (section 1.3) -/

/-- The change mask word of a record. -/
def RecordId.maskWord (r : RecordId) : Fin 8 :=
  match r with
  | .channel _ => 0
  | .fan _ => 1
  | .door _ => 2
  | .zone _ => 3
  | .incident _ => 4
  | .link _ => 5
  | _ => 6

/-- The bit of a record in its change mask word. -/
def RecordId.maskBit (r : RecordId) : Nat :=
  match r with
  | .channel i => i.val
  | .fan i => i.val
  | .door i => i.val
  | .zone i => i.val
  | .incident i => i.val
  | .link .up => 0
  | .link .down => 1
  | .span => 0
  | .gallery => 1
  | .placement => 2

/-- A record's bit stands in the change masks. -/
def State.marked (s : State) (r : RecordId) : Bool := s.cm.masks[r.maskWord].getLsbD r.maskBit

/-! ## Decks -/

/-- The four checks of R22 on the header of a deck. -/
def State.layoutValid (s : State) (d : Fin 4) : Prop :=
  let b := s.decks[d].baseWord.toNat
  let l := s.decks[d].lengthWord.toNat
  2 ≤ l ∧ l ≤ 256 ∧ 0x1000 ≤ b ∧ b ≤ 0x7FFF ∧ b % 32 = 0 ∧ b + 32 * l ≤ 0x8000 ∧
  ∀ k, k ≠ d → s.decks[k].state ≠ .off → ¬(s.decks[k].state = .stopped ∧ s.decks[k].error = .header) →
    b + 32 * l ≤ s.decks[k].base ∨ s.decks[k].base + 32 * s.decks[k].length ≤ b

/-- Every attachment of a deck's card is removed; the operations themselves stay as they are (R23, R30). -/
def Detached (s a : State) (d : Fin 4) : Prop :=
  (∀ c : Fin 12, a.channels[c] = { s.channels[c] with zero := a.channels[c].zero } ∧
    a.channels[c].zero.isSome = s.channels[c].zero.isSome ∧ a.channels[c].zeroCard ≠ some d ∧
    (s.channels[c].zeroCard ≠ some d → a.channels[c] = s.channels[c])) ∧
  (∀ f : Fin 8, a.fans.fans[f] = { s.fans.fans[f] with attached := s.fans.fans[f].attached.filter fun k => decide (k ≠ d) }) ∧
  a.fans = { s.fans with fans := a.fans.fans } ∧
  a.mail = { s.mail with completions := s.mail.completions.set d none }

/-- The card write of a completion of deck d, at slot f (R30, R31, R37): the completion fields and no other byte of memory; the
card is in flight no more and its attachment is removed, while done and the deck's state have not moved yet. -/
def WritesCard (s a : State) (d : Fin 4) (f : InFlight) (ans : Answer) (immediate : Bool) : Prop :=
  let card := s.decks[d].base + 32 * f.slot
  let m := a.cm.bytes
  m.readWord (card + 14) = packed ans.outcome.code ans.reason.code ∧
  m.readWord (card + 16) = ans.condition.getD (s.cm.bytes.readWord (card + 16)) ∧
  (∀ k : Fin 4, m.readWord (card + 18 + 2 * k.val) = (s.resultWords ans.results)[k.val]?.getD 0) ∧
  m.readWord (card + 26) = s.cm.bytes.readWord (card + 26) ∧
  m.readWord (card + 28) = dwordLow s.regs.seconds ∧ m.readWord (card + 30) = dwordHigh s.regs.seconds ∧
  (∀ x, x < card + 14 ∨ card + 32 ≤ x → m.read x = s.cm.bytes.read x) ∧
  a.decks[d] = { s.decks[d] with
    inFlight := none, finishing := some { slot := f.slot, notify := f.card.notify, immediate := immediate } } ∧
  (∀ k, k ≠ d → a.decks[k] = s.decks[k]) ∧
  Detached s a d ∧
  a = { s with cm := { s.cm with bytes := m }, decks := a.decks, channels := a.channels, fans := a.fans, mail := a.mail }

/-- The header write of a completion of deck d (R28, R30, R36): done moves past the card, the taken-card offset is zero, the deck
goes on, NOTIFY is set if the card asks for it, and the executor of an immediate answer is free. -/
def WritesHeader (s a : State) (d : Fin 4) (f : Finishing) : Prop :=
  a.decks[d] = { s.decks[d] with
    done := (f.slot + 1) % s.decks[d].length, taken := 0, finishing := none
    state := if s.decks[d].state = .suspendPending then .suspended else .waiting } ∧
  (∀ k, k ≠ d → a.decks[k] = s.decks[k]) ∧
  a = { s with decks := a.decks, regs := if f.notify then s.regs.raise .notify else s.regs
               executor := if f.immediate then none else s.executor }

/-- An answer waits for a deck at the executor (R28). -/
def State.immediateFor (s : State) (d : Fin 4) (ans : Answer) : Prop :=
  ∃ t, s.executor = some t ∧ t.deck = d ∧ t.answer = some ans

/-- An answer of an owning block waits for a deck, and none waits for it at the executor (R30). -/
def State.sentFor (s : State) (d : Fin 4) (ans : Answer) : Prop :=
  (∀ t, s.executor = some t → t.deck = d → t.answer = none) ∧ s.mail.completions[d] = some ans

/-- What an event at deck d may change, from the state `p` in which the event has been taken: that deck, DECK on entry to
STOPPED (R26), and the attachments of a card that it abandons (R23); no card is written. -/
def DeckEventFrame (p a : State) (d : Fin 4) : Prop :=
  (∀ k : Fin 4, k ≠ d → a.decks[k] = p.decks[k]) ∧
  a.regs = (if a.decks[d].state = .stopped ∧ p.decks[d].state ≠ .stopped then p.regs.raise .deck else p.regs) ∧
  (p.decks[d].inFlight.isSome = true → a.decks[d].inFlight = none → Detached p a d) ∧
  (p.decks[d].inFlight = none ∨ a.decks[d].inFlight.isSome = true → a = { p with decks := a.decks, regs := a.regs }) ∧
  a = { p with decks := a.decks, regs := a.regs, channels := a.channels, fans := a.fans, mail := a.mail }

/-- The place of a deck in turn, counting round DP1, DP2, DP3 from the one after `last` (R27). -/
def turnAfter (last k : Fin 4) : Nat := (k.val + 5 - last.val) % 3

/-- The deck that the arbiter is to grant: DP0 if it is ready; else, with FAIR clear, the lowest-numbered ready deck, and
with FAIR set the first ready deck in turn after the last one granted (R27). -/
def State.inTurn (s : State) (d : Fin 4) : Prop :=
  s.decks[d].state = .waiting ∧ 0 < s.decks[d].outstanding ∧
  (d ≠ 0 → s.decks[(0 : Fin 4)].ready = false ∧
    ∀ k : Fin 4, k ≠ 0 → s.decks[k].ready = true →
      if s.active.span.fair then turnAfter s.lastGranted d ≤ turnAfter s.lastGranted k else d ≤ k)

/-! ## Samples -/

/-- The contact takes one sample of its pin (R43, R44), and a confirmed change is delivered behind the earlier ones (R46). -/
def Contact.TakesSample (c n : Contact) (now : Nat) (before after : List Bool) : Prop :=
  let raw := c.pin != c.activeLow
  let confirmed := n = { c with level := raw, candidate := none, due := false } ∧ after = before ++ [raw]
  (raw = c.level → n = { c with candidate := none, due := false } ∧ after = before) ∧
  (raw ≠ c.level → c.candidate = none → c.debounceMs = 0 → confirmed) ∧
  (raw ≠ c.level → c.candidate = none → c.debounceMs ≠ 0 → n = { c with candidate := some now, due := false } ∧ after = before) ∧
  (∀ first, raw ≠ c.level → c.candidate = some first → first + c.debounceMs ≤ now → confirmed) ∧
  (∀ first, raw ≠ c.level → c.candidate = some first → now < first + c.debounceMs →
    n = { c with due := false } ∧ after = before)

/-- A pulse input takes `count` samples of its standing pin (R48). A change of the filter setting to or from OFF takes effect at
the first: OFF holds no level, and from OFF that sample is the filtered level. Else the filtered level takes a level that two
consecutive samples show, the last sample before these included, and its rise is one pulse, which adds one to the count of a
bound or pending counter up to 65535 and nothing to that of a counter bound to no gate (R49). -/
def Pulse.TakesSamples (p q : Pulse) (count : Nat) : Prop :=
  let after := { p with lastSample := p.pin, left := p.left - count }
  let pulses := if p.pin = false ∨ p.binding = .none then p.count else min (p.count + 1) (max p.count 65535)
  (count = 0 → q = p) ∧
  (0 < count → p.next = some .off → q = { after with filter := .off, next := none, level := none }) ∧
  (∀ k, 0 < count → p.filter = .off → p.next = some k → k ≠ .off →
    q = { after with filter := k, next := none, level := some p.pin }) ∧
  (0 < count → p.filter ≠ .off → p.next = none →
    (p.level = none → q = { after with level := some p.pin }) ∧
    (∀ l, p.level = some l → p.pin ≠ l → p.pin = p.lastSample ∨ 2 ≤ count →
      q = { after with level := some p.pin, count := pulses }) ∧
    (∀ l, p.level = some l → p.pin = l ∨ (p.pin ≠ p.lastSample ∧ count = 1) → q = after))

/-- The samples of a pulse input come at the rate of this filter: the one in force, or with OFF in force the one to follow. -/
def Pulse.SampledAs (p : Pulse) (k : FilterKind) : Prop := p.filter = k ∨ (p.filter = .off ∧ p.next = some k)

/-- A sample of this tick is still to come at a pulse input: FAST takes eight in a tick, SLOW one, OFF none (R48). -/
def Pulse.SampleDue (p : Pulse) : Prop := (p.SampledAs .fast ∧ 0 < p.left) ∨ (p.SampledAs .slow ∧ p.left = 8)

/-- A pulse input takes the samples of this tick that are still to come, and none is then to come (R48). -/
def Pulse.TakesDue (p q : Pulse) : Prop :=
  (p.SampledAs .fast → p.TakesSamples q p.left) ∧
  (p.SampledAs .slow → p.left = 8 → ({ p with left := 1 } : Pulse).TakesSamples q 1) ∧
  (¬p.SampleDue → q = { p with left := 0 })

/-- A LOAD gives the input of a counter a filter setting (R48): to and from OFF it takes effect at the next sample, from OFF not at
the one of the tick that stands; between FAST and SLOW it is the rate of the next sample; the setting in force, named again,
stays. -/
def Pulse.TakesFilter (o n : Pulse) (k : FilterKind) : Prop :=
  (o.filter = k → n = { o with next := none }) ∧
  (o.filter = .off → k ≠ .off → n = { o with next := some k, left := min o.left 7 }) ∧
  (o.filter ≠ .off → k = .off → n = { o with next := some .off }) ∧
  (o.filter ≠ .off → k ≠ .off → k ≠ o.filter → n = { o with filter := k, next := none })

/-! ## Channels and zones -/

/-- The average of a history of one value or more (R63). -/
def averageOf (h : List Int) : Int := h.sum.tdiv h.length

/-- The table of R64 for the kinds with a band: the band after, from the band before and the compared value. -/
def BandTable (item : ChannelItem) (x : Int) (before after : Band) : Prop :=
  (before = .normal → item.alarmOn ≤ x → after = .alarm) ∧
  (before = .normal → x < item.alarmOn → item.warnOn ≤ x → after = .warn) ∧
  (before = .normal → x < item.alarmOn → x < item.warnOn → after = .normal) ∧
  (before = .warn → item.alarmOn ≤ x → after = .alarm) ∧
  (before = .warn → x < item.alarmOn → item.warnOff ≤ x → after = .warn) ∧
  (before = .warn → x < item.alarmOn → x < item.warnOff → after = .normal) ∧
  (before = .alarm → item.alarmOff ≤ x → after = .alarm) ∧
  (before = .alarm → x < item.alarmOff → item.warnOff ≤ x → after = .warn) ∧
  (before = .alarm → x < item.alarmOff → x < item.warnOff → after = .normal)

/-- A hand-over of the channel takes the pending zero: its count lies from floor to ceiling and is not saturated (R71). -/
def TakesZero (item : ChannelItem) (c : Channel) (w : Window) : Prop :=
  c.zero.isSome = true ∧ item.floor ≤ w.count ∧ w.count ≤ item.ceiling ∧ w.saturated = false

/-- A channel is counted for a zone (R76): its item names the zone, its service is IN, its status OK or OVER. -/
def State.isCounted (s : State) (c : Fin 12) (z : Fin 8) : Prop :=
  s.active.channels[c].zone = some z ∧ s.channels[c].out = false ∧
    (s.channels[c].status = .ok ∨ s.channels[c].status = .over)

/-- A channel enters the worst band of a zone (R76). -/
def State.entersWorst (s : State) (c : Fin 12) (z : Fin 8) : Prop :=
  s.isCounted c z ∧ s.active.channels[c].kind ≠ .velocity ∧ s.active.channels[c].kind ≠ .pressure

/-- A channel triggers for a zone (R77). -/
def State.isTriggering (s : State) (c : Fin 12) (z : Fin 8) : Prop :=
  s.isCounted c z ∧ s.active.channels[c].trigger = true ∧ s.channels[c].band = .alarm

/-- The request that a zone sends when it asks for creation (R80): the tunnel niche of its centre, its template and mirror,
and its triggering channels in number order, cut to four. -/
def State.IsRequest (s : State) (z : Fin 8) (q : CreationRequest) : Prop :=
  q.position = s.active.span.firstNiche + s.active.zones[z].centre ∧ q.template = s.active.zones[z].template ∧
  q.mirror = s.active.zones[z].mirror ∧ q.evidence.length ≤ 4 ∧ q.evidence.Pairwise (· < ·) ∧
  (∀ c ∈ q.evidence, s.isTriggering c z) ∧
  (∀ c, s.isTriggering c z → c ∈ q.evidence ∨ (q.evidence.length = 4 ∧ ∀ e ∈ q.evidence, e < c))

/-- The zone has asked for creation: its request stands at the incident unit (R80). -/
def Asks (s a : State) (z : Fin 8) : Prop :=
  ∃ q, s.IsRequest z q ∧ a.mail.requests = s.mail.requests.set z (some q)

/-! ## Fans -/

/-- The highest claimant that has a claim on a fan owns it (R87). -/
def OwnedByHighest (cfg : ActiveConfig) (u : FanUnit) (f : Fin 8) : Prop :=
  let e := u.fans[f]
  let incident := cfg.fans[f].role = .jet ∧ e.incident.isSome = true
  let gallery := cfg.fans[f].role = .gallery ∧ u.galleryDemand ≠ .idle
  (e.out = true → e.owner = .service) ∧
  (e.out = false → e.localSwitch = true → e.owner = .localPanel) ∧
  (e.out = false → e.localSwitch = false → incident → e.owner = .incident) ∧
  (e.out = false → e.localSwitch = false → gallery → e.owner = .gallery) ∧
  (e.out = false → e.localSwitch = false → ¬incident → ¬gallery → e.owner = .host)

/-- The live target of a fan is its owner's request, a requested speed of 0 read as STOP (R87, R89, R90, R91). (The gallery speed
while a delivery of IDLE waits: log 64.) -/
def FollowsOwner (cfg : ActiveConfig) (u : FanUnit) (f : Fin 8) : Prop :=
  let e := u.fans[f]
  let item := cfg.fans[f]
  let run (dir : Direction) (speed : Nat) : Target := if speed = 0 then .stop else .run dir speed
  (e.owner = .service ∨ e.owner = .localPanel → e.target = .stop) ∧
  (e.owner = .incident → (∀ dir speed, e.incident = some (.run dir speed) → e.target = run dir speed) ∧
    (e.incident = some .stop → e.target = .stop) ∧
    (∀ old, e.incident = some .keep → e.entryTarget = some old → e.target = old)) ∧
  (e.owner = .gallery →
    (u.galleryDemand = .pressurise → e.target = run .fwd cfg.gallery.pressuriseSpeed) ∧
    (u.galleryDemand = .relief → e.target = run .fwd cfg.gallery.reliefSpeed) ∧
    (u.galleryDemand = .outflow → e.target = run .fwd cfg.gallery.outflowSpeed)) ∧
  (e.owner = .host →
    (∀ dir speed, e.request = .manual dir speed → e.target = run dir speed) ∧
    (e.request = .auto → e.demand = 0 → e.target = .stop) ∧
    (e.request = .auto → e.demand = 1 → e.target = run item.normalDirection item.speedL1) ∧
    (e.request = .auto → e.demand = 2 → e.target = run item.normalDirection item.speedL2))

/-- A zone covers the niche of a fan (R89). -/
def Covers (cfg : ActiveConfig) (z f : Fin 8) : Prop :=
  cfg.zones[z].first ≤ cfg.fans[f].niche ∧ cfg.fans[f].niche ≤ cfg.zones[z].last

/-- The demand level of a fan is the highest among the zones that cover its niche, and 0 where none does (R89). -/
def DemandIsHighest (cfg : ActiveConfig) (u : FanUnit) (f : Fin 8) : Prop :=
  (∀ z, Covers cfg z f → u.zoneDemand[z] ≤ u.fans[f].demand) ∧
  (u.fans[f].demand = 0 ∨ ∃ z, Covers cfg z f ∧ u.fans[f].demand = u.zoneDemand[z])

/-- The requested state of a fan is reached: RUNNING in the target's direction, or STOPPED for STOP (R105). -/
def Fan.atTarget (e : Fan) : Prop :=
  (e.target = .stop ∧ e.state = .stopped) ∨
  (∃ dir speed, e.target = .run dir speed ∧ e.state = .running ∧ (dir = .rev ↔ e.reverse = true))

/-- The state makes a fan unavailable to placement (R101). -/
def FanState.isUnavailable (s : FanState) : Prop := s = .faulted ∨ s = .localPanel ∨ s = .service

/-- An event supersedes the cards attached before it (R106). -/
def Supersedes (before after : Fan) : Prop :=
  before.target ≠ after.target ∨ (before.owner = .host ∧ after.owner ≠ .host) ∨ after.state.isUnavailable

/-- The start queue keeps its classes: INCIDENT and GALLERY fans stand ahead of the others (R102). -/
def ClassesInOrder (u : FanUnit) : Prop :=
  u.queue.Pairwise fun f g => (u.fans[g].owner = .incident ∨ u.fans[g].owner = .gallery) →
    u.fans[f].owner = .incident ∨ u.fans[f].owner = .gallery

/-- Two fans stand in the same class of the start queue (R102). -/
def SameClass (e k : Fan) : Prop :=
  (e.owner = .incident ∨ e.owner = .gallery) ↔ (k.owner = .incident ∨ k.owner = .gallery)

/-- The entry is `e`, the attached cards apart, which R106 governs. -/
def Fan.Is (n e : Fan) : Prop := n = { e with attached := n.attached }

/-- A fan entry that enters a state in part state `p` (R92): the rundown clock restarts when RUN goes off, the start limit and
the settle timer run in their states alone, UNDERSPEED clears, and the fault cause is the one given. -/
def Fan.entering (e : Fan) (p : State) (item : FanItem) (st : FanState) (cause : FanFault) : Fan :=
  { e with
    state := st, cause := cause, entered := p.regs.seconds, supervised := false, underspeed := false
    rundownFrom := if (e.state = .starting ∨ e.state = .running) ∧ st ≠ .starting ∧ st ≠ .running then p.now else e.rundownFrom
    startLimitDue := if st = .starting then some (p.now + 1000 * item.startLimit) else none
    settleDue := if st = .running then some (p.now + 1000 * item.settleTime) else none }

/-- What a grant makes of a queued fan (R95, R98, R103): STARTING, from where it is RUNNING at once with the RUNNING contact
active, and FAULTED with the FAULT contact active. -/
def Fan.granted (e : Fan) (p : State) (item : FanItem) : Fan :=
  let started := e.entering p item .starting .none
  if e.fault then started.entering p item .faulted .driveFault
  else if e.running then started.entering p item .running .none
  else started

/-- The fan stands in the start queue with entry `e`, or has been granted a slot from it in the same event (R103). -/
def Waits (p a : State) (f : Fin 8) (e : Fan) : Prop :=
  (f ∈ a.fans.queue ∧ a.fans.fans[f].Is e) ∨ (f ∉ a.fans.queue ∧ a.fans.fans[f].Is (e.granted p p.active.fans[f]))

/-- The fan stands outside the start queue with entry `e`. -/
def Rests (a : State) (f : Fin 8) (e : Fan) : Prop := f ∉ a.fans.queue ∧ a.fans.fans[f].Is e

/-- What becomes of a STOPPED fan with entry `w` that pursues its live target (R93): it stays for STOP; for a running target it
goes to FAULTED with the FAULT contact active, and else sets REVERSE to the target's direction and queues. -/
def LeavesRest (p a : State) (f : Fin 8) (w : Fan) : Prop :=
  let item := p.active.fans[f]
  (w.target = .stop → Rests a f w) ∧
  (∀ dir speed, w.target = .run dir speed → w.fault = true → Rests a f (w.entering p item .faulted .driveFault)) ∧
  (∀ dir speed, w.target = .run dir speed → w.fault = false →
    Waits p a f (({ w with reverse := decide (dir = .rev) } : Fan).entering p item .queued .none))

/-- The rundown of a fan is over: its RUNNING contact is inactive and its rundown time has passed on the clock (R97). -/
def Fan.atRest (e : Fan) (item : FanItem) (now : Nat) : Prop :=
  e.running = false ∧ e.rundownFrom + 1000 * item.rundownTime ≤ now

/-- The fan's live target runs in the direction that REVERSE shows. -/
def Fan.drivesTarget (e : Fan) : Prop := ∃ dir speed, e.target = .run dir speed ∧ (dir = .rev ↔ e.reverse = true)

/-- What becomes of a fan with entry `w` that enters STOPPING (R97, R98): FAULTED with the FAULT contact active; STOPPED, pursuing
its live target, with its rundown over; and else STOPPING. -/
def EntersStopping (p a : State) (f : Fin 8) (w : Fan) : Prop :=
  let item := p.active.fans[f]
  let e := w.entering p item .stopping .none
  (w.fault = true → Rests a f (e.entering p item .faulted .driveFault)) ∧
  (w.fault = false → e.atRest item p.now → LeavesRest p a f (e.entering p item .stopped .none)) ∧
  (w.fault = false → ¬e.atRest item p.now → Rests a f e)

/-- What a new live target does in each state of a fan (R93 to R98); `w` is the fan's entry in `p` with the claims of the event,
among them its new owner and live target. A target that stays does nothing. -/
def PursuesTarget (p a : State) (f : Fin 8) (w : Fan) : Prop :=
  let item := p.active.fans[f]
  let queued := f ∈ p.fans.queue
  let changed := w.target ≠ p.fans.fans[f].target
  (¬changed → queued → Waits p a f w) ∧ (¬changed → ¬queued → Rests a f w) ∧
  (changed → w.state = .stopped → ¬queued → LeavesRest p a f w) ∧
  (changed → w.state = .queued → queued → w.drivesTarget → Waits p a f w) ∧
  (changed → w.state = .queued → ¬w.drivesTarget → LeavesRest p a f (w.entering p item .stopped .none)) ∧
  (changed → w.state = .starting → ¬queued → w.drivesTarget → Rests a f w) ∧
  (changed → w.state = .running → ¬queued → w.drivesTarget → Rests a f { w with
    settleDue := some (p.now + 1000 * item.settleTime), supervised := false, underspeed := false }) ∧
  (changed → w.state = .starting ∨ w.state = .running → ¬w.drivesTarget → EntersStopping p a f w) ∧
  (changed → w.state = .stopping → w.drivesTarget → item.flyingRestart = true → Waits p a f w) ∧
  (changed → w.state = .stopping → w.drivesTarget → item.flyingRestart = false → ¬queued → Rests a f w) ∧
  (changed → w.state = .stopping → ¬w.drivesTarget → Rests a f w) ∧
  (changed → w.state.isUnavailable → ¬queued → Rests a f w)

/-- The fan stands in the start queue before an event and keeps its place through it: its class stays, and, if the event is for
it, it waits in QUEUED or STOPPING and its target does not turn, which REVERSE would follow (R94, R97, R102). -/
def KeepsPlace (u v : FanUnit) (acted : Fin 8 → Prop) (k : Fin 8) : Prop :=
  k ∈ u.queue ∧ SameClass u.fans[k] v.fans[k] ∧
  (acted k → (u.fans[k].state = .queued ∨ u.fans[k].state = .stopping) ∧ u.fans[k].out = false ∧
    v.fans[k].reverse = u.fans[k].reverse)

/-- The fan joins its class of the start queue in an event: it was not queued, it changes class, or its target turns while it
is QUEUED (R93, R94, R102). -/
def JoinsBack (u v : FanUnit) (k : Fin 8) : Prop :=
  k ∉ u.queue ∨ ¬SameClass u.fans[k] v.fans[k] ∨
    (u.fans[k].state = .queued ∧ v.fans[k].reverse ≠ u.fans[k].reverse)

/-- The start queue from `u` to `v` over an event (R94, R97, R102): the fans that keep their places and stay queued keep their
order, and a fan that joins stands behind those of its class that do. -/
def QueueInOrder (u v : FanUnit) (acted : Fin 8 → Prop) : Prop :=
  ∀ j k : Fin 8, j ≠ k → KeepsPlace u v acted j → j ∈ v.queue →
    (KeepsPlace u v acted k → (acted k → k ∈ v.queue) → [j, k].Sublist u.queue → [j, k].Sublist v.queue) ∧
    (acted k → k ∈ v.queue → SameClass v.fans[j] v.fans[k] → JoinsBack u v k → [j, k].Sublist v.queue)

/-- What one event at the fan controller leaves besides what it does to the fans it is for (`acted`), from the state `p` in
which the event has been taken: another fan stays as it is, apart from a grant that takes it out of the start queue (R103);
no slot stays free while fans are queued (R103); the queue keeps its order, and a fan that joins it, turns in it or changes its
class stands behind those of its class (R94, R97, R102); the copies of the demands stay (R89, R91); changes of availability are
delivered (R101); a card attached to one fan before the event completes OVERTAKEN if the event supersedes it, else DONE if the
fan is at its target (R106). -/
def FanEventFrame (p a : State) (acted : Fin 8 → Prop) : Prop :=
  (∀ k : Fin 8, ¬acted k → k ∉ p.fans.queue → Rests a k p.fans.fans[k]) ∧
  (∀ k : Fin 8, ¬acted k → k ∈ p.fans.queue → Waits p a k p.fans.fans[k]) ∧
  (a.fans.queue = [] ∨ p.active.span.startSlots ≤ a.fans.starting) ∧
  (p.fans.queue.Nodup → ClassesInOrder p.fans → QueueInOrder p.fans a.fans acted) ∧
  a.fans.zoneDemand = p.fans.zoneDemand ∧ a.fans.galleryDemand = p.fans.galleryDemand ∧
  (∀ k : Fin 8,
    ((p.fans.fans[k].state.isUnavailable ↔ a.fans.fans[k].state.isUnavailable) →
      a.mail.availability[k] = p.mail.availability[k]) ∧
    (p.fans.fans[k].state.isUnavailable → ¬a.fans.fans[k].state.isUnavailable →
      a.mail.availability[k] = p.mail.availability[k] ++ [true]) ∧
    (¬p.fans.fans[k].state.isUnavailable → a.fans.fans[k].state.isUnavailable →
      a.mail.availability[k] = p.mail.availability[k] ++ [false])) ∧
  (∀ (k : Fin 8) (d : Fin 4), d ∈ p.fans.fans[k].attached → (∀ j : Fin 8, d ∈ p.fans.fans[j].attached → j = k) →
    let answer (o : CardOutcome) : Answer := { outcome := o, reason := .none, results := .fanStatus k, condition := none }
    (Supersedes p.fans.fans[k] a.fans.fans[k] →
      a.fans.fans[k].attached = [] ∧ a.mail.completions[d] = some (answer .overtaken)) ∧
    (¬Supersedes p.fans.fans[k] a.fans.fans[k] → a.fans.fans[k].atTarget →
      a.fans.fans[k].attached = [] ∧ a.mail.completions[d] = some (answer .done)) ∧
    (¬Supersedes p.fans.fans[k] a.fans.fans[k] → ¬a.fans.fans[k].atTarget →
      a.fans.fans[k].attached = p.fans.fans[k].attached ∧ a.mail.completions[d] = p.mail.completions[d])) ∧
  (∀ d : Fin 4, (∀ k : Fin 8, d ∉ p.fans.fans[k].attached) → a.mail.completions[d] = p.mail.completions[d]) ∧
  a = { p with fans := a.fans, mail := { p.mail with
    completions := a.mail.completions, availability := a.mail.availability } }

/-! ## Doors and the gallery -/

/-- A position lies within a reach of a niche (R111, R123). -/
def Within (position niche reach : Nat) : Prop := position ≤ niche + reach ∧ niche ≤ position + reach

/-- A door is secure wanted: host mode SECURE, and no entry of the reach list within door reach of its tunnel niche (R111). -/
def SecureWanted (cfg : ActiveConfig) (reach : List ReachEntry) (d : Fin 4) (e : Door) : Prop :=
  e.secureMode = true ∧
    ∀ r ∈ reach, ¬Within r.position (cfg.span.firstNiche + cfg.doors[d].niche) cfg.span.doorReach

/-- An entry of the reach list lies within gallery reach (R123). -/
def GalleryIncident (cfg : ActiveConfig) (u : DoorUnit) : Prop :=
  ∃ r ∈ u.reach, Within r.position (cfg.span.firstNiche + cfg.span.galleryNiche) cfg.span.galleryReach

/-- The gallery demand is the first row of R123 that applies. -/
def DemandFollowsDoors (cfg : ActiveConfig) (u : DoorUnit) : Prop :=
  let opening := ∃ d : Fin 4, u.doors[d].state = .opening
  let opened := ∃ d : Fin 4, u.doors[d].state = .openLeaf ∨ u.doors[d].state = .heldOpen
  (opening → u.demand = .relief) ∧
  (¬opening → GalleryIncident cfg u → opened → u.demand = .outflow) ∧
  (¬opening → GalleryIncident cfg u → ¬opened → u.demand = .pressurise) ∧
  (¬opening → ¬GalleryIncident cfg u → u.demand = .idle)

/-- What one event at the door controller leaves besides what it does to the doors it is for, from the state `p` in which the
event has been taken: the other doors stay, the gallery demand follows the doors, and a change of it is delivered (R123). -/
def DoorEventFrame (p a : State) (acted : Fin 4 → Prop) : Prop :=
  (∀ k : Fin 4, ¬acted k → a.doors.doors[k] = p.doors.doors[k]) ∧
  DemandFollowsDoors p.active a.doors ∧
  (a.doors.demand = p.doors.demand →
    a.doors.demandEntered = p.doors.demandEntered ∧ a.mail.galleryDemands = p.mail.galleryDemands) ∧
  (a.doors.demand ≠ p.doors.demand → a.doors.demandEntered = p.regs.seconds ∧
    a.mail.galleryDemands = p.mail.galleryDemands ++ [a.doors.demand]) ∧
  a = { p with doors := a.doors, mail := { p.mail with galleryDemands := a.mail.galleryDemands } }

/-- The door enters a state: it shows that state and its moment of entry, ASSIST and the timers are as given, the fault cause is
that of FAULT, and contacts, mode and flags stay (R110, R112 to R120). -/
def Door.Enters (o n : Door) (sec : DWord) (st : DoorState) (bolt heldOpen : Option Nat) : Prop :=
  n = { o with state := st, entered := sec, boltFault := decide (st = .fault), assist := false, boltDue := bolt
               heldOpenDue := heldOpen, reliefDue := none, assistDue := none
               forcedFlag := o.forcedFlag || decide (st = .forced)
               heldOpenFlag := o.heldOpenFlag || decide (st = .heldOpen) }

/-- The door enters BOLTING with its bolt timer, or SECURED at once where BOLTED is active (R114, R115). -/
def Door.Bolts (o n : Door) (now : Nat) (sec : DWord) (item : DoorItem) : Prop :=
  (o.bolted = true → o.Enters n sec .secured none none) ∧
  (o.bolted = false → o.Enters n sec .bolting (some (now + 1000 * item.boltTime)) none)

/-- The door enters OPEN, with the held-open timer unless its time is 0 (R119). -/
def Door.Opens (o n : Door) (now : Nat) (sec : DWord) (item : DoorItem) : Prop :=
  o.Enters n sec .openLeaf none (if item.heldOpenTime = 0 then none else some (now + 1000 * item.heldOpenTime))

/-- The door takes up its contacts from RELEASED (R112): OPEN with CLOSED inactive, else bolting if secure wanted, else
RELEASED. -/
def Door.TakesUp (o n : Door) (now : Nat) (sec : DWord) (item : DoorItem) : Prop :=
  (o.closed = false → o.Opens n now sec item) ∧
  (o.closed = true → o.secureWanted = true → o.Bolts n now sec item) ∧
  (o.closed = true → o.secureWanted = false → o.Enters n sec .released none none)

/-- The reading of the gallery pressure is usable and at or below the open limit (R117). -/
def PressurePasses (cfg : ActiveConfig) (r : Reading) : Prop :=
  cfg.gallery.pressureChannel ≠ none ∧ (r.status = .ok ∨ r.status = .over) ∧
    ∃ a, r.average = some a ∧ a ≤ cfg.gallery.openLimit

/-- ASSIST comes on by a path and the assist timer starts (R117). -/
def Door.Assists (o n : Door) (now : Nat) (item : DoorItem) (path : AssistPath) : Prop :=
  n = { o with assist := true, path := path, assistDue := some (now + 1000 * item.assistTime), reliefDue := n.reliefDue }

/-- A change of secure wanted is taken by the door's state (R113 to R116). -/
def Door.TakesSecure (o n : Door) (now : Nat) (sec : DWord) (item : DoorItem) (wanted : Bool) : Prop :=
  let w := { o with secureWanted := wanted }
  (wanted = o.secureWanted → n = o) ∧
  (wanted = true → o.secureWanted = false → o.state = .released → o.closed = true → w.Bolts n now sec item) ∧
  (wanted = true → o.secureWanted = false → o.state ≠ .released ∨ o.closed = false → n = w) ∧
  (wanted = false → o.secureWanted = true → o.state = .bolting ∨ o.state = .secured → w.Enters n sec .released none none) ∧
  (wanted = false → o.secureWanted = true → o.state = .forced → w.Opens n now sec item) ∧
  (wanted = false → o.secureWanted = true → o.state ≠ .bolting → o.state ≠ .secured → o.state ≠ .forced → n = w)

/-! ## Incidents -/

/-- The governing order (R139): earlier start as signed values, then lower span id, then lower sequence. -/
def Incident.Earlier (a b : Incident) : Prop :=
  a.start.toInt < b.start.toInt ∨ (a.start = b.start ∧ (a.ident.span.toNat < b.ident.span.toNat ∨
    (a.ident.span = b.ident.span ∧ a.ident.seq.toNat < b.ident.seq.toNat)))

/-- At most one record governs; it is not CLEARING and no other such record is earlier; one governs where one may; and a record
that does not govern has deficit 0 (R139, R140). -/
def GoverningIsEarliest (u : IncidentUnit) : Prop :=
  (∀ (k : Fin 4) (r : Incident), u.slots[k] = some r → r.governing = true → r.state ≠ .clearing ∧
    ∀ (j : Fin 4) (q : Incident), u.slots[j] = some q → q.state ≠ .clearing → ¬q.Earlier r) ∧
  (∀ (j k : Fin 4) (q r : Incident), u.slots[j] = some q → u.slots[k] = some r → q.governing = true →
    r.governing = true → j = k) ∧
  ((∃ (k : Fin 4) (r : Incident), u.slots[k] = some r ∧ r.state ≠ .clearing) →
    ∃ (k : Fin 4) (r : Incident), u.slots[k] = some r ∧ r.governing = true) ∧
  (∀ (k : Fin 4) (r : Incident), u.slots[k] = some r → r.governing = false → r.deficit = 0)

/-- The table holds these records, apart from the governing flags and the deficits, which R139 and R140 give. -/
def TableIs (u : IncidentUnit) (slots : Vector (Option Incident) 4) : Prop :=
  ∀ k : Fin 4, (slots[k] = none → u.slots[k] = none) ∧
    ∀ r, slots[k] = some r → ∃ g : Bool,
      u.slots[k] = some { r with governing := g, deficit := if g then r.deficit else 0 }

/-- What one event at the incident unit sends, from the state `p` in which the event has been taken: these deliveries to the door
controller with INCIDENT set if there are any, these identities freed and possibly slot freed to every zone, these notices
to both ports, and a change of the governing identity to the placement unit (R131, R140, R142). -/
def IncidentEventFrame (p a : State) (deliveries : List IncidentDelivery) (freed : List Ident) (slotFreed : Bool)
    (notices : List Notice) : Prop :=
  let handed := notices.map fun n => ({ notice := n, origin := .own, joined := p.regs.seconds } : QueuedNotice)
  GoverningIsEarliest a.incidents ∧
  a.mail.incidents = p.mail.incidents ++ deliveries ∧
  (∀ z : Fin 8, a.mail.incidentFreed[z] = p.mail.incidentFreed[z] ++ freed) ∧
  (∀ z : Fin 8, a.mail.slotFreed[z] = p.mail.slotFreed[z] + if slotFreed then 1 else 0) ∧
  a.mail.up = { p.mail.up with own := p.mail.up.own ++ handed } ∧
  a.mail.down = { p.mail.down with own := p.mail.down.own ++ handed } ∧
  (a.incidents.governingIdent = p.incidents.governingIdent → a.mail.governing = p.mail.governing) ∧
  (a.incidents.governingIdent ≠ p.incidents.governingIdent → a.mail.governing = p.mail.governing ++
    [a.incidents.governingRecord.map fun r =>
      { ident := r.ident, position := r.position, template := r.template, mirror := r.mirror }]) ∧
  a.regs = (if deliveries = [] then p.regs else p.regs.raise .incident) ∧
  a = { p with incidents := a.incidents, regs := a.regs, mail := { p.mail with
    incidents := a.mail.incidents, incidentFreed := a.mail.incidentFreed, slotFreed := a.mail.slotFreed
    governing := a.mail.governing, up := a.mail.up, down := a.mail.down } }

/-- The rest of the incident unit besides its table stays. -/
def TableAlone (p a : State) : Prop := a.incidents = { p.incidents with slots := a.incidents.slots }

/-- The event leaves the incident table as it is and sends nothing. -/
def IncidentsStay (p a : State) : Prop :=
  TableIs a.incidents p.incidents.slots ∧ TableAlone p a ∧ IncidentEventFrame p a [] [] false []

/-- The record of slot k becomes `r`, its change of state if any is told (R131), and these notices are sent. -/
def RecordBecomes (p a : State) (k : Fin 4) (r : Incident) (told : Bool) (notices : List Notice) : Prop :=
  TableIs a.incidents (p.incidents.slots.set k (some r)) ∧ TableAlone p a ∧
  IncidentEventFrame p a (if told then [{ ident := r.ident, position := r.position, state := some r.state }] else [])
    [] false notices

/-- The identity is held by no record and by no entry of the cleared-identity list (R137). -/
def IncidentUnit.Unknown (u : IncidentUnit) (i : Ident) : Prop :=
  (∀ (k : Fin 4) (r : Incident), u.slots[k] = some r → r.ident ≠ i) ∧ ∀ e ∈ u.cleared, e.ident ≠ i

/-- The identity of a new local-origin record: the own span id with the first sequence, counting from the local sequence, that
makes an unknown identity (R132). -/
def FreshIdentity (p : State) (i : Ident) : Prop :=
  i.span = p.active.span.spanId ∧ p.incidents.Unknown i ∧
  ∃ n : Nat, n < 13 ∧ i.seq = p.incidents.localSeq + BitVec.ofNat 8 n ∧
    ∀ m, m < n → ¬p.incidents.Unknown { span := i.span, seq := p.incidents.localSeq + BitVec.ofNat 8 m }

/-- The slot is the lowest-numbered EMPTY one (R134). -/
def LowestEmpty (u : IncidentUnit) (k : Fin 4) : Prop := u.slots[k] = none ∧ ∀ j : Fin 4, j < k → u.slots[j] ≠ none

/-- A NOTICE record not in CLEARING may be displaced (R134). -/
def Incident.MayBeDisplaced (r : Incident) : Prop := r.origin = .notice ∧ r.state ≠ .clearing

/-- A notice of the record carrying a state: age SECONDS minus start, clipped to 0-65535, and the span's notice reach as hop
count (R142, R144). -/
def Incident.Sends (p : State) (r : Incident) (st : NoticeState) : Notice :=
  let age := (p.regs.seconds - r.start).toInt
  { ident := r.ident, state := st, position := BitVec.ofNat 16 r.position, template := BitVec.ofNat 8 r.template.val
    mirror := if r.mirror then 1 else 0, age := BitVec.ofNat 16 (max 0 (min 65535 age)).toNat
    hops := BitVec.ofNat 8 p.active.span.noticeReach }

/-- A local-origin record is created in slot k with identity i (R134, R135, R136): in the lowest EMPTY slot, or, with the table
full, in place of the displacement candidate that the governing order reaches last, with OVERFLOW. -/
def Creates (p a : State) (o : Origin) (position : Nat) (zone : Option (Fin 8)) (template : Fin 8) (mirror : Bool)
    (evidence : List (Fin 12)) (k : Fin 4) (i : Ident) : Prop :=
  let r : Incident :=
    { ident := i, origin := o, state := .active, resumeAcknowledged := false, position := position, zone := zone
      template := template, mirror := mirror, start := p.regs.seconds, lastRefresh := p.regs.seconds, evidence := evidence
      deficit := 0, governing := false, clearLeft := 0, refreshDue := some (p.now + 2000), staleDue := none
      clearingDue := none, entered := p.regs.seconds }
  let created : IncidentDelivery := { ident := i, position := position, state := some .active }
  FreshIdentity p i ∧ TableIs a.incidents (p.incidents.slots.set k (some r)) ∧
  a.incidents.localSeq = i.seq + 1 ∧ a.incidents.cleared = p.incidents.cleared ∧
  ((LowestEmpty p.incidents k ∧ a.incidents.overflow = p.incidents.overflow ∧
      a.incidents.overflowCount = p.incidents.overflowCount ∧
      IncidentEventFrame p a [created] [] false [r.Sends p .active]) ∨
   (∃ old, (∀ j : Fin 4, p.incidents.slots[j] ≠ none) ∧ p.incidents.slots[k] = some old ∧ old.MayBeDisplaced ∧
      (∀ (j : Fin 4) (q : Incident), p.incidents.slots[j] = some q → q.MayBeDisplaced → ¬old.Earlier q) ∧
      a.incidents.overflow = true ∧ a.incidents.overflowCount = satSucc p.incidents.overflowCount ∧
      IncidentEventFrame p a [{ ident := old.ident, position := old.position, state := none }, created] [old.ident] false
        [r.Sends p .active]))

/-- The table is full, no record may be displaced, and nothing is created: OVERFLOW (R134). -/
def Overflows (p a : State) : Prop :=
  (∀ (k : Fin 4), ∃ r, p.incidents.slots[k] = some r ∧ ¬r.MayBeDisplaced) ∧
  TableIs a.incidents p.incidents.slots ∧ IncidentEventFrame p a [] [] false [] ∧
  a.incidents = { p.incidents with
    slots := a.incidents.slots, overflow := true, overflowCount := satSucc p.incidents.overflowCount }

/-- An identity joins the cleared-identity list at its newest end, with its time; of 8 entries the oldest leaves (R133). -/
def JoinsCleared (p a : State) (i : Ident) : Prop :=
  let entry : ClearedEntry := { ident := i, joined := p.regs.seconds, due := p.now + 30000 }
  (p.incidents.cleared.length < 8 → a.incidents.cleared = p.incidents.cleared ++ [entry]) ∧
  (8 ≤ p.incidents.cleared.length → a.incidents.cleared = p.incidents.cleared.tail ++ [entry])

/-- The record of slot k enters CLEARING, stops its other timers and sends its first CLEAR notice (R143, R144). -/
def EntersClearing (p a : State) (k : Fin 4) (r : Incident) : Prop :=
  RecordBecomes p a k { r with state := .clearing, entered := p.regs.seconds, refreshDue := none, staleDue := none
                               clearLeft := 2, lastRefresh := p.regs.seconds, clearingDue := some (p.now + 2000) }
    true [r.Sends p .clear]

/-! ## Placement -/

/-- What a template entry gives a fan, FWD and REV exchanged with mirror set (R149, R153). -/
def TemplateEntry.Gives (e : TemplateEntry) (mirror : Bool) (a : Option PlacedAction) : Prop :=
  (e.action = .none → a = none) ∧ (e.action = .keep → a = some .keep) ∧ (e.action = .stop → a = some .stop) ∧
  (e.action = .fwd → a = some (.run (if mirror then .rev else .fwd) e.speed)) ∧
  (e.action = .rev → a = some (.run (if mirror then .fwd else .rev) e.speed))

/-- The fan is a jet fan in the candidate range of the governing position (R154). -/
def InCandidateRange (cfg : ActiveConfig) (g : Governing) (f : Fin 8) : Prop :=
  let q := cfg.span.firstNiche + cfg.fans[f].niche
  cfg.fans[f].role = .jet ∧ Within q g.position 7 ∧ q < cfg.span.firstNiche + cfg.span.nicheCount

/-- A fan's candidate in the place stage, if any (R153, R154): the entry for its offset, or with mirror set for the negated
offset. -/
def CandidateIs (cfg : ActiveConfig) (g : Governing) (f : Fin 8) (a : Option PlacedAction) : Prop :=
  let offset : Int := ((cfg.span.firstNiche + cfg.fans[f].niche : Nat) : Int) - g.position
  (¬InCandidateRange cfg g f → a = none) ∧
  (InCandidateRange cfg g f → ∀ j : Fin 15, (j.val : Int) = (if g.mirror then 7 - offset else 7 + offset) →
    cfg.templates[g.template].entries[j].Gives g.mirror a)

/-- The action runs its fan. -/
def PlacedAction.IsRun (a : PlacedAction) : Prop := ∃ dir speed, a = .run dir speed

/-- Fan h meets the conditions of R156 to stand in for the entry of fan f, earlier substitutions apart: a jet fan, available, with
candidate KEEP or none, on the side of f's niche away from the governing position. -/
def MayStandIn (cfg : ActiveConfig) (g : Governing) (available : Vector Bool 8) (f h : Fin 8) : Prop :=
  let q := cfg.span.firstNiche + cfg.fans[f].niche
  let n := cfg.span.firstNiche + cfg.fans[h].niche
  cfg.fans[h].role = .jet ∧ available[h] = true ∧ (CandidateIs cfg g h none ∨ CandidateIs cfg g h (some .keep)) ∧
  (q < g.position → n ≤ q) ∧ (g.position < q → q ≤ n)

/-- Fan h stands nearer to the niche of fan f than fan k: by distance, then by lower niche, then by lower number (R156). -/
def StandsNearer (cfg : ActiveConfig) (f h k : Fin 8) : Prop :=
  let a := distance cfg.fans[h].niche cfg.fans[f].niche
  let b := distance cfg.fans[k].niche cfg.fans[f].niche
  a < b ∨ (a = b ∧ (cfg.fans[h].niche < cfg.fans[k].niche ∨ (cfg.fans[h].niche = cfg.fans[k].niche ∧ h < k)))

/-- The unmet entry of fan f is taken before that of fan k: by the magnitude of its offset, the negative offset first, then by fan
number (R156). -/
def TakenBefore (cfg : ActiveConfig) (g : Governing) (f k : Fin 8) : Prop :=
  let offset (x : Fin 8) : Int := ((cfg.span.firstNiche + cfg.fans[x].niche : Nat) : Int) - g.position
  (offset f).natAbs < (offset k).natAbs ∨ ((offset f).natAbs = (offset k).natAbs ∧
    (offset f < offset k ∨ (offset f = offset k ∧ f < k)))

/-- The record is the result of a placement for a governing copy (R153 to R157). An unmet entry takes the nearest fan that may
stand in and that no entry taken before it has, and stays unmet only where those have taken every such fan. -/
def PlacementFor (cfg : ActiveConfig) (g : Governing) (available : Vector Bool 8) (r : PlacementRecord) : Prop :=
  let template := cfg.templates[g.template]
  r.governing = some g ∧
  r.list.Pairwise (fun a b => a.fan < b.fan) ∧
  (∀ e ∈ r.list, e.standsFor = none → available[e.fan] = true ∧ CandidateIs cfg g e.fan (some e.action)) ∧
  (∀ e ∈ r.list, ∀ f, e.standsFor = some f → template.substitute = true ∧ available[f] = false ∧ e.action.IsRun ∧
    CandidateIs cfg g f (some e.action) ∧ MayStandIn cfg g available f e.fan ∧
    (∀ d ∈ r.list, d.standsFor = some f → d = e) ∧
    (∀ h, MayStandIn cfg g available f h →
      (∀ d ∈ r.list, ∀ k, d.fan = h → d.standsFor = some k → ¬TakenBefore cfg g k f) → ¬StandsNearer cfg f h e.fan)) ∧
  (∀ f a, available[f] = true → CandidateIs cfg g f (some a) →
    ∃ e ∈ r.list, e.fan = f ∧ (e.standsFor = none ∨ a = .keep)) ∧
  r.running = (r.list.filter fun e => e.action.runs).length ∧
  r.unmetFans.Pairwise (· < ·) ∧
  (∀ f, f ∈ r.unmetFans ↔ available[f] = false ∧ (∃ a, CandidateIs cfg g f (some a) ∧ a ≠ .keep) ∧
    ∀ e ∈ r.list, e.standsFor ≠ some f) ∧
  (∃ left : List (Fin 8), left.Nodup ∧ r.unmet = left.length ∧
    ∀ f, f ∈ left ↔ f ∈ r.unmetFans ∧ ∃ a, CandidateIs cfg g f (some a) ∧ a.IsRun) ∧
  (template.substitute = true → ∀ f ∈ r.unmetFans, (∃ a, CandidateIs cfg g f (some a) ∧ a.IsRun) →
    ∀ h, MayStandIn cfg g available f h → ∃ e ∈ r.list, ∃ k, e.fan = h ∧ e.standsFor = some k ∧ TakenBefore cfg g k f) ∧
  r.deficit = (template.minRunning - r.running) + r.unmet

/-- What a placement publishes (R151, R158), from the state `p` in which its event has been taken: a result equal to the record
apart from the time leaves it; the list is delivered if it differs in any fan, action, speed or origin, the deficit if it or
the governing identity differs. -/
def PlacementFrame (p a : State) : Prop :=
  let old := p.placement.record
  let new := a.placement.record
  let compared (l : List ListEntry) : List (Fin 8 × PlacedAction × Bool) := l.map fun e => (e.fan, e.action, decide (e.standsFor = none))
  (new = old ∨ ({ new with time := old.time } ≠ old ∧ new.time = p.regs.seconds)) ∧
  a.mail.placements = p.mail.placements ++ (if compared new.list = compared old.list then [] else [new.list]) ∧
  a.mail.deficits = p.mail.deficits ++
    (if new.deficit = old.deficit ∧ new.governing.map (·.ident) = old.governing.map (·.ident) then [] else [new.deficit]) ∧
  a = { p with placement := a.placement, mail := { p.mail with
    placements := a.mail.placements, deficits := a.mail.deficits } }

/-! ## The span link -/

/-- The port becomes `n`, and LINK is set where the event calls for it; the other port and the relay stay (R182). -/
def PortBecomes (p a : State) (port : Port) (n : PortState) (link : Bool) : Prop :=
  a = { p with link := p.link.set port n, regs := if link then p.regs.raise .link else p.regs }

/-- The class of an entry of a transmit queue (R175): LOCAL notices, FORWARDED notices, the HELLO. -/
def TxEntry.place (e : TxEntry) : Nat :=
  match e with
  | .notice q => if q.origin = .own then 0 else 1
  | .hello => 2

/-- The entry is a notice for an identity. -/
def TxEntry.Holds (e : TxEntry) (i : Ident) : Prop := ∃ q, e = .notice q ∧ q.notice.ident = i

/-- A transmit queue as R175 says it stands: at most 8 entries, in three classes, at most one HELLO and at most one notice per
incident identity. -/
def TransmitWf (l : List TxEntry) : Prop :=
  l.length ≤ 8 ∧ l.Pairwise (fun a b => a.place ≤ b.place ∧ ¬(a = .hello ∧ b = .hello) ∧ ∀ i, ¬(a.Holds i ∧ b.Holds i))

/-- The notice joins the queue at the back of its class (R175). -/
def JoinsClass (l : List TxEntry) (q : QueuedNotice) (m : List TxEntry) : Prop :=
  ∃ x y, l = x ++ y ∧ m = x ++ .notice q :: y ∧ (∀ e ∈ x, e.place ≤ TxEntry.place (.notice q)) ∧
    ∀ e ∈ y, TxEntry.place (.notice q) < e.place

/-- A full queue that holds no entry with the identity of the notice gives way as the table of R177 says. -/
def GivesWay (l : List TxEntry) (q : QueuedNotice) (m : List TxEntry) : Prop :=
  (∀ x y, l = x ++ .hello :: y → JoinsClass (x ++ y) q m) ∧
  (.hello ∉ l → ∀ x y old, l = x ++ .notice old :: y → old.origin = .forwarded → (∀ e ∈ x, e.place = 0) →
    JoinsClass (x ++ y) q m) ∧
  ((∀ e ∈ l, e.place = 0) → q.origin = .forwarded → m = l) ∧
  ((∀ e ∈ l, e.place = 0) → q.origin = .own → m = l.tail ++ [.notice q])

/-- A HELLO is offered to a port's transmit queue (R171). -/
def OffersHello (p n : PortState) : Prop :=
  (.hello ∈ p.transmitQueue → n = p) ∧
  (.hello ∉ p.transmitQueue → p.transmitQueue.length < 8 → n = { p with transmitQueue := p.transmitQueue ++ [.hello] }) ∧
  (.hello ∉ p.transmitQueue → 8 ≤ p.transmitQueue.length → n = { p with dropped := satSucc p.dropped })

/-- The port goes DOWN: the entry empties, every queued notice is discarded and a queued HELLO stays (R174). -/
def GoesDown (p n : PortState) : Prop :=
  n = { p with neighbour := none, agingDue := none
               transmitQueue := List.replicate (p.transmitQueue.count .hello) .hello }

/-- The frame that carries a notice (R167, R184): origin span id, sequence, state, position, template, mirror, age and hop count. -/
def incidentBytes (n : Notice) : List Byte :=
  let state : Byte := if n.state = .active then 1 else if n.state = .acknowledged then 2 else 3
  frameBytes 2 [n.ident.span, n.ident.seq, state, highByte n.position, lowByte n.position, n.template, n.mirror,
    highByte n.age, lowByte n.age, n.hops]

/-- The bytes are a good frame (R167, R168): marker, kind, body length, body and CRC. A HELLO's governing identity is none where
its high byte is 0xFF (R183). -/
def Spells (l : List Byte) (f : GoodFrame) : Prop :=
  (∃ (span niches : Byte) (first governing : Word), span ≠ 0 ∧ span ≠ 255 ∧
    l = frameBytes 1 ([span] ++ bigEndian first ++ [niches] ++ bigEndian governing ++ [1]) ∧
    f = .queued (.hello {
      spanId := span, firstNiche := first, nicheCount := niches
      governing := if highByte governing = 0xFF then none else some (Ident.mk (highByte governing) (lowByte governing)) })) ∨
  (∃ n : Notice, n.hops.toNat ≤ 15 ∧ l = incidentBytes n ∧ f = .queued (.incident n)) ∨
  (∃ t : Byte, l = frameBytes 3 [t] ∧ f = .hold t)

/-- The bytes end with the one at which a check of R168 first fails: marker, kind, body length, CRC, an INCIDENT's state or hop
count, a HELLO's span id or RUNNING flag. -/
def FailsCheck (l : List Byte) : Prop :=
  let sized (kind : Byte) (body : List Byte) : Prop :=
    (kind = 1 ∧ body.length = 7) ∨ (kind = 2 ∧ body.length = 10) ∨ (kind = 3 ∧ body.length = 1)
  (∃ m, l = [m] ∧ m ≠ Config.startMarker) ∨
  (∃ kind, l = [Config.startMarker, kind] ∧ kind ≠ 1 ∧ kind ≠ 2 ∧ kind ≠ 3) ∨
  (∃ kind len, l = [Config.startMarker, kind, len] ∧
    ((kind = 1 ∧ len ≠ 7) ∨ (kind = 2 ∧ len ≠ 10) ∨ (kind = 3 ∧ len ≠ 1))) ∨
  (∃ kind body c d, sized kind body ∧ l = Config.startMarker :: kind :: BitVec.ofNat 8 body.length :: body ++ [c, d] ∧
    [c, d] ≠ bigEndian (crc (kind :: BitVec.ofNat 8 body.length :: body))) ∨
  (∃ kind body, sized kind body ∧ l = frameBytes kind body ∧
    ((kind = 2 ∧ ((body[2]? ≠ some 1 ∧ body[2]? ≠ some 2 ∧ body[2]? ≠ some 3) ∨ ∃ h, body[9]? = some h ∧ 15 < h.toNat)) ∨
     (kind = 1 ∧ (body[0]? = some 0 ∨ body[0]? = some 255 ∨ body[6]? ≠ some 1))))

/-- The bytes are the beginning of a frame that has failed no check yet (R168): marker, a known kind and its body length as far as
they have arrived, and not yet the whole body with its CRC. -/
def BeginsFrame (l : List Byte) : Prop :=
  l = [Config.startMarker] ∨
  ∃ (kind : Byte) (size : Nat), ((kind = 1 ∧ size = 7) ∨ (kind = 2 ∧ size = 10) ∨ (kind = 3 ∧ size = 1)) ∧
    (l = [Config.startMarker, kind] ∨
     ∃ part : List Byte, part.length < size + 2 ∧ l = Config.startMarker :: kind :: BitVec.ofNat 8 size :: part)

/-- A good frame is taken by the port (R169, R170, R179): a HOLD sets or stops the hold timer; another frame joins the receive
queue, the third one with the hold mark clear setting it with a HOLD(255) pending; with four queued it is discarded and
counted. -/
def TakesGood (p n : PortState) (now : Nat) (f : GoodFrame) : Prop :=
  (∀ t, f = .hold t → n = { p with holdDue := if t = 0 then none else some (now + 10 * t.toNat), holdShown := t }) ∧
  (∀ g, f = .queued g →
    let joined := { p with receiveQueue := p.receiveQueue ++ [g] }
    (4 ≤ p.receiveQueue.length → n = { p with overrun := satSucc p.overrun }) ∧
    (p.receiveQueue.length < 4 → joined.receiveQueue.length < 3 ∨ p.holdMark = true → n = joined) ∧
    (p.receiveQueue.length < 4 → 3 ≤ joined.receiveQueue.length → p.holdMark = false →
      n = { joined with holdMark := true, pendingHold := some 255, holdRepeatDue := some (now + 2000) }))

/-- The head frame leaves the receive queue; at one frame or none with the mark set the mark is cleared with a HOLD(0)
pending (R169, R170). -/
def TakesHead (p n : PortState) : Prop :=
  (p.holdMark = true → p.receiveQueue.length ≤ 2 → n = { p with
    receiveQueue := p.receiveQueue.tail, holdMark := false, holdRepeatDue := none, pendingHold := some 0 }) ∧
  (p.holdMark = false ∨ 2 < p.receiveQueue.length → n = { p with receiveQueue := p.receiveQueue.tail })

/-! ## LOAD -/

/-- A dispatched LOAD that commits the item: its target names it, the owning block's condition holds, and every check passes
(R18, R19, R40). -/
def State.MayLoad (s : State) (t : Take) (r : ItemRef) : Prop :=
  s.dispatched t .load ∧ (lowByte t.card.target).toNat = r.classNo ∧ (highByte t.card.target).toNat = r.index ∧ r ≠ .span ∧
  s.loadAllowed r = true ∧ (∀ z : Fin 8, r = .zone z → s.mail.requests[z] = none) ∧
  ∀ c ∈ itemChecks s.active r (itemField s.cm.bytes r) ++ namedByChecks s.active r (itemField s.cm.bytes r), c.ok = true

/-- The state at the commit of an item, before the owning block acts: the copy read is active and the card answered. -/
def State.committed (s a : State) (r : ItemRef) : State :=
  { s with active := s.active.store r (itemField s.cm.bytes r), executor := a.executor }

/-- A counter after a LOAD that names a gate for it, or none (R56). -/
def Rebinds (p q : Pulse) (gate : Option (Fin 4)) : Prop :=
  (gate = none → q = { p with binding := .none, count := 0 }) ∧
  (∀ g, gate = some g → p.binding = .bound g ∨ p.binding = .pending g → q = p) ∧
  (∀ g, gate = some g → p.binding ≠ .bound g → p.binding ≠ .pending g → q = { p with binding := .pending g })

/-- The owned contact inputs take a setting: the debounced level is kept and any candidate dropped; the others stay (R47). -/
def TakesSettings (s a : State) (owned : Fin 36 → Option ContactSetting) : Prop :=
  ∀ i : Fin 36,
    (owned i = none → a.contacts[i] = s.contacts[i]) ∧
    ∀ c, owned i = some c → a.contacts[i] = { s.contacts[i] with
      activeLow := c.activeLow, debounceMs := c.debounceMs, candidate := none }

/-- The settings that three consecutive inputs take from their item. -/
def threeInputs (first : Fin 36) (a b c : ContactSetting) (i : Fin 36) : Option ContactSetting :=
  if i.val = first.val then some a
  else if i.val = first.val + 1 then some b
  else if i.val = first.val + 2 then some c
  else none

/-! ## What every step keeps -/

/-- The common memory stands in its canonical form and unused bits of the masks, of ATTENTION and of its mask are zero. -/
def MemoryWf (s : State) : Prop :=
  s.cm.bytes.wf = true ∧ (∀ (w : Fin 8) (n : Nat), s.cm.masks[w].getLsbD n = true → (maskUsed w).getLsbD n = true) ∧
  ∀ n, 7 ≤ n → s.regs.attention.getLsbD n = false ∧ s.regs.attentionMask.getLsbD n = false

/-- The area of an enabled deck stands in the general area and its indices within its length (R22, R24). -/
def Deck.LaidOut (d : Deck) : Prop :=
  2 ≤ d.length ∧ d.length ≤ 256 ∧ 0x1000 ≤ d.base ∧ d.base % 32 = 0 ∧ d.base + 32 * d.length ≤ 0x8000 ∧
  d.accepted < d.length ∧ d.done < d.length

/-- A deck whose header was found good and that has not been disabled since. -/
def Deck.InUse (d : Deck) : Prop := d.state ≠ .off ∧ ¬(d.state = .stopped ∧ d.error = .header)

/-- A deck is OFF exactly while ENABLE was last seen clear, with accepted post and done zero; exactly in RUNNING and
SUSPEND_PENDING it has a card in flight or a header write to come, for the outstanding card at done; and decks in use share no
memory (R20 to R26, R30). -/
def DecksWf (s : State) : Prop :=
  (∀ d : Fin 4,
    let o := s.decks[d]
    (o.state = .off ↔ o.seenEnable = false) ∧
    (o.state = .off → o.accepted = 0 ∧ o.done = 0 ∧ o.error = .none) ∧
    (o.error ≠ .none ↔ o.state = .stopped) ∧
    (o.InUse → o.LaidOut) ∧
    (o.inFlight.isSome = true ∨ o.finishing.isSome = true ↔ o.state = .running ∨ o.state = .suspendPending) ∧
    (o.inFlight = none ∨ o.finishing = none) ∧
    (∀ f, o.inFlight = some f → f.slot = o.done) ∧ (∀ f, o.finishing = some f → f.slot = o.done) ∧
    (o.state = .running ∨ o.state = .suspendPending →
      o.done ≠ o.accepted ∧ o.taken = BitVec.ofNat 16 (o.base + 32 * o.done)) ∧
    (o.state = .waiting ∨ o.state = .suspended ∨ o.state = .off → o.taken = 0)) ∧
  (∀ j k : Fin 4, j ≠ k → s.decks[j].InUse → s.decks[k].InUse →
    s.decks[j].base + 32 * s.decks[j].length ≤ s.decks[k].base ∨ s.decks[k].base + 32 * s.decks[k].length ≤ s.decks[j].base)

/-- The filter holds a level exactly when it is not OFF, and a setting to come is one to or from OFF (R48). -/
def Pulse.FilterWf (p : Pulse) : Prop :=
  (p.filter = .off ↔ p.level = none) ∧ ∀ k, p.next = some k → (p.filter = .off ↔ k ≠ .off)

/-- Counts stay within 65535 and a counter bound to no gate holds 0 (R49, R56); at most eight samples of a tick are to come, a
filter holds a level exactly when it is not OFF, and the tach inputs keep the FAST filter (R48, R54); a history holds at most
its depth; a channel in ALARM has SUMMARY or is out of service, and a zero is pending only out of service (R63, R65, R70,
R72). -/
def ChannelsWf (s : State) : Prop :=
  (∀ c : Fin 12, s.measured[c].count ≤ 65535 ∧ s.measured[c].left ≤ 8 ∧ s.measured[c].FilterWf ∧
    (s.measured[c].binding = .none → s.measured[c].count = 0)) ∧
  (∀ f : Fin 8, s.tach[f].count ≤ 65535 ∧ s.tach[f].left ≤ 8 ∧ s.tach[f].FilterWf ∧
    s.tach[f].filter = .fast ∧ s.tach[f].next = none ∧
    (s.tach[f].binding = .none → s.tach[f].count = 0)) ∧
  ∀ c : Fin 12,
    let o := s.channels[c]
    o.history.length ≤ s.active.channels[c].depth ∧
    (o.band = .alarm → o.summary = true ∨ o.out = true) ∧
    (o.zero.isSome = true → o.out = true)

/-- A zone holds an identity exactly in TRIGGERED and a confirm timer exactly in CONFIRMING; CONFIRMING, BLOCKED and HELD stand
on evidence; a zone that has asked for creation has evidence; and QUIET with evidence has asked (R75, R79 to R82). -/
def ZonesWf (s : State) : Prop :=
  ∀ z : Fin 8,
    let o := s.zones[z]
    (o.ident.isSome = true ↔ o.state = .triggered) ∧ (o.confirm.isSome = true ↔ o.state = .confirming) ∧
    (o.state = .confirming ∨ o.state = .blocked ∨ o.state = .held → o.evidence = true) ∧
    (s.mail.requests[z].isSome = true → o.evidence = true ∧ (o.state = .quiet ∨ o.state = .confirming ∨ o.state = .blocked)) ∧
    (o.state = .quiet → o.evidence = true → s.mail.requests[z].isSome = true)

/-- The start queue holds every QUEUED fan once, and STOPPING fans for a flying restart, INCIDENT and GALLERY fans ahead of the
others (R102); the slots are kept to and none is left free while fans are queued (R103). A fan that is queued, starting or
running drives in the direction of its target (R93 to R96); SERVICE and LOCAL follow the card and the switch and drive to
STOP (R87, R99, R100); a fault cause stands exactly in FAULTED (R98); and the highest claimant owns the fan (R87). -/
def FansWf (s : State) : Prop :=
  let u := s.fans
  u.queue.Nodup ∧ ClassesInOrder u ∧
  (∀ f ∈ u.queue, u.fans[f].drivesTarget ∧
    (u.fans[f].state = .queued ∨ (u.fans[f].state = .stopping ∧ s.active.fans[f].flyingRestart = true))) ∧
  u.starting ≤ s.active.span.startSlots ∧ (u.queue = [] ∨ s.active.span.startSlots ≤ u.starting) ∧
  ∀ f : Fin 8,
    let e := u.fans[f]
    (e.state = .queued → f ∈ u.queue) ∧
    (e.state = .starting ∨ e.state = .running → e.drivesTarget) ∧
    (e.state = .service ↔ e.out = true) ∧
    (e.state = .localPanel ↔ e.localSwitch = true ∧ e.out = false) ∧
    (e.state = .service ∨ e.state = .localPanel → e.target = .stop) ∧
    (e.state = .faulted ↔ e.cause ≠ .none) ∧
    OwnedByHighest s.active u f

/-- Secure wanted is what R111 defines; ASSIST, the timers and the fault cause stand only in their states (R110, R114, R117 to
R120); and the gallery demand follows the doors (R123). -/
def DoorsWf (s : State) : Prop :=
  DemandFollowsDoors s.active s.doors ∧
  ∀ d : Fin 4,
    let e := s.doors.doors[d]
    (e.secureWanted = true ↔ SecureWanted s.active s.doors.reach d e) ∧
    (e.assist = true → e.state = .opening) ∧ (e.assistDue.isSome = true ↔ e.assist = true) ∧
    (e.boltDue.isSome = true ↔ e.state = .bolting) ∧ (e.reliefDue.isSome = true → e.state = .opening) ∧
    (e.heldOpenDue.isSome = true → e.state = .openLeaf) ∧ (e.boltFault = true ↔ e.state = .fault)

/-- No identity is held twice, in the table and the cleared-identity list together, which holds at most 8 (R132, R133); and the
governing record is the earliest (R139). -/
def IncidentsWf (s : State) : Prop :=
  let u := s.incidents
  (∀ (j k : Fin 4) (q r : Incident), u.slots[j] = some q → u.slots[k] = some r → q.ident = r.ident → j = k) ∧
  (∀ (k : Fin 4) (r : Incident), u.slots[k] = some r → ∀ e ∈ u.cleared, e.ident ≠ r.ident) ∧
  (u.cleared.map (·.ident)).Nodup ∧ u.cleared.length ≤ 8 ∧ GoverningIsEarliest u

/-- The relay is energised exactly in RUNNING (R165). At each port the transmit queue stands as R175 says and holds no notice while
the port is DOWN (R174, R176); the receive queue holds at most 4 frames, and the hold mark stands by it with its repeat timer
(R169, R170); the aging timer runs exactly while the port is UP (R172); and a port that is not enabled holds nothing (R163). -/
def LinkWf (s : State) : Prop :=
  (s.link.relay = true ↔ s.regs.runState = .running) ∧
  ∀ p : Port,
    let o := s.link.get p
    TransmitWf o.transmitQueue ∧ (o.neighbour = none → ∀ e ∈ o.transmitQueue, e = .hello) ∧
    o.receiveQueue.length ≤ 4 ∧ (o.holdMark = true → 2 ≤ o.receiveQueue.length) ∧
    (o.holdMark = false → o.receiveQueue.length ≤ 2) ∧ (o.holdRepeatDue.isSome = true ↔ o.holdMark = true) ∧
    (o.agingDue.isSome = true ↔ o.neighbour.isSome = true) ∧
    (portEnabled s.active p = false → o.transmitQueue = [] ∧ o.receiveQueue = [] ∧ o.neighbour = none ∧
      o.pendingHold = none ∧ o.holdDue = none ∧ o.helloDue = none)

/-- Every step keeps the property. -/
def KeptByEveryStep (inv : State → Prop) : Prop := ∀ s t : State, inv s → step s = .next t → inv t

end Sys2Proof.Machine
end

