-- ==== Sys2Proof/Certificates/Slice0/Obligations.lean ====
section
/-! DEFINITION. The statements about the part, in the order of the manual's chapters. A statement says `Acts c s post` where the
command's outcome is a next state: what the command makes of the state, with its updates published (R6, R7). -/

open Sys2Proof Sys2Proof.Machine

/-! ## The queue and time (logs 1, 3, 4) -/

/-- A step takes the command at the front of the queue and runs it on the state with the queue's rest. -/
def Obligations.StepTakesTheFrontCommand : Prop :=
  ∀ (c : Instr) (rest : List Instr) (s : State),
    s.pending = c :: rest → step s = exec c { s with pending := rest }

/-- The model's choice (logs 3, 4): with the queue empty the part takes an event of its own that has come about; when none has,
the samples of this tick that are still to come are taken, each contact (R43, R44) and each pulse input (R48) from its pin as
it stands, and the confirmed changes delivered (R46); when none are to come, one 1 ms tick passes. Outside RUNNING a tick
changes nothing but the time; in RUNNING the samples of the tick fall due, every gate whose tick has come falls by one (R50),
and a speed reference period is due. -/
def Obligations.EmptyQueueTakesAReadyEventElseATick : Prop :=
  ∀ s : State, s.pending = [] →
    (∀ c, s.readyEvent = some c → s.ready c = true ∧ c ∈ ownEvents ∧ step s = exec c s) ∧
    (s.readyEvent = none →
      let toCome := (∃ i : Fin 36, s.contacts[i].due = true) ∨ (∃ i : Fin 12, s.measured[i].SampleDue) ∨
        ∃ i : Fin 8, s.tach[i].SampleDue
      (s.running = true → toCome → ∃ t, step s = .next t ∧
        (∀ i : Fin 36,
          (s.contacts[i].due = true → s.contacts[i].TakesSample t.contacts[i] s.now s.mail.contactChanges[i]
            t.mail.contactChanges[i]) ∧
          (s.contacts[i].due = false → t.contacts[i] = s.contacts[i] ∧
            t.mail.contactChanges[i] = s.mail.contactChanges[i])) ∧
        (∀ i : Fin 12, s.measured[i].TakesDue t.measured[i]) ∧ (∀ i : Fin 8, s.tach[i].TakesDue t.tach[i]) ∧
        t = { s with contacts := t.contacts, measured := t.measured, tach := t.tach
                     mail := { s.mail with contactChanges := t.mail.contactChanges } }) ∧
      (s.running = true → ¬toCome → ∃ t, step s = .next t ∧
        (∀ i : Fin 36, t.contacts[i] = { s.contacts[i] with due := true }) ∧
        (∀ i : Fin 12, t.measured[i] = { s.measured[i] with left := 8 }) ∧
        (∀ i : Fin 8, t.tach[i] = { s.tach[i] with left := 8 }) ∧
        (∀ g : Fin 4, t.gates[g] = { s.gates[g] with remaining :=
          if (s.now + 1 - s.gates[g].windowStart) % s.gates[g].tick.ms = 0 then s.gates[g].remaining - 1
          else s.gates[g].remaining }) ∧
        t = { s with now := s.now + 1, contacts := t.contacts, measured := t.measured, tach := t.tach, gates := t.gates
                     periodDue := true }) ∧
      (s.running = false → step s = .next { s with now := s.now + 1 }))

/-- No command stops the part: the manual gives every access and every event an effect. The model's choice (log 2): a
command that names an event of the part's own blocks which has not come about changes nothing. -/
def Obligations.EveryCommandHasANextStateAndEarlyEventsChangeNothing : Prop :=
  (∀ (c : Instr) (s : State), ∃ t, exec c s = .next t) ∧
  (∀ (c : Instr) (s : State), c ∈ ownEvents → s.ready c = false → exec c s = .next s)

/-! ## The common memory and the registers (chapter 1) -/

/-- R1, R9: a host read returns the live word, the latched word, or zero where no record lies, and takes, keeps or releases
the record latch; HA0 is not used, and a read changes nothing else. A deck header reads as section 10.3 lays it out, and the
image records lie where section 10.5 puts them. -/
def Obligations.HostMemoryReadReturnsTheLiveOrLatchedWord : Prop :=
  ∀ (o : Offset) (s : State), s.resetAsserted = false →
    exec (.hostMemoryRead o) s = exec (.hostMemoryRead (o &&& 0x7FFE)) s ∧
    ∃ t, exec (.hostMemoryRead o) s = .next t ∧
      t = { s with hd := t.hd, cm := { s.cm with latch := t.cm.latch } } ∧
      let a := wordOffset o
      ((a < 0x0850 ∨ 0x1000 ≤ a) → t.cm.latch = none) ∧
      ((a < 0x0800 ∨ 0x1000 ≤ a) → t.hd = wordOf (s.cm.bytes.read a) (s.cm.bytes.read (a + 1))) ∧
      (∀ d : Fin 4,
        let deck := s.decks[d]
        let header := 0x0800 + 16 * d.val
        (a = header → t.hd = deck.baseWord) ∧ (a = header + 2 → t.hd = deck.lengthWord) ∧
        (a = header + 4 → t.hd = deck.controlWord) ∧ (a = header + 6 → t.hd = deck.postWord) ∧
        (a = header + 8 → t.hd = BitVec.ofNat 16 deck.done) ∧
        (a = header + 10 → t.hd = wordOf (BitVec.ofNat 8 deck.state.code) (BitVec.ofNat 8 deck.error.code)) ∧
        (a = header + 12 → t.hd = deck.taken) ∧ (a = header + 14 → t.hd = 0)) ∧
      (∀ w : Fin 8, a = 0x0840 + 2 * w.val → t.hd = s.cm.masks[w]) ∧
      (0x0850 ≤ a → a < 0x1000 → recordAt a = none → t.hd = 0 ∧ t.cm.latch = s.cm.latch) ∧
      (∀ r, recordAt a = some (r, 0) → t.cm.latch = some { record := r, words := s.recordWords r } ∧
        (s.running = true → t.hd = wordOf s.cm.sequences[r.place] r.kindCode) ∧ (s.running = false → t.hd = 0)) ∧
      (∀ r k l, recordAt a = some (r, k + 1) → s.cm.latch = some l → l.record = r →
        t.hd = l.words[k + 1]?.getD 0 ∧ t.cm.latch = s.cm.latch) ∧
      (∀ r k, recordAt a = some (r, k + 1) → (∀ l, s.cm.latch = some l → l.record ≠ r) →
        t.hd = (s.recordWords r)[k + 1]?.getD 0 ∧ t.cm.latch = s.cm.latch) ∧
      (∀ k, k < 16 →
        (∀ i : Fin 12, recordAt (0x0850 + 32 * i.val + 2 * k) = some (.channel i, k)) ∧
        (∀ i : Fin 8, recordAt (0x09D0 + 32 * i.val + 2 * k) = some (.fan i, k)) ∧
        (∀ i : Fin 4, recordAt (0x0B90 + 32 * i.val + 2 * k) = some (.incident i, k)) ∧
        recordAt (0x0C10 + 2 * k) = some (.link .up, k) ∧ recordAt (0x0C30 + 2 * k) = some (.link .down, k)) ∧
      (∀ k, k < 8 →
        (∀ i : Fin 4, recordAt (0x0AD0 + 16 * i.val + 2 * k) = some (.door i, k)) ∧
        (∀ i : Fin 8, recordAt (0x0B10 + 16 * i.val + 2 * k) = some (.zone i, k)) ∧
        recordAt (0x0C90 + 2 * k) = some (.gallery, k)) ∧
      (∀ k, k < 32 → recordAt (0x0C50 + 2 * k) = some (.span, k) ∧ recordAt (0x0CA0 + 2 * k) = some (.placement, k)) ∧
      (∀ x, x < 0x0850 ∨ 0x0CE0 ≤ x → recordAt x = none)

/-- R1, R2, R5, R7: what a host write does by the word it reaches, and that it releases the record latch (R9). Memory stands
in its canonical form (`Memory.wf`, an invariant of every step). -/
def Obligations.HostMemoryWriteActsByRegion : Prop :=
  ∀ (o : Offset) (v : Word) (s : State), s.resetAsserted = false → s.cm.bytes.wf = true →
    ∃ t, exec (.hostMemoryWrite o v) s = .next t ∧ t.cm.latch = none ∧
      let a := wordOffset o
      ((a < 0x0800 ∨ 0x1000 ≤ a) →
        t = { s with cm := { s.cm with bytes := t.cm.bytes, latch := none } } ∧ t.cm.bytes.readWord a = v ∧
        ∀ x, x ≠ a → x ≠ a + 1 → t.cm.bytes.read x = s.cm.bytes.read x) ∧
      (0x0800 ≤ a → a < 0x0840 →
        let d := headerDeck a
        let k := (a - 0x0800) % 16 / 2
        (k ≤ 1 → s.decks[d].state = .off →
          (k = 0 → t.decks[d] = { s.decks[d] with baseWord := v }) ∧
          (k = 1 → t.decks[d] = { s.decks[d] with lengthWord := v }) ∧
          t = { s with cm := { s.cm with latch := none }, decks := t.decks }) ∧
        (k ≤ 1 → s.decks[d].state ≠ .off →
          t = { s with cm := { s.cm with latch := none }, regs := s.regs.raise .access }) ∧
        (k = 2 ∨ k = 3 →
          (k = 2 → t.decks[d] = { s.decks[d] with controlWord := v }) ∧
          (k = 3 → t.decks[d] = { s.decks[d] with postWord := v }) ∧
          (s.running = true → t.mail.deckEvents[d] =
            s.mail.deckEvents[d] ++ [if k = 2 then DeckEvent.control v else DeckEvent.post v]) ∧
          (s.running = false → t.mail = s.mail) ∧
          (∀ j : Fin 4, j ≠ d → t.mail.deckEvents[j] = s.mail.deckEvents[j]) ∧
          t = { s with cm := { s.cm with latch := none }, decks := t.decks
                       mail := { s.mail with deckEvents := t.mail.deckEvents } }) ∧
        (4 ≤ k → t = { s with cm := { s.cm with latch := none }, regs := s.regs.raise .access }) ∧
        (∀ j : Fin 4, j ≠ d → t.decks[j] = s.decks[j])) ∧
      (0x0840 ≤ a → a < 0x0850 →
        t.cm.masks[maskIndex a] = s.cm.masks[maskIndex a] &&& ~~~v ∧
        (∀ w : Fin 8, w ≠ maskIndex a → t.cm.masks[w] = s.cm.masks[w]) ∧
        t = { s with cm := { s.cm with masks := t.cm.masks, latch := none } }) ∧
      (0x0850 ≤ a → a < 0x1000 →
        t = { s with cm := { s.cm with latch := none }, regs := s.regs.raise .access })

/-- R10, R184: HA1-HA3 choose the register that an access reaches, whichever row names the access (log 27). A read returns what
the table of R184 gives, and only a read of IDENT, which gives 0x6A16 and 0x0002 in turn, and of SECONDS LOW have an effect; a
write to a register that is only read or to the empty position is discarded and sets ACCESS. R11: a write to ATTENTION clears
the causes written as 1 and leaves the others; a write to ATTENTION MASK replaces the mask, whose unused bits read as zero;
ATTN is low exactly while some cause is set and enabled. R1: while the RESET input is asserted the part takes no host
access. -/
def Obligations.RegistersAreReadAndWritten : Prop :=
  (∀ (o : Offset) (s : State), s.resetAsserted = false → ∀ c ∈ [Instr.identRead o, .secondsLowRead o],
    let register := o.toNat % 16 / 2
    let r := s.regs
    let state : Nat := if r.runState = .starting then 1 else if r.runState = .running then 2
      else if r.runState = .configFault then 3 else 0
    let reason : Nat := if r.failReason = some .range then 1 else if r.failReason = some .order then 2
      else if r.failReason = some .reference then 3 else 0
    (register = 0 → exec c s = .next { s with hd := if r.identNext then 0x0002 else 0x6A16
                                              regs := { r with identNext := !r.identNext } }) ∧
    (register = 1 ∨ register = 7 → exec c s = .next { s with hd := 0 }) ∧
    (register = 2 → exec c s = .next { s with
      hd := BitVec.ofNat 16 state ||| BitVec.ofNat 16 r.failClass <<< 4 ||| BitVec.ofNat 16 r.failIndex <<< 8 |||
        BitVec.ofNat 16 reason <<< 12 }) ∧
    (register = 3 → exec c s = .next { s with hd := r.attention }) ∧
    (register = 4 → exec c s = .next { s with hd := r.attentionMask }) ∧
    (register = 6 → exec c s = .next { s with hd := r.secondsHigh })) ∧
  (∀ (o : Offset) (v : Word) (s : State), s.resetAsserted = false →
    ∀ c ∈ [Instr.start v o, .softReset v o, .attentionClear v o, .attentionMaskWrite v o, .registerWriteDiscarded v o],
    let register := o.toNat % 16 / 2
    (register = 0 ∨ register = 2 ∨ register = 5 ∨ register = 6 ∨ register = 7 →
      exec c s = .next { s with regs := { s.regs with attention := s.regs.attention ||| 0x0020 } }) ∧
    (register = 3 → ∃ t, exec c s = .next t ∧
      (∀ n, t.regs.attention.getLsbD n = (s.regs.attention.getLsbD n && !v.getLsbD n)) ∧
      t = { s with regs := { s.regs with attention := t.regs.attention } }) ∧
    (register = 4 → ∃ t, exec c s = .next t ∧
      (∀ n, t.regs.attentionMask.getLsbD n = (v.getLsbD n && decide (n < 7))) ∧
      t = { s with regs := { s.regs with attentionMask := t.regs.attentionMask } })) ∧
  (∀ s : State, s.attnLow = true ↔ ∃ n, s.regs.attention.getLsbD n = true ∧ s.regs.attentionMask.getLsbD n = true) ∧
  (∀ (o : Offset) (v : Word) (s : State), s.resetAsserted = true →
    (∀ c ∈ [Instr.hostMemoryRead o, .identRead o, .secondsLowRead o], exec c s = .next { s with hd := 0 }) ∧
    (∀ c ∈ [Instr.hostMemoryWrite o v, .start v o, .softReset v o, .attentionClear v o, .attentionMaskWrite v o,
      .registerWriteDiscarded v o], exec c s = .next s))

/-- R12: SECONDS counts one for every 1000 ticks in RUNNING and wraps; a read of SECONDS LOW returns its low half and copies
the high half of the same value into SECONDS HIGH. R184: HA1-HA3 choose the register, so a read named IDENT_READ at an offset
of SECONDS LOW is this read (log 27). -/
def Obligations.SecondsCountAndAreReadInOnePiece : Prop :=
  ∀ s : State,
    (∀ o : Offset, o.toNat % 16 / 2 = 5 → s.resetAsserted = false →
      ∀ c ∈ [Instr.identRead o, .secondsLowRead o], ∃ t, exec c s = .next t ∧
        t.regs.secondsHigh ++ t.hd = s.regs.seconds ∧
        t = { s with hd := t.hd, regs := { s.regs with secondsHigh := t.regs.secondsHigh } }) ∧
    (s.running = true → s.secondsDue ≤ s.now → exec .secondsIncrement s =
      .next { s with secondsDue := s.secondsDue + 1000, regs := { s.regs with seconds := s.regs.seconds + 1 } }) ∧
    (s.running = true → s.now < s.secondsDue → exec .secondsIncrement s = .next s)

/-- R13: a CONTROL write with START set and SOFT RESET clear enters STARTING from HALTED or CONFIG_FAULT with the failing
fields zero, and is ignored, without ACCESS, in STARTING and RUNNING; one with neither bit set has no effect. R16, R17: one
with SOFT RESET set makes a soft reset, which keeps the configuration block and the general area and brings everything else of
the part to its reset state, that is, to State.reset apart from the memory's bytes, the pins, the time base, the word last read
and the commands waiting; a power-on reset also zeroes the whole memory, and releasing RESET leaves the part HALTED. From
any state, with its pins low, that is State.reset. (A write that reaches CONTROL acts whichever row names it: logs 27, 28. The
model's choices at State.reset are the pins low, HD, what items and inputs hold before RUNNING, the decks' copies of base and
length, the last-granted deck, and the rundown clocks and the direction of MANUAL stop: logs 7, 8, 9, 11, 53, 54, 55, 62.) -/
def Obligations.StartAndResetsMoveTheRunState : Prop :=
  (∀ (o : Offset) (v : Word) (s : State), o.toNat % 16 / 2 = 1 → s.resetAsserted = false →
    ∀ c ∈ [Instr.start v o, .softReset v o, .attentionClear v o, .attentionMaskWrite v o, .registerWriteDiscarded v o],
    (v.getLsbD 1 = false → v.getLsbD 0 = true → s.regs.runState = .halted ∨ s.regs.runState = .configFault →
      ∃ t, exec c s = .next t ∧ t.regs.runState = .starting ∧ t.regs.runStateWord = 0x0001 ∧ t.regs.nextItem = 0 ∧
        t = { s with candidate := t.candidate, regs := { s.regs with
          runState := .starting, failClass := 0, failIndex := 0, failReason := none, nextItem := 0 } }) ∧
    (v.getLsbD 1 = false → v.getLsbD 0 = true → s.regs.runState = .starting ∨ s.regs.runState = .running →
      exec c s = .next s) ∧
    (v.getLsbD 1 = false → v.getLsbD 0 = false → exec c s = .next s) ∧
    (v.getLsbD 1 = true → ∃ t, exec c s = .next t ∧
      t.regs.runState = .halted ∧ t.regs.attention = 0 ∧ t.regs.attentionMask = 0 ∧ t.regs.seconds = 0 ∧
      t.regs.secondsHigh = 0 ∧ t.regs.identNext = false ∧ t.regs.runStateWord = 0 ∧
      t.cm.bytes = s.cm.bytes ∧ (∀ w : Fin 8, t.cm.masks[w] = 0) ∧ t.cm.latch = none ∧
      (∀ (d : Fin 4) (k : Nat), t.decks[d].headerWord k = 0) ∧ (∀ (r : RecordId) (k : Nat), (t.recordWords r)[k]?.getD 0 = 0) ∧
      t.executor = none ∧ t.mail = Mail.empty ∧ t.link.relay = false ∧
      (∀ f : Fin 8, t.fans.fans[f].state = .stopped ∧ t.fans.fans[f].reverse = false ∧ t.sref[f] = 0) ∧
      (∀ d : Fin 4, t.doors.doors[d].state.boltOn = false ∧ t.doors.doors[d].assist = false) ∧
      (∀ k : Fin 4, t.incidents.slots[k] = none) ∧
      (∀ i : Fin 36, t.contacts[i] = { State.reset.contacts[i] with pin := s.contacts[i].pin }) ∧
      (∀ i : Fin 12, t.measured[i] = { State.reset.measured[i] with pin := s.measured[i].pin }) ∧
      (∀ i : Fin 8, t.tach[i] = { State.reset.tach[i] with pin := s.tach[i].pin }) ∧
      t = { State.reset with
        pending := s.pending, now := s.now, hd := s.hd, cm := { State.reset.cm with bytes := s.cm.bytes }
        contacts := t.contacts, measured := t.measured, tach := t.tach })) ∧
  (∀ s : State,
    (∃ t, exec .powerOnReset s = .next t ∧ t.resetAsserted = true ∧ (∀ x, t.cm.bytes.read x = 0) ∧
      t.regs.runState = .halted ∧
      exec .resetRelease t = .next { t with resetAsserted := false } ∧
      ((∀ i : Fin 36, s.contacts[i].pin = false) → (∀ i : Fin 12, s.measured[i].pin = false) → (∀ i : Fin 8, s.tach[i].pin = false) →
        { t with resetAsserted := false, pending := [], now := 0, hd := 0 } = State.reset)) ∧
    exec .resetRelease s = .next { s with resetAsserted := false })

/-- R14: the 47 items are validated in class order and, within a class, in index order, each read whole; the first check that
fails takes the part to CONFIG_FAULT with the item's class, index and reason and START set, and no item becomes active. R15,
R45: when the 47th item passes, the items read become the active configuration and each block begins at the state the rule's
table gives: the decks OFF, the gates reloaded, the first level of each contact and filter taken, the counters bound, channels,
zones, incidents and placement empty, fans and doors as their contacts take them up, the enabled ports with a HELLO. (That every
record's sequence is 0 although contacts were taken up and HELLOs queued, the moment from which an idle line counts, the decks'
copies of base and length, the direction of the request MANUAL stop, the availability that a fan in LOCAL or FAULTED delivers, and
secure wanted before the doors take up their contacts are the model's: logs 10, 12, 53, 55, 17, 42.) -/
def Obligations.ItemsAreValidatedAndThePartEntersRunning : Prop :=
  ((∀ n, n < 47 → ∃ r, startItem n = some r) ∧
  (∀ m n q r, m < n → startItem m = some q → startItem n = some r →
    q.classNo < r.classNo ∨ (q.classNo = r.classNo ∧ q.index < r.index)) ∧
  ∀ (s : State) (item : ItemRef), s.validating = true → startItem s.regs.nextItem = some item →
    let words := itemField s.cm.bytes item
    let checks := itemChecks s.candidate item words
    (∀ c, checks.find? (fun c => !c.ok) = some c → ∃ t, exec .itemValidation s = .next t ∧
      t.regs.runState = .configFault ∧ t.regs.failClass = item.classNo ∧ t.regs.failIndex = item.index ∧
      t.regs.failReason = some c.reason ∧ t.regs.has .start = true ∧
      t = { s with regs := { s.regs with
        runState := .configFault, failClass := item.classNo, failIndex := item.index, failReason := some c.reason
        attention := s.regs.attention ||| 0x0040 } }) ∧
    ((∀ c ∈ checks, c.ok = true) → s.regs.nextItem + 1 < 47 → exec .itemValidation s =
      .next { s with candidate := s.candidate.store item words
                     regs := { s.regs with nextItem := s.regs.nextItem + 1 } })) ∧
  (∀ (s : State) (item : ItemRef), s.validating = true → s.regs.nextItem = 46 → startItem 46 = some item →
    (∀ c ∈ itemChecks s.candidate item (itemField s.cm.bytes item), c.ok = true) →
    ∃ t, exec .itemValidation s = .next t ∧
      t.active = s.candidate.store item (itemField s.cm.bytes item) ∧
      t.regs = { s.regs with
        runState := .running, seconds := 0, attention := s.regs.attention ||| 0x0044, nextItem := 47 } ∧
      t.cm = { s.cm with
        masks := #v[0x0FFF, 0x00FF, 0x000F, 0x00FF, 0x000F, 0x0003, 0x0007, 0], sequences := Vector.replicate 41 0 } ∧
      (∀ r : RecordId, t.marked r = true) ∧
      (∀ d : Fin 4, t.decks[d] = { s.decks[d] with
        state := .off, error := .none, seenEnable := false, seenSuspend := false, accepted := 0, done := 0, base := 0
        length := 0, taken := 0, inFlight := none, finishing := none }) ∧
      (∀ g : Fin 4,
        let item := t.active.gates[g]
        t.gates[g] = { tick := item.tick, reload := item.reload, remaining := item.reload, windowStart := s.now, pending := none }) ∧
      (∀ i : Fin 36,
        let o := s.contacts[i]
        let set := contactSetting t.active i
        t.contacts[i] = { pin := o.pin, activeLow := set.activeLow, debounceMs := set.debounceMs, level := o.pin != set.activeLow
                          candidate := none, due := false }) ∧
      (let counts (o n : Pulse) (filter : FilterKind) (binding : Binding) : Prop := n = {
         pin := o.pin, filter := filter, next := none, level := if filter = .off then none else some o.pin
         lastSample := o.pin, left := 7, count := 0, binding := binding }
       (∀ c : Fin 12, counts s.measured[c] t.measured[c] t.active.channels[c].filter (.bound t.active.channels[c].gate)) ∧
       (∀ f : Fin 8, (∀ g, t.active.fans[f].tachGate = some g → counts s.tach[f] t.tach[f] .fast (.bound g)) ∧
         (t.active.fans[f].tachGate = none → counts s.tach[f] t.tach[f] .fast .none))) ∧
      (∀ c : Fin 12, t.channels[c] = {
        status := .none, history := [], band := .normal, summary := false, out := false, zero := none, lastCount := 0
        windowLength := 0, windowTime := 0 }) ∧
      (∀ z : Fin 8, t.zones[z] = { state := .quiet, worst := .normal, evidence := false, confirm := none, ident := none }) ∧
      (∀ f : Fin 8,
        let item := t.active.fans[f]
        let e : Fan := {
          state := .stopped, out := false, cause := .none, request := .manual .fwd 0, incident := none, entryTarget := none
          owner := .host, target := .stop, rundownFrom := s.now, startLimitDue := none, settleDue := none, supervised := false
          underspeed := false, lastRpm := 0, attached := [], demand := 0, reverse := false
          running := t.contacts[fanInput f 0].level, fault := t.contacts[fanInput f 1].level
          localSwitch := t.contacts[fanInput f 2].level, entered := 0 }
        let n := t.fans.fans[f]
        (e.localSwitch = true → n = { e.entering t item .localPanel .none with owner := .localPanel }) ∧
        (e.localSwitch = false → e.running = true → e.fault = true →
          n = (e.entering t item .stopping .none).entering t item .faulted .driveFault) ∧
        (e.localSwitch = false → e.running = true → e.fault = false → n = e.entering t item .stopping .none) ∧
        (e.localSwitch = false → e.running = false → n = e) ∧
        t.sref[f] = 0 ∧ t.fans.zoneDemand[f] = 0 ∧
        t.mail.availability[f] = if e.localSwitch = true ∨ (e.running = true ∧ e.fault = true) then [false] else []) ∧
      t.fans.queue = [] ∧ t.fans.galleryDemand = .idle ∧
      (∀ d : Fin 4,
        let item := t.active.doors[d]
        let e : Door := {
          state := .released, secureMode := item.initialSecure, secureWanted := item.initialSecure, boltFault := false
          forcedFlag := false, heldOpenFlag := false, assistTimeoutFlag := false, path := .none, assist := false, boltDue := none
          heldOpenDue := none, reliefDue := none, assistDue := none, closed := t.contacts[doorInput d 0].level
          bolted := t.contacts[doorInput d 1].level, push := t.contacts[doorInput d 2].level, entered := 0 }
        e.TakesUp t.doors.doors[d] s.now 0 item) ∧
      t.doors.reach = [] ∧ t.doors.demand = .idle ∧ t.doors.demandEntered = 0 ∧
      t.doors.pressure = { status := .none, average := none } ∧
      (∀ k : Fin 4, t.incidents.slots[k] = none) ∧ t.incidents.cleared = [] ∧ t.incidents.localSeq = 0 ∧
      t.incidents.overflow = false ∧ t.incidents.overflowCount = 0 ∧
      t.placement.governing = none ∧ (∀ f : Fin 8, t.placement.available[f] = true) ∧ t.placement.record = {
        governing := none, list := [], running := 0, unmet := 0, unmetFans := [], deficit := 0, time := 0 } ∧
      t.link.relay = true ∧ (∀ p : Port,
        let on := portEnabled t.active p
        t.link.get p = {
          neighbour := none, agingDue := none, receiveQueue := [], transmitQueue := if on then [.hello] else []
          transmission := none, holdDue := none, holdShown := 0, helloDue := if on then some (s.now + 1000) else none
          holdRepeatDue := none, pendingHold := none, holdMark := false, ownLast := false, idleSince := s.now, receiving := []
          ignoring := false, rejected := 0, overrun := 0, dropped := 0 }) ∧
      t.mail = { Mail.empty with availability := t.mail.availability } ∧
      t = { s with
        secondsDue := s.now + 1000, periodDue := false, regs := t.regs, cm := t.cm, candidate := t.active, active := t.active
        decks := t.decks, executor := none, lastGranted := 3, contacts := t.contacts, measured := t.measured, tach := t.tach
        gates := t.gates, sref := t.sref, channels := t.channels, zones := t.zones, fans := t.fans, doors := t.doors
        incidents := t.incidents, placement := t.placement, link := t.link, mail := t.mail })

/-- R6, R7: an event that changes reportable fields of a record increments its sequence once and sets its mask bit; a record
whose fields stay keeps both; a deck whose state or error changed has its bit set; CHANGE is set when, and only when, a bit
went from 0 to 1; nothing else is touched. (That an event which leaves every field equal makes no update, also where its
rule speaks of one: log 46.) -/
def Obligations.PublishingIncrementsSequencesAndSetsMaskBits : Prop :=
  ∀ before after : State, ∃ t, t = publish before after ∧
    (∀ r : RecordId, before.recordBody r ≠ after.recordBody r →
      t.cm.sequences[r.place] = after.cm.sequences[r.place] + 1 ∧ t.marked r = true) ∧
    (∀ r : RecordId, before.recordBody r = after.recordBody r →
      t.cm.sequences[r.place] = after.cm.sequences[r.place] ∧ t.marked r = after.marked r) ∧
    (∀ d : Fin 4, t.cm.masks[(7 : Fin 8)].getLsbD d.val = (after.cm.masks[(7 : Fin 8)].getLsbD d.val ||
      decide (before.decks[d].state ≠ after.decks[d].state) || decide (before.decks[d].error ≠ after.decks[d].error))) ∧
    (t.regs.has .change = true ↔ after.regs.has .change = true ∨
      ∃ (w : Fin 8) (n : Nat), t.cm.masks[w].getLsbD n = true ∧ after.cm.masks[w].getLsbD n = false) ∧
    (∀ n, n ≠ 2 → t.regs.attention.getLsbD n = after.regs.attention.getLsbD n) ∧
    t = { after with cm := { after.cm with masks := t.cm.masks, sequences := t.cm.sequences }
                     regs := { after.regs with attention := t.regs.attention } }

/-- R14, R19, R42, R52, R60, R74, R85, R109, R122, R149, R163: the checks that an item passes are exactly that its fields
lie in the ranges, orders and references the item's table gives; and what each field means once stored. (A local niche above 7
fails RANGE and one from 7 down to the niche count REFERENCE: log 45.) -/
def Obligations.ItemsPassExactlyWithLegalFields : Prop :=
  ∀ (cfg : ActiveConfig) (w : Nat → Word),
    let n (k : Nat) : Nat := (w k).toNat
    let i (k : Nat) : Int := (w k).toInt
    let within (k lo hi : Nat) : Prop := lo ≤ n k ∧ n k ≤ hi
    let niche (k : Nat) : Prop := n k ≤ 7 ∧ n k < cfg.span.nicheCount
    let contact (k : Nat) : Prop := (lowByte (w k)).toNat ≤ 1 ∧ (highByte (w k)).toNat ≤ 3
    let passes (r : ItemRef) : Prop := ∀ c ∈ itemChecks cfg r w, c.ok = true
    let fails (r : ItemRef) (k : Nat) (reason : ValReason) : Prop :=
      ∃ c ∈ itemChecks cfg r w, c.ok = false ∧ c.field = k ∧ c.reason = reason
    let contactIs (c : ContactSetting) (k : Nat) : Prop := (c.activeLow = true ↔ lowByte (w k) = 1) ∧
      (highByte (w k) = 0 → c.debounceMs = 0) ∧ (highByte (w k) = 1 → c.debounceMs = 4) ∧
      (highByte (w k) = 2 → c.debounceMs = 16) ∧ (highByte (w k) = 3 → c.debounceMs = 64)
    (passes .span ↔ within 0 1 254 ∧ n 1 ≤ 1023 ∧ within 2 1 8 ∧ n 1 + n 2 ≤ 1024 ∧ n 3 ≤ 7 ∧ n 3 < n 2 ∧ n 4 ≤ 15 ∧
      n 5 ≤ 15 ∧ within 6 1 15 ∧ within 7 1 4 ∧ n 8 ≤ 1) ∧
    (∀ g, passes (.gate g) ↔ n 0 ≤ 3 ∧ 1 ≤ n 1) ∧
    (∀ c, passes (.channel c) ↔ n 0 ≤ 5 ∧ (n 1 ≤ 7 ∨ n 1 = 255) ∧ n 2 ≤ 3 ∧ n 3 ≤ 2 ∧ i 5 ≠ 0 ∧ i 5 ≠ -32768 ∧
      n 6 < n 7 ∧ within 9 1 16 ∧ i 11 < i 10 ∧ i 10 ≤ i 12 ∧ i 13 < i 12 ∧ n 14 ≤ 1) ∧
    (∀ z, passes (.zone z) ↔ niche 0 ∧ niche 1 ∧ n 0 ≤ n 2 ∧ n 2 ≤ n 1 ∧ n 3 ≤ 120 ∧ n 4 ≤ 7 ∧ n 5 ≤ 1) ∧
    (∀ f, passes (.fan f) ↔ n 0 ≤ 1 ∧ niche 1 ∧ (n 2 ≤ 3 ∨ n 2 = 255) ∧ within 3 1 8 ∧ 1 ≤ n 4 ∧ within 5 1 100 ∧
      n 6 ≤ 120 ∧ within 7 1 60 ∧ n 8 ≤ 600 ∧ n 9 ≤ 1 ∧ n 10 ≤ 1 ∧ within 11 1 100 ∧ within 12 1 100 ∧ n 11 ≤ n 12 ∧
      contact 13 ∧ contact 14 ∧ contact 15) ∧
    (passes .gallery ↔ n 0 ≤ 100 ∧ n 1 ≤ 100 ∧ n 2 ≤ 100 ∧
      (n 3 = 255 ∨ ∃ c : Fin 12, n 3 = c.val ∧ cfg.channels[c].kind = .pressure)) ∧
    (∀ d, passes (.door d) ↔ niche 0 ∧ n 1 ≤ 1 ∧ within 2 1 10 ∧ n 3 ≤ 3600 ∧ within 4 1 30 ∧ within 5 1 60 ∧
      contact 6 ∧ contact 7 ∧ contact 8) ∧
    (∀ t, passes (.template t) ↔ (∀ k, k < 15 → (lowByte (w k)).toNat ≤ 2 ∨ ((lowByte (w k)).toNat ≤ 4 ∧
      1 ≤ (highByte (w k)).toNat ∧ (highByte (w k)).toNat ≤ 100)) ∧ n 15 ≤ 1 ∧ n 16 ≤ 8) ∧
    (passes .link ↔ n 0 ≤ 1 ∧ n 1 ≤ 1) ∧
    (∀ c, (∀ k ∈ namedByChecks cfg (.channel c) w, k.ok = true) ↔ (cfg.gallery.pressureChannel = some c → n 0 = 4)) ∧
    -- the reasons of a local niche
    (∀ r k, (r = .span ∧ k = 3) ∨ (∃ z, r = .zone z ∧ (k = 0 ∨ k = 1 ∨ k = 2)) ∨ (∃ f, r = .fan f ∧ k = 1) ∨
      (∃ d, r = .door d ∧ k = 0) → (fails r k .range ↔ 7 < n k)) ∧
    (fails .span 3 .reference ↔ n 2 ≤ n 3) ∧
    (∀ r k, (∃ z, r = .zone z ∧ (k = 0 ∨ k = 1)) ∨ (∃ f, r = .fan f ∧ k = 1) ∨ (∃ d, r = .door d ∧ k = 0) →
      (fails r k .reference ↔ cfg.span.nicheCount ≤ n k)) ∧
    (∀ d, 7 < n 0 → ∃ c, (itemChecks cfg (.door d) w).find? (fun c => !c.ok) = some c ∧ c.reason = .range) ∧
    (∀ z, fails (.zone z) 1 .order ↔ n 1 < n 0) ∧ (∀ z, fails (.zone z) 2 .order ↔ n 2 < n 0 ∨ n 1 < n 2) ∧
    -- what the fields mean once stored
    (let item := (cfg.store .span w).span
     item.spanId = lowByte (w 0) ∧ item.firstNiche = n 1 ∧ item.nicheCount = n 2 ∧ item.galleryNiche = n 3 ∧
     item.doorReach = n 4 ∧ item.galleryReach = n 5 ∧ item.noticeReach = n 6 ∧ item.startSlots = n 7 ∧
     (item.fair = true ↔ w 8 = 1)) ∧
    (∀ g : Fin 4, let item := (cfg.store (.gate g) w).gates[g]
      (n 0 = 0 → item.tick = .ms1) ∧ (n 0 = 1 → item.tick = .ms10) ∧ (n 0 = 2 → item.tick = .ms100) ∧
      (n 0 = 3 → item.tick = .s1) ∧ item.reload = n 1) ∧
    (∀ c : Fin 12, let item := (cfg.store (.channel c) w).channels[c]
      (n 0 = 0 → item.kind = .co) ∧ (n 0 = 1 → item.kind = .no2) ∧ (n 0 = 2 → item.kind = .opacity) ∧
      (n 0 = 3 → item.kind = .velocity) ∧ (n 0 = 4 → item.kind = .pressure) ∧ (n 0 = 5 → item.kind = .generic) ∧
      (∀ z : Fin 8, item.zone = some z ↔ n 1 = z.val) ∧ (n 2 ≤ 3 → item.gate.val = n 2) ∧
      (n 3 = 0 → item.filter = .off) ∧ (n 3 = 1 → item.filter = .fast) ∧ (n 3 = 2 → item.filter = .slow) ∧
      item.zeroCount = n 4 ∧ item.gain = i 5 ∧ item.floor = n 6 ∧ item.ceiling = n 7 ∧ item.fullScale = i 8 ∧
      item.depth = n 9 ∧ item.warnOn = i 10 ∧ item.warnOff = i 11 ∧ item.alarmOn = i 12 ∧ item.alarmOff = i 13 ∧
      (item.trigger = true ↔ w 14 = 1)) ∧
    (∀ z : Fin 8, let item := (cfg.store (.zone z) w).zones[z]
      item.first = n 0 ∧ item.last = n 1 ∧ item.centre = n 2 ∧ item.confirmTime = n 3 ∧
      (n 4 ≤ 7 → item.template.val = n 4) ∧ (item.mirror = true ↔ w 5 = 1)) ∧
    (∀ f : Fin 8, let item := (cfg.store (.fan f) w).fans[f]
      (item.role = .gallery ↔ w 0 = 1) ∧ item.niche = n 1 ∧ (∀ g : Fin 4, item.tachGate = some g ↔ n 2 = g.val) ∧
      item.pulsesPerRev = n 3 ∧ item.ratedRpm = n 4 ∧ item.underspeedPercent = n 5 ∧ item.settleTime = n 6 ∧
      item.startLimit = n 7 ∧ item.rundownTime = n 8 ∧ (item.flyingRestart = true ↔ w 9 = 1) ∧
      (item.normalDirection = .rev ↔ w 10 = 1) ∧ item.speedL1 = n 11 ∧ item.speedL2 = n 12 ∧
      contactIs item.running 13 ∧ contactIs item.fault 14 ∧ contactIs item.localSwitch 15) ∧
    (let item := (cfg.store .gallery w).gallery
     item.pressuriseSpeed = n 0 ∧ item.reliefSpeed = n 1 ∧ item.outflowSpeed = n 2 ∧
     (∀ c : Fin 12, item.pressureChannel = some c ↔ n 3 = c.val) ∧ item.openLimit = i 4) ∧
    (∀ d : Fin 4, let item := (cfg.store (.door d) w).doors[d]
      item.niche = n 0 ∧ (item.initialSecure = true ↔ w 1 = 1) ∧ item.boltTime = n 2 ∧ item.heldOpenTime = n 3 ∧
      item.reliefTime = n 4 ∧ item.assistTime = n 5 ∧ contactIs item.closed 6 ∧ contactIs item.bolted 7 ∧
      contactIs item.push 8) ∧
    (∀ t : Fin 8, let item := (cfg.store (.template t) w).templates[t]
      (∀ k : Fin 15, let e := item.entries[k]
        e.speed = (highByte (w k.val)).toNat ∧ (lowByte (w k.val) = 0 → e.action = .none) ∧
        (lowByte (w k.val) = 1 → e.action = .keep) ∧ (lowByte (w k.val) = 2 → e.action = .stop) ∧
        (lowByte (w k.val) = 3 → e.action = .fwd) ∧ (lowByte (w k.val) = 4 → e.action = .rev)) ∧
      (item.substitute = true ↔ w 15 = 1) ∧ item.minRunning = n 16) ∧
    (let item := (cfg.store .link w).link
     (item.upEnabled = true ↔ w 0 = 1) ∧ (item.downEnabled = true ↔ w 1 = 1)) ∧
    -- where the words of an item stand
    (∀ m k, itemField m .span k = m.readWord (2 * k) ∧ itemField m .gallery k = m.readWord (0x0340 + 2 * k) ∧
      itemField m .link k = m.readWord (0x0510 + 2 * k)) ∧
    (∀ m k, (∀ g : Fin 4, itemField m (.gate g) k = m.readWord (0x0020 + 4 * g.val + 2 * k)) ∧
      (∀ c : Fin 12, itemField m (.channel c) k = m.readWord (0x0040 + 32 * c.val + 2 * k)) ∧
      (∀ z : Fin 8, itemField m (.zone z) k = m.readWord (0x01C0 + 16 * z.val + 2 * k)) ∧
      (∀ f : Fin 8, itemField m (.fan f) k = m.readWord (0x0240 + 32 * f.val + 2 * k)) ∧
      (∀ d : Fin 4, itemField m (.door d) k = m.readWord (0x0350 + 32 * d.val + 2 * k)) ∧
      (∀ t : Fin 8, itemField m (.template t) k = m.readWord (0x03D0 + 40 * t.val + 2 * k)))

/-- Section 10.5 with R59, R75, R86, R110, R124, R130, R148, R151, R182: in RUNNING each word of an image record shows the
fields its table gives; outside RUNNING every record reads zero. (Fields that have no meaning in the case shown: log 23; the
hold time left: log 38; a zone that asks for creation: log 34.) -/
def Obligations.TheImageRecordsShowTheBlocks : Prop :=
  ∀ s : State,
    let word (r : RecordId) (offset : Nat) : Word := (s.recordWords r)[offset / 2]?.getD 0
    let long (r : RecordId) (offset : Nat) : DWord := word r (offset + 2) ++ word r offset
    let small (n : Nat) : Word := BitVec.ofNat 16 n
    let flag (b : Bool) : Nat := if b then 1 else 0
    (s.running = false → ∀ r offset, word r offset = 0) ∧
    (s.running = true →
      (∀ r, word r 0 = wordOf s.cm.sequences[r.place] r.kindCode) ∧
      (∀ c : Fin 12,
        let e := s.channels[c]
        let w := word (.channel c)
        w 2 = packed s.active.channels[c].kind.code ((s.active.channels[c].zone.map (·.val)).getD 255) ∧
        w 4 = packed e.status.code e.band.code ∧
        w 6 = (flagBit 0 (decide (e.history = [])) ||| flagBit 1 e.summary ||| flagBit 2 e.out ||| flagBit 3 e.zero.isSome |||
          wordOf 0 (BitVec.ofNat 8 e.history.length)) ∧
        w 8 = BitVec.ofInt 16 (e.history.getLast?.getD 0) ∧
        w 10 = (if e.history = [] then 0 else BitVec.ofInt 16 (averageOf e.history)) ∧
        w 12 = small s.active.channels[c].zeroCount ∧ w 14 = small e.lastCount ∧
        long (.channel c) 16 = BitVec.ofNat 32 e.windowLength ∧ long (.channel c) 20 = e.windowTime) ∧
      (∀ f : Fin 8,
        let e := s.fans.fans[f]
        let w := word (.fan f)
        w 2 = packed s.active.fans[f].role.code e.state.code ∧ w 4 = packed (flag e.out) e.cause.code ∧
        w 6 = packed e.owner.code e.demand ∧
        (e.target = .stop → w 8 = 0) ∧
        (∀ dir speed, e.target = .run dir speed → w 8 = (packed speed 0 ||| flagBit 8 (decide (dir = .rev)))) ∧
        (∀ dir speed, e.request = .manual dir speed → w 10 = (packed speed 0 ||| flagBit 8 (decide (dir = .rev)))) ∧
        (e.request = .auto → w 10 = 0x0200) ∧
        (e.state = .starting ∨ e.state = .running → w 12 = (packed 1 e.target.speed ||| flagBit 1 e.reverse)) ∧
        (e.state ≠ .starting → e.state ≠ .running → w 12 = flagBit 1 e.reverse) ∧
        w 14 = (flagBit 0 e.running ||| flagBit 1 e.fault ||| flagBit 2 e.localSwitch) ∧
        (f ∉ s.fans.queue → w 16 = packed 0 (flag (decide (e.state = .starting)))) ∧
        (∀ x y, s.fans.queue = x ++ f :: y → f ∉ x → w 16 = packed (x.length + 1) (flag (decide (e.state = .starting)))) ∧
        w 18 = flagBit 0 e.underspeed ∧ w 20 = small e.lastRpm ∧ long (.fan f) 22 = e.entered) ∧
      (∀ d : Fin 4,
        let e := s.doors.doors[d]
        let w := word (.door d)
        w 2 = packed e.state.code (flag e.secureMode) ∧ w 4 = packed (flag e.secureWanted) (flag e.boltFault) ∧
        w 6 = (flagBit 0 e.forcedFlag ||| flagBit 1 e.heldOpenFlag ||| flagBit 2 e.assistTimeoutFlag ||| packed 0 e.path.code) ∧
        w 8 = (flagBit 0 (decide (e.state = .bolting ∨ e.state = .secured ∨ e.state = .forced)) ||| flagBit 1 e.assist |||
          flagBit 8 e.closed ||| flagBit 9 e.bolted ||| flagBit 10 e.push) ∧
        w 10 = small (s.active.span.firstNiche + s.active.doors[d].niche) ∧ long (.door d) 12 = e.entered) ∧
      (∀ z : Fin 8,
        let e := s.zones[z]
        let w := word (.zone z)
        w 2 = packed e.state.code e.worst.code ∧ w 4 = packed e.worst.demand (flag e.evidence) ∧
        w 6 = ((e.ident.map Ident.word).getD 0xFFFF) ∧ long (.zone z) 8 = (e.confirm.map (·.since)).getD 0) ∧
      (∀ k : Fin 4,
        let w := word (.incident k)
        (s.incidents.slots[k] = none → w 6 = 0xFFFF ∧ ∀ offset, 2 ≤ offset → offset / 2 ≠ 3 → w offset = 0) ∧
        ∀ e, s.incidents.slots[k] = some e →
          w 2 = packed e.state.code e.origin.code ∧
          w 4 = packed (if e.resumeAcknowledged then 2 else 1) (flag e.governing) ∧ w 6 = e.ident.word ∧
          w 8 = small e.position ∧ w 10 = packed ((e.zone.map (·.val)).getD 255) e.template.val ∧
          w 12 = packed (flag e.mirror) e.clearLeft ∧ long (.incident k) 14 = e.start ∧
          long (.incident k) 18 = e.lastRefresh ∧
          w 22 = packed ((e.evidence[0]?.map (·.val)).getD 255) ((e.evidence[1]?.map (·.val)).getD 255) ∧
          w 24 = packed ((e.evidence[2]?.map (·.val)).getD 255) ((e.evidence[3]?.map (·.val)).getD 255) ∧
          w 26 = small e.deficit ∧ long (.incident k) 28 = e.entered) ∧
      (∀ p : Port,
        let e := s.link.get p
        let w := word (.link p)
        let enabled := flag (portEnabled s.active p)
        (e.neighbour = none → w 2 = packed enabled 0 ∧ w 4 = packed 255 0 ∧ w 6 = 0 ∧ w 8 = 0xFFFF ∧
          long (.link p) 10 = 0 ∧ w 14 = packed 0 255) ∧
        (∀ h, e.neighbour = some h → w 2 = packed enabled 1 ∧ w 4 = wordOf h.hello.spanId h.hello.nicheCount ∧
          w 6 = h.hello.firstNiche ∧ w 8 = ((h.hello.governing.map Ident.word).getD 0xFFFF) ∧ long (.link p) 10 = h.lastHeard ∧
          w 14 = wordOf (if h.migrated then 1 else 0) h.previous) ∧
        w 16 = wordOf (if e.holdDue.isSome then 1 else 0) e.holdShown ∧
        w 18 = packed (flag e.holdMark) e.receiveQueue.length ∧ w 20 = small e.transmitQueue.length ∧
        w 22 = small e.rejected ∧ w 24 = small e.overrun ∧ w 26 = small e.dropped) ∧
      (let u := s.incidents
       let w := word .span
       w 2 = wordOf s.active.span.spanId (BitVec.ofNat 8 s.active.span.nicheCount) ∧ w 4 = small s.active.span.firstNiche ∧
       w 6 = ((u.governingIdent.map Ident.word).getD 0xFFFF) ∧
       w 8 = packed ((List.finRange 4).countP fun k => u.slots[k].isSome) (flag u.overflow) ∧ w 10 = wordOf u.localSeq 0 ∧
       w 12 = small u.overflowCount ∧
       ∀ k, k < 8 →
         (∀ e, u.cleared[k]? = some e → w (14 + 6 * k) = e.ident.word ∧ long .span (16 + 6 * k) = e.joined) ∧
         (u.cleared[k]? = none → w (14 + 6 * k) = 0xFFFF ∧ long .span (16 + 6 * k) = 0)) ∧
      (let u := s.doors
       let w := word .gallery
       (∀ n, n < 16 → (w 4).getLsbD n = (List.finRange 4).any fun d =>
         (decide (n = d.val) && decide (u.doors[d].state = .opening)) ||
         (decide (n = 8 + d.val) && (decide (u.doors[d].state = .openLeaf) || decide (u.doors[d].state = .heldOpen)))) ∧
       (u.demand = .idle → w 2 = 0) ∧ (u.demand = .pressurise → w 2 = packed 1 s.active.gallery.pressuriseSpeed) ∧
       (u.demand = .relief → w 2 = packed 2 s.active.gallery.reliefSpeed) ∧
       (u.demand = .outflow → w 2 = packed 3 s.active.gallery.outflowSpeed) ∧
       (let niche := s.active.span.firstNiche + s.active.span.galleryNiche
        let reach := s.active.span.galleryReach
        w 6 = small (u.reach.countP fun r =>
          decide (r.position ≤ niche + reach) && decide (niche ≤ r.position + reach))) ∧
       w 8 = packed u.pressure.status.code (flag u.pressure.average.isSome) ∧
       w 10 = BitVec.ofInt 16 (u.pressure.average.getD 0) ∧ long .gallery 12 = u.demandEntered) ∧
      (let r := s.placement.record
       let w := word .placement
       (r.governing = none → w 2 = 0xFFFF ∧ w 4 = 0 ∧ w 6 = 0) ∧
       (∀ g, r.governing = some g → w 2 = g.ident.word ∧ w 4 = small g.position ∧ w 6 = packed g.template.val (flag g.mirror)) ∧
       (∀ k, k < 8 →
         (∀ e, r.list[k]? = some e → w (8 + 4 * k) = packed e.fan.val e.action.code ∧
           let detail (speed : Nat) : Word := packed speed 0 ||| flagBit 8 e.standsFor.isSome |||
             wordNat ((e.standsFor.map fun f => f.val + 1).getD 0) <<< 9
           (e.action = .keep ∨ e.action = .stop → w (10 + 4 * k) = detail 0) ∧
           (∀ dir speed, e.action = .run dir speed → w (10 + 4 * k) = detail speed)) ∧
         (r.list[k]? = none → w (8 + 4 * k) = packed 255 0 ∧ w (10 + 4 * k) = 0)) ∧
       w 40 = packed r.running r.unmet ∧
       (∀ n, n < 16 → (w 42).getLsbD n = ((List.finRange 8).any (fun f => decide (f ∈ r.unmetFans) && decide (n = f.val)) ||
         (decide (n = 8) && decide (0 < r.deficit)))) ∧
       w 44 = small r.deficit ∧ long .placement 46 = r.time))

/-! ## Work decks (chapter 2) -/

/-- R21, R22, R23, R25, R26: a control event acts on the change that its value shows against the last-seen value, which it
then replaces. -/
def Obligations.ControlEventActsOnTheChangeItShows : Prop :=
  ∀ (d : Fin 4) (v : Word) (rest : List DeckEvent) (s : State),
    s.running = true → s.decks[d].finishing = none → s.mail.deckEvents[d] = .control v :: rest →
    Acts (.controlEvent d) s fun a =>
      let o := s.decks[d]
      let seen : Deck := { o with seenEnable := v.getLsbD 0, seenSuspend := v.getLsbD 1 }
      (v.getLsbD 0 = true → o.seenEnable = false → s.layoutValid d → a.decks[d] = { seen with
        base := o.baseWord.toNat, length := o.lengthWord.toNat, done := 0, accepted := 0
        state := if v.getLsbD 1 then .suspended else .waiting }) ∧
      (v.getLsbD 0 = true → o.seenEnable = false → ¬s.layoutValid d →
        a.decks[d] = { seen with state := .stopped, error := .header, inFlight := none }) ∧
      (v.getLsbD 0 = false → o.seenEnable = true → a.decks[d] = { seen with
        state := .off, error := .none, accepted := 0, done := 0, taken := 0, inFlight := none }) ∧
      (v.getLsbD 0 = true → o.seenEnable = true → v.getLsbD 1 = true → o.seenSuspend = false →
        a.decks[d] = { seen with state :=
          if o.state = .waiting then .suspended else if o.state = .running then .suspendPending else o.state }) ∧
      (v.getLsbD 0 = true → o.seenEnable = true → v.getLsbD 1 = false → o.seenSuspend = true →
        a.decks[d] = { seen with state :=
          if o.state = .suspended then .waiting else if o.state = .suspendPending then .running else o.state }) ∧
      (v.getLsbD 0 = o.seenEnable → v.getLsbD 0 = false ∨ v.getLsbD 1 = o.seenSuspend → a.decks[d] = seen) ∧
      DeckEventFrame { s with mail := { s.mail with deckEvents := s.mail.deckEvents.set d rest } } a d

/-- R24, R26: a post event is ignored in OFF and STOPPED; elsewhere a post of length or more and a post that would leave
fewer cards outstanding stop the deck, and any other becomes the accepted post. -/
def Obligations.PostEventIsIgnoredAcceptedOrStopsTheDeck : Prop :=
  ∀ (d : Fin 4) (v : Word) (rest : List DeckEvent) (s : State),
    s.running = true → s.decks[d].finishing = none → s.mail.deckEvents[d] = .post v :: rest →
    Acts (.postEvent d) s fun a =>
      let o := s.decks[d]
      let left (p : Nat) : Nat := (p + o.length - o.done) % o.length
      (o.state = .off ∨ o.state = .stopped → a.decks[d] = o) ∧
      (o.state ≠ .off → o.state ≠ .stopped →
        (o.length ≤ v.toNat → a.decks[d] = { o with state := .stopped, error := .postRange, inFlight := none }) ∧
        (v.toNat < o.length → left v.toNat < left o.accepted →
          a.decks[d] = { o with state := .stopped, error := .postWithdraw, inFlight := none }) ∧
        (v.toNat < o.length → left o.accepted ≤ left v.toNat → a.decks[d] = { o with accepted := v.toNat })) ∧
      DeckEventFrame { s with mail := { s.mail with deckEvents := s.mail.deckEvents.set d rest } } a d

/-- R27, R28, R31, R38: the free executor is granted to the deck in turn, and the grant and the take are one event: the card
at done, read whole, is in flight, its deadline runs if WAIT asks for one, and it is dispatched, or answered BAD_KIND if its
kind is unknown. Nothing is granted while the executor is busy or no deck is ready. -/
def Obligations.TheDeckInTurnIsGrantedAndItsCardTaken : Prop :=
  ∀ s : State, s.running = true →
    (s.executor.isSome = true ∨ (∀ d : Fin 4, s.decks[d].ready = false) → exec .cardTake s = .next s) ∧
    (s.executor = none → (∃ d : Fin 4, s.decks[d].ready = true) → ∃ d, s.inTurn d) ∧
    (∀ d, s.executor = none → s.inTurn d → Acts .cardTake s fun a =>
      let o := s.decks[d]
      ∃ card : Card,
        (∀ k : Fin 16, card.words[k] = s.cm.bytes.readWord (o.base + 32 * o.done + 2 * k.val)) ∧
        a.decks[d] = { o with
          state := .running, taken := wordNat (o.base + 32 * o.done)
          inFlight := some { slot := o.done, card := card
                             deadline := if card.wait = true ∧ card.deadline ≠ 0 then some (s.now + 1000 * card.deadline)
                               else none } } ∧
        (∀ k : Fin 4, k ≠ d → a.decks[k] = s.decks[k]) ∧
        a.executor = some { deck := d, card := card, answer := if card.kind = none then some (.refuse .badKind) else none } ∧
        a = { s with decks := a.decks, executor := a.executor, lastGranted := if d = 0 then s.lastGranted else d })

/-- R28, R30, R31, R36, R37: a completion is two accesses. The card write puts outcome, reason, results and time into the card, the
condition only where the answer carries one, and nothing else of memory, and removes the attachment, while done has not yet
moved; the header write then advances done, clears the taken-card offset, sets NOTIFY if the card asks for it, and frees the
executor of an immediate answer. Between them the deck takes no other event. With no card in flight a completion writes
nothing. R35: a card whose deadline passes while it is in flight completes TIMED_OUT, a FAN_REQUEST with its fan's status as
it then stands (R105) and any other kind with zeros; a deadline that has not passed, or was never started, does nothing.
(The two accesses as two commands: log 6. The results of a FAN_REQUEST that times out, an answer that comes after its card has
completed, and one that waits at the deadline: logs 18, 31, 33.) -/
def Obligations.CompletionsAndDeadlinesWriteTheCardAndTheHeader : Prop :=
  (∀ (d : Fin 4) (ans : Answer) (s : State), s.running = true → s.cm.bytes.wf = true → s.decks[d].finishing = none →
    (∀ f, s.decks[d].inFlight = some f →
      (s.immediateFor d ans → Acts (.cardCompletion d) s fun a => WritesCard s a d f ans true) ∧
      (s.sentFor d ans → Acts (.cardCompletion d) s fun a => WritesCard s a d f ans false)) ∧
    (s.decks[d].inFlight = none →
      (s.immediateFor d ans → Acts (.cardCompletion d) s fun a => a = { s with executor := none }) ∧
      (s.sentFor d ans → Acts (.cardCompletion d) s fun a =>
        a = { s with mail := { s.mail with completions := s.mail.completions.set d none } }))) ∧
  (∀ (d : Fin 4) (f : Finishing) (s : State), s.running = true → s.decks[d].finishing = some f →
    Acts (.cardCompletion d) s (fun a => WritesHeader s a d f) ∧
    exec (.controlEvent d) s = .next s ∧ exec (.postEvent d) s = .next s ∧
    (s.decks[d].inFlight = none → exec (.deadlineExpiry d) s = .next s)) ∧
  (∀ (d : Fin 4) (f : InFlight) (s : State), s.running = true → s.cm.bytes.wf = true → s.decks[d].inFlight = some f →
    (∀ due, f.deadline = some due → due ≤ s.now →
      (∀ k : Fin 8, f.card.kind = some .fanRequest → f.card.target = BitVec.ofNat 16 k.val →
        Acts (.deadlineExpiry d) s fun a => WritesCard s a d f
          { outcome := .timedOut, reason := .none, results := .fanStatus k, condition := none } false) ∧
      (f.card.kind ≠ some .fanRequest → Acts (.deadlineExpiry d) s fun a => WritesCard s a d f
        { outcome := .timedOut, reason := .none, results := .words 0 0 0 0, condition := none } false)) ∧
    (∀ due, f.deadline = some due → s.now < due → exec (.deadlineExpiry d) s = .next s) ∧
    (f.deadline = none → exec (.deadlineExpiry d) s = .next s))

/-- R39: a MARK completes DONE on its immediate answer with r0-r3 zero, whatever stands in its target, its arguments and its
WAIT and RECORD flags. -/
def Obligations.MarkIsAnsweredDoneAtOnce : Prop :=
  ∀ (t : Take) (s : State), s.dispatched t .mark →
    AnswersAlone .markCard s t { outcome := .done, reason := .none, results := .words 0 0 0 0, condition := none }

/-- R18, R19, R40, R41 with the owning blocks' conditions of R84, R108, R128 and R129: a LOAD is decided in the order name,
span item, condition, validation, commit; only a commit changes the active configuration, and only that item of it, and the
configuration block stays as it is. (Which of several failing checks a refused LOAD answers: log 44; that it waits while a
zone's request is open: log 25.) -/
def Obligations.LoadIsDecidedInOrder : Prop :=
  ∀ (t : Take) (s : State), s.dispatched t .load →
    let cls := (lowByte t.card.target).toNat
    let idx := (highByte t.card.target).toNat
    ((∀ r : ItemRef, ¬(r.classNo = cls ∧ r.index = idx)) → Refuses .loadCard s t .badTarget) ∧
    (∀ z : Fin 8, s.loadAllowed (.zone z) = true ↔ s.zones[z].state = .quiet) ∧
    (∀ f : Fin 8, s.loadAllowed (.fan f) = true ↔ s.fans.fans[f].state = .stopped ∨ s.fans.fans[f].state = .service) ∧
    (s.loadAllowed .gallery = true ↔ s.doors.demand = .idle) ∧
    (∀ d : Fin 4, s.loadAllowed (.door d) = true ↔ s.doors.doors[d].state = .secured ∨
      s.doors.doors[d].state = .released ∨ s.doors.doors[d].state = .service) ∧
    (∀ r : ItemRef, r.classNo = 1 ∨ r.classNo = 2 ∨ r.classNo = 7 ∨ r.classNo = 8 → s.loadAllowed r = true) ∧
    (∀ r : ItemRef, r.classNo = cls → r.index = idx →
      let words := itemField s.cm.bytes r
      let checks := itemChecks s.active r words ++ namedByChecks s.active r words
      (r = .span → Refuses .loadCard s t .notPermitted) ∧
      (r ≠ .span → (∀ z : Fin 8, r = .zone z → s.mail.requests[z] = none) →
        (s.loadAllowed r = false → Refuses .loadCard s t .busy) ∧
        (s.loadAllowed r = true →
          (∀ c, checks.find? (fun c => !c.ok) = some c → AnswersAlone .loadCard s t
            { outcome := .refused, reason := .badConfig, condition := none
              results := .words (wordNat c.reason.code) (wordNat c.field)
                ((c.other.map fun o => wordNat o.classNo).getD 0xFFFF)
                ((c.other.map fun o => wordNat o.index).getD 0xFFFF) }) ∧
          ((∀ c ∈ checks, c.ok = true) → Acts .loadCard s fun a =>
            a.active = s.active.store r words ∧ a.cm = s.cm ∧ DoneWith a t (wordNat cls) (wordNat idx) ∧
            a.decks = s.decks ∧ a.regs.runState = s.regs.runState ∧ a.candidate = s.candidate))))

/-! ## Inputs, counters and gate timers (chapter 3) -/

/-- R43, R44, R46: while the sample of this tick is to come, the level that a contact's pin is given takes it: a contact that
shows its debounced level drops any candidate, and one that shows the opposite level makes a candidate or, once the debounce
time has passed since the candidate's first sample, is confirmed; a confirmed change is delivered to the owner behind the
earlier ones. Once the sample has been taken, and outside RUNNING, only the pin moves: a level that is gone by the next sample
is not seen. (The command that moves the pin: log 37.) -/
def Obligations.ContactChangesAreConfirmedAfterTheDebounceTime : Prop :=
  ∀ (i : Fin 36) (pin : Bool) (s : State),
    let c := { s.contacts[i] with pin := pin }
    (s.running = false ∨ c.due = false → exec (.contactConfirm i pin) s = .next { s with
      contacts := s.contacts.set i c }) ∧
    (s.running = true → c.due = true → ∃ t, exec (.contactConfirm i pin) s = .next t ∧
      c.TakesSample t.contacts[i] s.now s.mail.contactChanges[i] t.mail.contactChanges[i] ∧
      (∀ j : Fin 36, j ≠ i → t.contacts[j] = s.contacts[j] ∧ t.mail.contactChanges[j] = s.mail.contactChanges[j]) ∧
      t = { s with contacts := t.contacts, mail := { s.mail with contactChanges := t.mail.contactChanges } })

/-- R48, R49: with filter FAST or SLOW a level that a pin is given takes the next sample of this tick, if one is to come, and
the filtered level takes a level that two consecutive samples show, its rise being one pulse; with none to come, only the pin
moves. With OFF each rising edge of the pin is a pulse. A change of the filter setting takes effect at the next sample. Outside
RUNNING only the pin moves. A pulse adds one to the count of a bound or pending counter up to 65535 and never to that of a
counter bound to no gate. (The command that moves the pin: log 36; which sample a change to or from OFF takes: log 56.) -/
def Obligations.PulsesAreFilteredAndCounted : Prop :=
  ∀ (i : Fin 12) (f : Fin 8) (pin : Bool) (s : State),
    let after (o q : Pulse) : Prop :=
      let pulse := o.filter = .off ∧ pin = true ∧ o.pin = false ∧ o.binding ≠ .none
      let p := { o with pin := pin, count := if pulse then min (o.count + 1) (max o.count 65535) else o.count }
      (o.SampleDue → p.TakesSamples q 1) ∧ (¬o.SampleDue → q = p)
    (s.running = true →
      (∃ t, exec (.pulseCount (.mp i) pin) s = .next t ∧ after s.measured[i] t.measured[i] ∧
        (∀ j : Fin 12, j ≠ i → t.measured[j] = s.measured[j]) ∧ t = { s with measured := t.measured }) ∧
      (∃ t, exec (.pulseCount (.tp f) pin) s = .next t ∧ after s.tach[f] t.tach[f] ∧
        (∀ j : Fin 8, j ≠ f → t.tach[j] = s.tach[j]) ∧ t = { s with tach := t.tach })) ∧
    (s.running = false →
      exec (.pulseCount (.mp i) pin) s = .next { s with measured := s.measured.set i { s.measured[i] with pin := pin } } ∧
      exec (.pulseCount (.tp f) pin) s = .next { s with tach := s.tach.set f { s.tach[f] with pin := pin } })

/-- R50, R51, R53, R56: at a gate's window end every counter bound to it hands over its count, saturated mark and the window
length that was in force, and restarts from 0; a pending counter discards its count and is bound; pending values of the gate
come into force and the next window starts. -/
def Obligations.WindowEndHandsOverTheBoundCounters : Prop :=
  ∀ (g : Fin 4) (s : State), s.running = true →
    (s.gates[g].remaining ≠ 0 → exec (.gateWindowEnd g) s = .next s) ∧
    (s.gates[g].remaining = 0 → Acts (.gateWindowEnd g) s fun a =>
      let o := s.gates[g]
      let step (p q : Pulse) (m n : List Window) : Prop :=
        (p.binding = .bound g → q = { p with count := 0 } ∧
          n = m ++ [{ count := p.count, saturated := decide (p.count = 65535), lengthMs := o.reload * o.tick.ms }]) ∧
        (p.binding = .pending g → q = { p with count := 0, binding := .bound g } ∧ n = m) ∧
        (p.binding ≠ .bound g → p.binding ≠ .pending g → q = p ∧ n = m)
      (o.pending = none → a.gates[g] = { o with remaining := o.reload, windowStart := s.now }) ∧
      (∀ item, o.pending = some item → a.gates[g] =
        { tick := item.tick, reload := item.reload, remaining := item.reload, windowStart := s.now, pending := none }) ∧
      (∀ h : Fin 4, h ≠ g → a.gates[h] = s.gates[h]) ∧
      (∀ i : Fin 12, step s.measured[i] a.measured[i] s.mail.windows[i] a.mail.windows[i]) ∧
      (∀ f : Fin 8, step s.tach[f] a.tach[f] s.mail.tachWindows[f] a.mail.tachWindows[f]) ∧
      a = { s with gates := a.gates, measured := a.measured, tach := a.tach
                   mail := { s.mail with windows := a.mail.windows, tachWindows := a.mail.tachWindows } })

/-- R57, R92: at a period start every speed reference output takes the duty last set: the live target's speed in STARTING
and RUNNING, and 0 in every other state. (When a period starts: log 40.) -/
def Obligations.SpeedReferencesTakeTheDutyAtThePeriodStart : Prop :=
  ∀ s : State, s.running = true → s.periodDue = true → Acts .speedReferencePeriodStart s fun a =>
    (∀ f : Fin 8,
      (s.fans.fans[f].state = .starting ∨ s.fans.fans[f].state = .running → a.sref[f] = s.fans.fans[f].target.speed) ∧
      (s.fans.fans[f].state ≠ .starting → s.fans.fans[f].state ≠ .running → a.sref[f] = 0)) ∧
    a = { s with sref := a.sref, periodDue := false }

/-! ## Air measurement and zones (chapter 4) -/

/-- R61, R62, R63: a hand-over that takes no zero gives the channel the status FAULT, OVER or OK by its count, joins the
value of OVER or OK to the history, which keeps at most depth values, records the window, and delivers a change of status or
band to the zone evaluator and the reading of the gallery's pressure channel to the door controller. (A window handed over
before a LOAD that changes its gate and taken after it: log 49.) -/
def Obligations.WindowHandoverJudgesTheCount : Prop :=
  ∀ (c : Fin 12) (w : Window) (rest : List Window) (s : State),
    s.running = true → s.mail.windows[c] = w :: rest → ¬TakesZero s.active.channels[c] s.channels[c] w →
    Acts (.windowHandover c) s fun a =>
      let item := s.active.channels[c]
      let o := s.channels[c]
      let n := a.channels[c]
      let joins (v : Int) : Prop := n.history = (o.history ++ [v]).drop (o.history.length + 1 - item.depth)
      (w.count < item.floor → n.status = .fault ∧ n.history = o.history ∧ n.band = o.band ∧ n.summary = o.summary) ∧
      (item.floor ≤ w.count → item.ceiling < w.count ∨ w.saturated = true → n.status = .over ∧ joins item.fullScale) ∧
      (item.floor ≤ w.count → w.count ≤ item.ceiling → w.saturated = false → n.status = .ok ∧
        joins (max (-32767) (min 32767 ((((w.count : Int) - item.zeroCount) * item.gain).tdiv 256)))) ∧
      n.lastCount = w.count ∧ n.windowLength = w.lengthMs ∧ n.windowTime = s.regs.seconds ∧ n.out = o.out ∧
      n.zero = o.zero ∧
      (n.status ≠ o.status ∨ n.band ≠ o.band → ∀ z : Fin 8, a.mail.reevaluations[z] =
        s.mail.reevaluations[z] + (if item.zone = some z then 1 else 0)) ∧
      (n.status = o.status → n.band = o.band → a.mail.reevaluations = s.mail.reevaluations) ∧
      a.mail.readings = s.mail.readings ++ (if s.active.gallery.pressureChannel = some c then
        [{ status := n.status, average := if n.history = [] then none else some (averageOf n.history) }] else []) ∧
      (∀ k : Fin 12, k ≠ c → a.channels[k] = s.channels[k]) ∧
      a = { s with channels := a.channels, mail := { s.mail with
        windows := s.mail.windows.set c rest, reevaluations := a.mail.reevaluations, readings := a.mail.readings } }

/-- R64, R65: at each hand-over that appended a value the band follows the table from the average, or its magnitude for
VELOCITY; a PRESSURE channel's band is NORMAL; entry to ALARM in service sets SUMMARY, and nothing here clears it. -/
def Obligations.BandFollowsTheHysteresisTable : Prop :=
  ∀ (c : Fin 12) (w : Window) (rest : List Window) (s : State),
    s.running = true → s.mail.windows[c] = w :: rest → ¬TakesZero s.active.channels[c] s.channels[c] w →
    s.active.channels[c].floor ≤ w.count →
    Acts (.windowHandover c) s fun a =>
      let item := s.active.channels[c]
      let o := s.channels[c]
      let n := a.channels[c]
      (item.kind = .pressure → n.band = .normal) ∧
      (item.kind = .velocity → BandTable item (averageOf n.history).natAbs o.band n.band) ∧
      (item.kind ≠ .pressure → item.kind ≠ .velocity → BandTable item (averageOf n.history) o.band n.band) ∧
      (n.summary = true ↔ o.summary = true ∨ (n.band = .alarm ∧ o.band ≠ .alarm ∧ o.out = false))

/-- R71: a good window that finds a zero pending becomes the zero count of the active item and of the staged item, empties
the history, leaves the band and SUMMARY, ends the zero and completes an attached card DONE with the new zero count. R62: a
change of the status has the channel's zone re-evaluate, and the reading of the gallery's pressure channel, OK without an
average, goes to the door controller. (Which hand-over takes the zero: log 48.) -/
def Obligations.AGoodWindowTakesThePendingZero : Prop :=
  ∀ (c : Fin 12) (w : Window) (rest : List Window) (s : State),
    s.running = true → s.cm.bytes.wf = true → s.mail.windows[c] = w :: rest →
    TakesZero s.active.channels[c] s.channels[c] w →
    Acts (.windowHandover c) s fun a =>
      let o := s.channels[c]
      let staged := 0x0040 + 32 * c.val + 8
      a.channels[c] = { o with status := .ok, history := [], zero := none, lastCount := w.count
                               windowLength := w.lengthMs, windowTime := s.regs.seconds } ∧
      a.active = { s.active with channels := s.active.channels.set c { s.active.channels[c] with zeroCount := w.count } } ∧
      a.cm.bytes.readWord staged = BitVec.ofNat 16 w.count ∧
      (∀ x, x ≠ staged → x ≠ staged + 1 → a.cm.bytes.read x = s.cm.bytes.read x) ∧
      (∀ d : Fin 4, a.mail.completions[d] = if o.zeroCard = some d then
        some { outcome := .done, reason := .none, results := .words (BitVec.ofNat 16 w.count) 0 0 0, condition := none }
        else s.mail.completions[d]) ∧
      (∀ z : Fin 8, a.mail.reevaluations[z] = s.mail.reevaluations[z] +
        (if o.status ≠ .ok ∧ s.active.channels[c].zone = some z then 1 else 0)) ∧
      a.mail.readings = s.mail.readings ++ (if s.active.gallery.pressureChannel = some c then
        [{ status := .ok, average := none }] else []) ∧
      (∀ k : Fin 12, k ≠ c → a.channels[k] = s.channels[k]) ∧
      a = { s with active := a.active, cm := { s.cm with bytes := a.cm.bytes }, channels := a.channels
                   mail := { s.mail with
                     windows := s.mail.windows.set c rest, completions := a.mail.completions
                     reevaluations := a.mail.reevaluations, readings := a.mail.readings } }

/-- R68 with the condition of R37: a READ answers at once, in every state of its channel, with the last value, the average,
band and status, flags and history count, and changes nothing. R69: CLEAR_SUMMARY clears SUMMARY and answers 0 in NORMAL and
WARN, and leaves it and answers 1 in ALARM. -/
def Obligations.ReadAndClearSummaryAnswerForTheChannel : Prop :=
  (∀ (t : Take) (s : State), s.dispatched t .read →
    (12 ≤ t.card.target.toNat → Refuses .readCard s t .badTarget) ∧
    (∀ c : Fin 12, t.card.target = BitVec.ofNat 16 c.val →
      let o := s.channels[c]
      let a0 := t.card.a0.toInt
      let compared : Nat := if o.history = [] then 0 else if averageOf o.history < a0 then 1
        else if averageOf o.history = a0 then 2 else 3
      AnswersAlone .readCard s t
        { outcome := .done, reason := .none
          results := .words (BitVec.ofInt 16 (o.history.getLast?.getD 0))
            (if o.history = [] then 0 else BitVec.ofInt 16 (averageOf o.history))
            (wordOf (BitVec.ofNat 8 o.band.code) (BitVec.ofNat 8 o.status.code))
            (flagBit 0 (decide (o.history = [])) ||| flagBit 1 o.summary ||| flagBit 2 o.out ||| flagBit 3 o.zero.isSome |||
              wordOf 0 (BitVec.ofNat 8 o.history.length))
          condition := if t.card.record then some (BitVec.ofNat 16 compared ||| flagBit 8 o.summary) else none })) ∧
  (∀ (t : Take) (s : State), s.dispatched t .clearSummary →
    (12 ≤ t.card.target.toNat → Refuses .clearSummaryCard s t .badTarget) ∧
    (∀ c : Fin 12, t.card.target = BitVec.ofNat 16 c.val →
      (s.channels[c].band = .alarm → AnswersAlone .clearSummaryCard s t
        { outcome := .done, reason := .none, results := .words 1 0 0 0, condition := none }) ∧
      (s.channels[c].band ≠ .alarm → Acts .clearSummaryCard s fun a => DoneWith a t 0 0 ∧
        a = { s with channels := s.channels.set c { s.channels[c] with summary := false }, executor := a.executor })))

/-- R66, R67, R72: CHANNEL_SERVICE answers with the service before it; a change of service is told to the channel's zone, and
a return also ends a pending zero, its card OVERTAKEN, and sets SUMMARY if the band is ALARM. R70, R34: ZERO is refused
NOT_PERMITTED in service and BUSY while a zero is pending; otherwise a zero becomes pending, answered ACCEPTED at once without
WAIT, and with WAIT attached to the card, which leaves the executor free. (The order of the completion OVERTAKEN and the
channel's other changes: log 35. A card that was abandoned is not attached: log 31.) -/
def Obligations.ChannelServiceAndZeroWorkOnTheChannel : Prop :=
  (∀ (t : Take) (s : State), s.dispatched t .channelService →
    (12 ≤ t.card.target.toNat → Refuses .channelServiceCard s t .badTarget) ∧
    (∀ c : Fin 12, t.card.target = BitVec.ofNat 16 c.val →
      let o := s.channels[c]
      let old := BitVec.ofNat 16 (if o.out then 1 else 0)
      (2 ≤ t.card.a0.toNat → Refuses .channelServiceCard s t .badArgument) ∧
      (∀ out : Bool, t.card.a0 = BitVec.ofNat 16 (if out then 1 else 0) →
        (out = o.out → AnswersAlone .channelServiceCard s t
          { outcome := .done, reason := .none, results := .words old 0 0 0, condition := none }) ∧
        (out ≠ o.out → Acts .channelServiceCard s fun a => DoneWith a t old 0 ∧
          (out = true → a.channels[c] = { o with out := true } ∧ a.mail.completions = s.mail.completions) ∧
          (out = false →
            a.channels[c] = { o with out := false, zero := none, summary := o.summary || decide (o.band = .alarm) } ∧
            ∀ d : Fin 4, a.mail.completions[d] = if o.zeroCard = some d then
              some { outcome := .overtaken, reason := .none, results := .words 0 0 0 0, condition := none }
              else s.mail.completions[d]) ∧
          (∀ z : Fin 8, a.mail.reevaluations[z] =
            s.mail.reevaluations[z] + (if s.active.channels[c].zone = some z then 1 else 0)) ∧
          (∀ k : Fin 12, k ≠ c → a.channels[k] = s.channels[k]) ∧
          a = { s with channels := a.channels, executor := a.executor, mail := { s.mail with
            completions := a.mail.completions, reevaluations := a.mail.reevaluations } })))) ∧
  (∀ (t : Take) (s : State), s.dispatched t .zero →
    (12 ≤ t.card.target.toNat → Refuses .zeroCard s t .badTarget) ∧
    (∀ c : Fin 12, t.card.target = BitVec.ofNat 16 c.val →
      let o := s.channels[c]
      let accepted : Answer := { outcome := .accepted, reason := .none, results := .words 0 0 0 0, condition := none }
      (o.out = false → Refuses .zeroCard s t .notPermitted) ∧
      (o.out = true → o.zero.isSome = true → Refuses .zeroCard s t .busy) ∧
      (o.out = true → o.zero = none → t.card.wait = false → Acts .zeroCard s fun a =>
        a = { s with
          channels := s.channels.set c { o with zero := some { card := none } }
          executor := some { t with answer := some accepted } }) ∧
      (o.out = true → o.zero = none → t.card.wait = true → Acts .zeroCard s fun a =>
        a = { s with
          channels := s.channels.set c { o with
            zero := some { card := if s.decks[t.deck].inFlight.isSome then some t.deck else none } }
          executor := none })))

/-- R76, R77, R78, R79: a re-evaluation recomputes a zone's worst band and evidence from the channel table; a change of the
demand level is delivered to the fan controller; evidence that appears in QUIET starts the confirm timer, or asks for creation
at once with confirm time 0; evidence lost returns CONFIRMING, BLOCKED and HELD to QUIET. R79, R80, R81, R82: the confirm
timer's expiry asks for creation; slot freed asks again in BLOCKED and does nothing in another state; incident freed clears
the identity of a TRIGGERED zone that recorded it, which goes to HELD with evidence and to QUIET without, and is ignored
otherwise. (That the zone's other events wait while its request is open: log 25; that its state changes with the answer and
not with the request: logs 34, 57; that incident freed looks at the evidence recorded: log 60.) -/
def Obligations.ZonesFollowTheirEvidence : Prop :=
  (∀ (z : Fin 8) (s : State), s.running = true → 0 < s.mail.reevaluations[z] → s.mail.requests[z] = none →
    Acts (.zoneReevaluation z) s fun a =>
      let o := s.zones[z]
      let n := a.zones[z]
      let confirm := s.active.zones[z].confirmTime
      (∀ c, s.entersWorst c z → s.channels[c].band.demand ≤ n.worst.demand) ∧
      (n.worst = .normal ∨ ∃ c, s.entersWorst c z ∧ s.channels[c].band = n.worst) ∧
      (n.evidence = true ↔ ∃ c, s.isTriggering c z) ∧
      (n.evidence = o.evidence → n = { o with worst := n.worst }) ∧
      (n.evidence = true → o.evidence = false → o.state = .quiet → confirm ≠ 0 →
        n = { o with worst := n.worst, evidence := true, state := .confirming
                     confirm := some { since := s.regs.seconds, due := s.now + 1000 * confirm } }) ∧
      (n.evidence = true → o.evidence = false → o.state ≠ .quiet ∨ confirm = 0 →
        n = { o with worst := n.worst, evidence := true }) ∧
      (n.evidence = true → o.evidence = false → o.state = .quiet → confirm = 0 → Asks s a z) ∧
      (¬(n.evidence = true ∧ o.evidence = false ∧ o.state = .quiet ∧ confirm = 0) → a.mail.requests = s.mail.requests) ∧
      (n.evidence = false → o.evidence = true → n = { o with
        worst := n.worst, evidence := false, confirm := if o.state = .confirming then none else o.confirm
        state := if o.state = .confirming ∨ o.state = .blocked ∨ o.state = .held then .quiet else o.state }) ∧
      a.mail.demandLevels[z] = s.mail.demandLevels[z] ++
        (if n.worst = o.worst then [] else [n.worst.demand]) ∧
      a.mail.reevaluations[z] + 1 = s.mail.reevaluations[z] ∧
      (∀ k : Fin 8, k ≠ z → a.zones[k] = s.zones[k] ∧ a.mail.demandLevels[k] = s.mail.demandLevels[k] ∧
        a.mail.reevaluations[k] = s.mail.reevaluations[k]) ∧
      a = { s with zones := a.zones, mail := { s.mail with
        reevaluations := a.mail.reevaluations, demandLevels := a.mail.demandLevels, requests := a.mail.requests } }) ∧
  (∀ (z : Fin 8) (s : State), s.running = true → s.mail.requests[z] = none →
    let o := s.zones[z]
    (∀ timer, o.state = .confirming → o.confirm = some timer → timer.due ≤ s.now →
      Acts (.confirmTimerExpiry z) s fun a => Asks s a z ∧
        a = { s with mail := { s.mail with requests := a.mail.requests } }) ∧
    (∀ timer, o.confirm = some timer → s.now < timer.due → exec (.confirmTimerExpiry z) s = .next s) ∧
    (0 < s.mail.slotFreed[z] → Acts (.slotFreed z) s fun a =>
      (o.state = .blocked → Asks s a z) ∧ (o.state ≠ .blocked → a.mail.requests = s.mail.requests) ∧
      a = { s with mail := { s.mail with
        slotFreed := s.mail.slotFreed.set z (s.mail.slotFreed[z] - 1), requests := a.mail.requests } }) ∧
    (∀ i rest, s.mail.incidentFreed[z] = i :: rest → Acts (.incidentFreed z) s fun a =>
      (o.state = .triggered → o.ident = some i → a.zones[z] = { o with
        ident := none, state := if o.evidence then .held else .quiet }) ∧
      (o.state ≠ .triggered ∨ o.ident ≠ some i → a.zones[z] = o) ∧
      (∀ k : Fin 8, k ≠ z → a.zones[k] = s.zones[k]) ∧
      a = { s with zones := a.zones, mail := { s.mail with incidentFreed := s.mail.incidentFreed.set z rest } }))

/-! ## Fan drives (chapter 5) -/

/-- R92 to R98: what a change of the RUNNING contact does in each state of the fan. (A QUEUED fan that goes to STOPPING leaves
the queue: log 50. A FAULT contact active on entry to a state: log 32; availability and completions by the states before and
after the event: logs 17, 18, 19.) -/
def Obligations.RunningContactMovesTheFan : Prop :=
  ∀ (f : Fin 8) (level : Bool) (rest : List Bool) (s : State),
    s.running = true → s.mail.contactChanges[fanInput f 0] = level :: rest →
    Acts (.fanRunningContact f) s fun a =>
      let p := { s with mail := { s.mail with contactChanges := s.mail.contactChanges.set (fanInput f 0) rest } }
      let o := s.fans.fans[f]
      let w := { o with running := level }
      let item := s.active.fans[f]
      (level = true → o.state = .stopped ∨ o.state = .queued → EntersStopping p a f w) ∧
      (level = true → o.state = .starting → o.fault = false → Rests a f (w.entering p item .running .none)) ∧
      (level = true → o.state = .starting → o.fault = true → Rests a f (w.entering p item .faulted .driveFault)) ∧
      (level = false → o.state = .running → Rests a f (w.entering p item .faulted .feedbackLost)) ∧
      (o.state = .stopping → w.atRest item s.now → f ∉ s.fans.queue → LeavesRest p a f (w.entering p item .stopped .none)) ∧
      (o.state = .stopping → w.atRest item s.now → f ∈ s.fans.queue → Waits p a f (w.entering p item .queued .none)) ∧
      (o.state = .stopping → ¬w.atRest item s.now → f ∉ s.fans.queue → Rests a f w) ∧
      (o.state = .stopping → ¬w.atRest item s.now → f ∈ s.fans.queue → Waits p a f w) ∧
      (f ∉ s.fans.queue → o.state.isUnavailable ∨ (level = true ∧ o.state = .running) ∨
        (level = false ∧ (o.state = .stopped ∨ o.state = .starting)) → Rests a f w) ∧
      (f ∈ s.fans.queue → level = false → o.state = .queued → Waits p a f w) ∧
      FanEventFrame p a (· = f)

/-- R98, R99: an active FAULT contact takes a QUEUED, STARTING, RUNNING or STOPPING fan to FAULTED and is recorded elsewhere;
an active LOCAL contact takes a fan in any state but SERVICE to LOCAL; LOCAL ends in STOPPING with the rundown clock
restarted. (No flying restart on leaving LOCAL: log 15. A fan that leaves LOCAL for FAULTED in one event delivers no
availability change, and a FAULT contact active on entry to a state: logs 17, 32; completions: logs 18, 19.) -/
def Obligations.FaultAndLocalContactsMoveTheFan : Prop :=
  ∀ (f : Fin 8) (level : Bool) (rest : List Bool) (s : State), s.running = true →
    let o := s.fans.fans[f]
    let item := s.active.fans[f]
    (s.mail.contactChanges[fanInput f 1] = level :: rest → Acts (.fanFaultContact f) s fun a =>
      let p := { s with mail := { s.mail with contactChanges := s.mail.contactChanges.set (fanInput f 1) rest } }
      let w := { o with fault := level }
      (level = true → o.state = .queued ∨ o.state = .starting ∨ o.state = .running ∨ o.state = .stopping →
        Rests a f (w.entering p item .faulted .driveFault)) ∧
      (f ∉ s.fans.queue → level = false ∨ o.state = .stopped ∨ o.state.isUnavailable → Rests a f w) ∧
      (f ∈ s.fans.queue → level = false → Waits p a f w) ∧
      FanEventFrame p a (· = f)) ∧
    (s.mail.contactChanges[fanInput f 2] = level :: rest → Acts (.fanLocalContact f) s fun a =>
      let p := { s with mail := { s.mail with contactChanges := s.mail.contactChanges.set (fanInput f 2) rest } }
      let n := a.fans.fans[f]
      let w := { o with localSwitch := level, owner := n.owner, target := n.target }
      OwnedByHighest s.active a.fans f ∧ FollowsOwner s.active a.fans f ∧
      (level = true → o.state ≠ .service → Rests a f (w.entering p item .localPanel .none)) ∧
      (level = false → o.state = .localPanel → EntersStopping p a f { w with rundownFrom := s.now }) ∧
      (level = false → o.state ≠ .localPanel → o.state ≠ .service → PursuesTarget p a f w) ∧
      (o.state = .service → f ∉ s.fans.queue → Rests a f w) ∧
      FanEventFrame p a (· = f))

/-- R92, R95, R96, R97: the start limit takes a STARTING fan to FAULTED; the settle timer begins supervision in RUNNING; the
end of the rundown takes a STOPPING fan to STOPPED, from where it pursues its live target, or to QUEUED in its place in the
queue. None of them acts before its time. R104: a tach hand-over gives the last rpm, and in RUNNING under supervision
UNDERSPEED is set exactly while the rpm lies below the limit; it moves no fan, and a queued one keeps its place. (A fan without
tach gate keeps last rpm 0: log 41; a window of the old gate taken after a LOAD: log 61. A FAULT contact active on entry to a
state: log 32; availability and completions: logs 17, 18, 19.) -/
def Obligations.FanTimersAndTachHandoversAct : Prop :=
  (∀ (f : Fin 8) (s : State), s.running = true →
    let o := s.fans.fans[f]
    let item := s.active.fans[f]
    (∀ due, o.state = .starting → o.startLimitDue = some due → due ≤ s.now → Acts (.startLimitExpiry f) s fun a =>
      Rests a f (o.entering s item .faulted .startFailed) ∧ FanEventFrame s a (· = f)) ∧
    (∀ due, o.startLimitDue = some due → s.now < due → exec (.startLimitExpiry f) s = .next s) ∧
    (∀ due, o.state = .running → f ∉ s.fans.queue → o.settleDue = some due → due ≤ s.now → Acts (.settleExpiry f) s fun a =>
      Rests a f { o with settleDue := none, supervised := true } ∧ FanEventFrame s a (· = f)) ∧
    (∀ due, o.settleDue = some due → s.now < due → exec (.settleExpiry f) s = .next s) ∧
    (o.state = .stopping → o.atRest item s.now → f ∉ s.fans.queue → Acts (.rundownExpiry f) s fun a =>
      LeavesRest s a f (o.entering s item .stopped .none) ∧ FanEventFrame s a (· = f)) ∧
    (o.state = .stopping → o.atRest item s.now → f ∈ s.fans.queue → Acts (.rundownExpiry f) s fun a =>
      Waits s a f (o.entering s item .queued .none) ∧ FanEventFrame s a (· = f)) ∧
    (¬o.atRest item s.now → exec (.rundownExpiry f) s = .next s)) ∧
  (∀ (f : Fin 8) (w : Window) (rest : List Window) (s : State),
    s.running = true → s.mail.tachWindows[f] = w :: rest → Acts (.tachHandover f) s fun a =>
      let p := { s with mail := { s.mail with tachWindows := s.mail.tachWindows.set f rest } }
      let becomes (e : Fan) : Prop := (f ∉ s.fans.queue → Rests a f e) ∧ (f ∈ s.fans.queue → Waits p a f e)
      let o := s.fans.fans[f]
      let item := s.active.fans[f]
      let rpm := min 65535 (w.count * 60000 / (w.lengthMs * item.pulsesPerRev))
      let limit := o.target.speed * item.ratedRpm * item.underspeedPercent / 10000
      (item.tachGate.isSome = true → o.state = .running → o.supervised = true →
        becomes { o with lastRpm := rpm, underspeed := decide (rpm < limit) }) ∧
      (item.tachGate.isSome = true → o.state ≠ .running ∨ o.supervised = false → becomes { o with lastRpm := rpm }) ∧
      (item.tachGate = none → becomes o) ∧ FanEventFrame p a (· = f))

/-- R87, R89: a change of a zone's demand level is copied and recomputes the demand level of the fans that the zone covers,
and the commit of a zone item that of every fan; each recomputed fan follows its owner, and R93 to R97: it pursues a new live
target in its state. (The order of fans and of grants in one event: logs 16, 20; a FAULT contact active on entry to a state:
log 32; availability and completions: logs 17, 18, 19.) -/
def Obligations.DemandLevelsReachTheFans : Prop :=
  ∀ (z : Fin 8) (s : State), s.running = true →
    let recomputed (p a : State) (f : Fin 8) : Prop :=
      let n := a.fans.fans[f]
      DemandIsHighest s.active a.fans f ∧ OwnedByHighest s.active a.fans f ∧ FollowsOwner s.active a.fans f ∧
      PursuesTarget p a f { s.fans.fans[f] with demand := n.demand, owner := n.owner, target := n.target }
    (∀ level rest, s.mail.demandLevels[z] = level :: rest → Acts (.demandLevelChange z) s fun a =>
      let p := { s with
        fans := { s.fans with zoneDemand := s.fans.zoneDemand.set z level }
        mail := { s.mail with demandLevels := s.mail.demandLevels.set z rest } }
      (∀ f, Covers s.active z f → recomputed p a f) ∧ FanEventFrame p a (Covers s.active z)) ∧
    (∀ rest, s.mail.zoneCommits = z :: rest → Acts .zoneLoadCommit s fun a =>
      let p := { s with
        fans := { s.fans with zoneDemand := s.fans.zoneDemand.set z s.zones[z].worst.demand }
        mail := { s.mail with zoneCommits := rest } }
      (∀ f, recomputed p a f) ∧ FanEventFrame p a (fun _ => True))

/-- R87, R90, R91: a new placement list gives each listed fan its action as incident request, with the live target it had just
before as entry target if it is newly listed, and takes both from the others; a gallery demand is copied; the fans concerned
then follow their owners, and R93 to R97: pursue a new live target in their states. (The order of fans and of grants in one
event: logs 16, 20; a FAULT contact active on entry to a state: log 32; availability and completions: logs 17, 18, 19.) -/
def Obligations.PlacementAndGalleryDemandsClaimFans : Prop :=
  ∀ s : State, s.running = true →
    (∀ l rest, s.mail.placements = l :: rest → Acts .placementChange s fun a =>
      let p := { s with mail := { s.mail with placements := rest } }
      (∀ f : Fin 8,
        let o := s.fans.fans[f]
        let n := a.fans.fans[f]
        (∀ e, l.find? (fun e => decide (e.fan = f)) = some e → n.incident = some e.action ∧
          n.entryTarget = if o.incident = none then some o.target else o.entryTarget) ∧
        ((∀ e ∈ l, e.fan ≠ f) → n.incident = none ∧ n.entryTarget = none) ∧
        OwnedByHighest s.active a.fans f ∧ FollowsOwner s.active a.fans f ∧
        PursuesTarget p a f { o with
          incident := n.incident, entryTarget := n.entryTarget, owner := n.owner, target := n.target }) ∧
      FanEventFrame p a (fun _ => True)) ∧
    (∀ d rest, s.mail.galleryDemands = d :: rest → Acts .galleryDemandChange s fun a =>
      let p := { s with
        fans := { s.fans with galleryDemand := d }, mail := { s.mail with galleryDemands := rest } }
      (∀ f : Fin 8, s.active.fans[f].role = .gallery →
        OwnedByHighest s.active a.fans f ∧ FollowsOwner s.active a.fans f ∧
        PursuesTarget p a f { s.fans.fans[f] with owner := a.fans.fans[f].owner, target := a.fans.fans[f].target }) ∧
      FanEventFrame p a (fun f => s.active.fans[f].role = .gallery))

/-- R105, R106: FAN_REQUEST replaces the host request, recomputes owner and live target, which the fan pursues in its state
(R93 to R97), and is answered by the owner it then finds; only a WAIT card on a host-owned fan that is neither FAULTED nor at
its target is attached. (The results of a refused FAN_REQUEST: log 18; when the fan's target is looked at: log 19. A card that
was abandoned is not attached: log 31; availability: log 17; a FAULT contact active on entry to a state: log 32.) -/
def Obligations.FanRequestIsAnsweredByTheOwnerItFinds : Prop :=
  ∀ (t : Take) (s : State), s.dispatched t .fanRequest →
    (8 ≤ t.card.target.toNat → Refuses .fanRequestCard s t .badTarget) ∧
    (∀ f : Fin 8, t.card.target = BitVec.ofNat 16 f.val →
      let answer (o : CardOutcome) (r : CardReason) : Answer :=
        { outcome := o, reason := r, results := .fanStatus f, condition := none }
      (2 ≤ t.card.a0.toNat ∨ (t.card.a0 = 0 ∧ (2 ≤ t.card.a1.toNat ∨ 101 ≤ t.card.a2.toNat)) →
        AnswersAlone .fanRequestCard s t (answer .refused .badArgument)) ∧
      (∀ r : HostRequest,
        (t.card.a0 = 1 ∧ r = .auto) ∨ (∃ dir : Direction, t.card.a0 = 0 ∧ t.card.a2.toNat ≤ 100 ∧
          t.card.a1 = (if dir = .rev then 1 else 0) ∧ r = .manual dir t.card.a2.toNat) →
        Acts .fanRequestCard s fun a => ∃ v : State,
          let n := v.fans.fans[f]
          OwnedByHighest s.active v.fans f ∧ FollowsOwner s.active v.fans f ∧
          PursuesTarget s v f { s.fans.fans[f] with request := r, owner := n.owner, target := n.target } ∧
          FanEventFrame s v (· = f) ∧
          let answered (o : CardOutcome) : Prop := a = { v with
            executor := some { t with answer := some (answer o .none) } }
          (n.owner ≠ .host → answered .deferred) ∧
          (n.owner = .host → n.state = .faulted → answered .accepted) ∧
          (n.owner = .host → n.state ≠ .faulted → n.atTarget → answered .done) ∧
          (n.owner = .host → n.state ≠ .faulted → ¬n.atTarget → t.card.wait = false → answered .accepted) ∧
          (n.owner = .host → n.state ≠ .faulted → ¬n.atTarget → t.card.wait = true →
            a = { v with executor := none, fans := { v.fans with fans := v.fans.fans.set f { n with
              attached := n.attached ++ (if s.decks[t.deck].inFlight.isSome then [t.deck] else []) } } })))

/-- R100: FAN_SERVICE answers with the service before it; taken out, the fan enters SERVICE from any state; returned, it
enters LOCAL with the LOCAL contact active and else STOPPING with the rundown clock restarted, going on as R97 and R98 give
with the live target that it then follows. R107: FAN_RESET is refused NOT_PERMITTED unless the fan is FAULTED and BUSY while
FAULT or RUNNING is active or the rundown is not over; otherwise owner and live target are recomputed (R87), and the fan
enters STOPPED, its cause cleared and answered, and pursues its live target at once. (The flying restart on return from
SERVICE: log 15; a fan that leaves SERVICE for FAULTED in one event delivers no availability change: log 17; completions: logs
18, 19; a FAULT contact active on entry to a state: log 32; a refused FAN_RESET recomputes nothing: log 59.) -/
def Obligations.FanServiceAndFanResetAct : Prop :=
  (∀ (t : Take) (s : State), s.dispatched t .fanService →
    (8 ≤ t.card.target.toNat → Refuses .fanServiceCard s t .badTarget) ∧
    (∀ f : Fin 8, t.card.target = BitVec.ofNat 16 f.val →
      let o := s.fans.fans[f]
      let item := s.active.fans[f]
      (2 ≤ t.card.a0.toNat → Refuses .fanServiceCard s t .badArgument) ∧
      (t.card.a0.toNat ≤ 1 → Acts .fanServiceCard s fun a =>
        let p := { s with executor := a.executor }
        let n := a.fans.fans[f]
        let w := { o with out := n.out, owner := n.owner, target := n.target }
        let e := ({ w with rundownFrom := s.now } : Fan).entering p item .stopping .none
        let returns := t.card.a0 = 0 ∧ o.out = true
        DoneWith a t (if o.out then 1 else 0) 0 ∧ n.out = (t.card.a0 == 1) ∧
        (t.card.a0 = 1 → o.out = false → Rests a f (w.entering p item .service .none) ∧ n.owner = .service ∧
          n.target = .stop) ∧
        (returns → o.localSwitch = true → Rests a f (w.entering p item .localPanel .none) ∧ n.owner = .localPanel ∧
          n.target = .stop) ∧
        (returns → OwnedByHighest s.active a.fans f ∧ FollowsOwner s.active a.fans f) ∧
        (returns → o.localSwitch = false → o.state = .service → o.target = .stop →
          (o.fault = true → Rests a f (e.entering p item .faulted .driveFault)) ∧
          (o.fault = false → e.atRest item s.now → LeavesRest p a f (e.entering p item .stopped .none)) ∧
          (o.fault = false → ¬e.atRest item s.now → e.drivesTarget → item.flyingRestart = true → Waits p a f e) ∧
          (o.fault = false → ¬e.atRest item s.now → ¬e.drivesTarget ∨ item.flyingRestart = false → Rests a f e)) ∧
        (n.out ≠ o.out → FanEventFrame p a (· = f)) ∧
        (n.out = o.out → FanEventFrame p a (fun _ => False))))) ∧
  (∀ (t : Take) (s : State), s.dispatched t .fanReset →
    (8 ≤ t.card.target.toNat → Refuses .fanResetCard s t .badTarget) ∧
    (∀ f : Fin 8, t.card.target = BitVec.ofNat 16 f.val →
      let o := s.fans.fans[f]
      let now := s.now
      (o.state ≠ .faulted → Refuses .fanResetCard s t .notPermitted) ∧
      (o.state = .faulted → o.fault = true ∨ o.running = true ∨
        now < o.rundownFrom + 1000 * s.active.fans[f].rundownTime → Refuses .fanResetCard s t .busy) ∧
      (o.state = .faulted → o.fault = false → o.running = false →
        o.rundownFrom + 1000 * s.active.fans[f].rundownTime ≤ now → Acts .fanResetCard s fun a =>
          let p := { s with executor := a.executor }
          let n := a.fans.fans[f]
          let w := { o with owner := n.owner, target := n.target }
          DoneWith a t (BitVec.ofNat 16 o.cause.code) 0 ∧ OwnedByHighest s.active a.fans f ∧ FollowsOwner s.active a.fans f ∧
          LeavesRest p a f (w.entering p s.active.fans[f] .stopped .none) ∧ FanEventFrame p a (· = f))))

/-! ## Escape doors and the gallery (chapter 6) -/

/-- R113 to R116, R118, R119: what a change of the CLOSED and of the BOLTED contact does in each state of the door. -/
def Obligations.ClosedAndBoltedContactsMoveTheDoor : Prop :=
  ∀ (d : Fin 4) (level : Bool) (rest : List Bool) (s : State), s.running = true →
    let o := s.doors.doors[d]
    let item := s.active.doors[d]
    let sec := s.regs.seconds
    (s.mail.contactChanges[doorInput d 0] = level :: rest → Acts (.doorClosedContact d) s fun a =>
      let c := { o with closed := level }
      let n := a.doors.doors[d]
      (level = false → o.state = .released ∨ o.state = .bolting ∨ o.state = .opening → c.Opens n s.now sec item) ∧
      (level = false → o.state = .secured → o.push = true → c.Opens n s.now sec item) ∧
      (level = false → o.state = .secured → o.push = false → c.Enters n sec .forced none none) ∧
      (level = true → o.state = .forced → c.Bolts n s.now sec item) ∧
      (level = true → o.state = .openLeaf ∨ o.state = .heldOpen → o.secureWanted = true → c.Bolts n s.now sec item) ∧
      (level = true → o.state = .openLeaf ∨ o.state = .heldOpen → o.secureWanted = false →
        c.Enters n sec .released none none) ∧
      (level = true → o.state ≠ .forced → o.state ≠ .openLeaf → o.state ≠ .heldOpen → n = c) ∧
      (level = false → o.state ≠ .released → o.state ≠ .bolting → o.state ≠ .opening → o.state ≠ .secured → n = c) ∧
      a.doors.reach = s.doors.reach ∧ a.doors.pressure = s.doors.pressure ∧
      DoorEventFrame { s with mail := { s.mail with
        contactChanges := s.mail.contactChanges.set (doorInput d 0) rest } } a (· = d)) ∧
    (s.mail.contactChanges[doorInput d 1] = level :: rest → Acts (.doorBoltedContact d) s fun a =>
      let c := { o with bolted := level }
      let n := a.doors.doors[d]
      (level = true → o.state = .bolting → c.Enters n sec .secured none none) ∧
      (level = false → o.state = .secured → c.Enters n sec .bolting (some (s.now + 1000 * item.boltTime)) none) ∧
      (level = true ∧ o.state ≠ .bolting ∨ level = false ∧ o.state ≠ .secured → n = c) ∧
      a.doors.reach = s.doors.reach ∧ a.doors.pressure = s.doors.pressure ∧
      DoorEventFrame { s with mail := { s.mail with
        contactChanges := s.mail.contactChanges.set (doorInput d 1) rest } } a (· = d))

/-- R113 to R118: a PUSH that becomes active opens the push sequence from RELEASED, BOLTING and SECURED, with the relief
clock and, where the pressure passes, ASSIST; it takes FORCED to OPEN and is recorded elsewhere. The relief clock brings
ASSIST on by the time path; the assist timer ends in RELEASED, from where the door takes up its contacts. R114, R119, R120:
the bolt timer takes BOLTING to FAULT with cause BOLT, and the held-open timer takes OPEN to HELD_OPEN with its flag set;
neither acts before its time. -/
def Obligations.ThePushSequenceAndTheDoorTimersRun : Prop :=
  (∀ (d : Fin 4) (s : State), s.running = true →
    let o := s.doors.doors[d]
    let item := s.active.doors[d]
    let sec := s.regs.seconds
    (∀ level rest, s.mail.contactChanges[doorInput d 2] = level :: rest → Acts (.doorPushContact d) s fun a =>
      let n := a.doors.doors[d]
      let c := { o with push := level }
      let waiting : Door := { c with
        state := .opening, entered := sec, boltFault := false, assist := false, path := .none, boltDue := none
        heldOpenDue := none, assistDue := none, reliefDue := some (s.now + 1000 * item.reliefTime) }
      (level = true → o.state = .released ∨ o.state = .bolting ∨ o.state = .secured →
        (PressurePasses s.active s.doors.pressure → waiting.Assists n s.now item .pressure ∧ n.reliefDue = waiting.reliefDue) ∧
        (¬PressurePasses s.active s.doors.pressure → n = waiting)) ∧
      (level = true → o.state = .forced → c.Opens n s.now sec item) ∧
      (level = false ∨ (o.state ≠ .released ∧ o.state ≠ .bolting ∧ o.state ≠ .secured ∧ o.state ≠ .forced) → n = c) ∧
      a.doors.reach = s.doors.reach ∧ a.doors.pressure = s.doors.pressure ∧
      DoorEventFrame { s with mail := { s.mail with
        contactChanges := s.mail.contactChanges.set (doorInput d 2) rest } } a (· = d)) ∧
    (∀ due, o.state = .opening → o.reliefDue = some due → due ≤ s.now → Acts (.reliefClockExpiry d) s fun a =>
      let n := a.doors.doors[d]
      (o.assist = false → o.Assists n s.now item .time) ∧ (o.assist = true → n = { o with reliefDue := none }) ∧
      n.reliefDue = none ∧ a.doors.reach = s.doors.reach ∧ a.doors.pressure = s.doors.pressure ∧
      DoorEventFrame s a (· = d)) ∧
    (∀ due, o.state = .opening → o.assistDue = some due → due ≤ s.now → Acts (.assistTimerExpiry d) s fun a =>
      { o with assistTimeoutFlag := true }.TakesUp a.doors.doors[d] s.now sec item ∧
      a.doors.reach = s.doors.reach ∧ a.doors.pressure = s.doors.pressure ∧
      DoorEventFrame s a (· = d)) ∧
    (∀ due, o.reliefDue = some due → s.now < due → exec (.reliefClockExpiry d) s = .next s) ∧
    (∀ due, o.assistDue = some due → s.now < due → exec (.assistTimerExpiry d) s = .next s)) ∧
  (∀ (d : Fin 4) (due : Nat) (s : State), s.running = true →
    let o := s.doors.doors[d]
    let sec := s.regs.seconds
    (o.state = .bolting → o.boltDue = some due → due ≤ s.now → Acts (.boltTimerExpiry d) s fun a =>
      o.Enters a.doors.doors[d] sec .fault none none ∧ a.doors.reach = s.doors.reach ∧
      a.doors.pressure = s.doors.pressure ∧ DoorEventFrame s a (· = d)) ∧
    (o.state = .openLeaf → o.heldOpenDue = some due → due ≤ s.now → Acts (.heldOpenExpiry d) s fun a =>
      o.Enters a.doors.doors[d] sec .heldOpen none none ∧ a.doors.reach = s.doors.reach ∧
      a.doors.pressure = s.doors.pressure ∧ DoorEventFrame s a (· = d)) ∧
    (o.boltDue = some due → s.now < due → exec (.boltTimerExpiry d) s = .next s) ∧
    (o.heldOpenDue = some due → s.now < due → exec (.heldOpenExpiry d) s = .next s))

/-- R111, R117, R124: a delivery of the incident unit enters or leaves the reach list, and every door takes a change of its
secure wanted; a pressure reading replaces the copy, and brings ASSIST on at every door in OPENING without it if it passes. (A reading of a
channel that the gallery item no longer names: log 51.) -/
def Obligations.DoorsFollowIncidentsAndPressure : Prop :=
  ∀ s : State, s.running = true →
    (∀ m rest, s.mail.incidents = m :: rest → Acts .incidentDelivery s fun a =>
      let reach := a.doors.reach
      (m.state = none ∨ m.state = some .clearing → reach = s.doors.reach.filter fun r => decide (r.ident ≠ m.ident)) ∧
      (m.state ≠ none → m.state ≠ some .clearing → (∀ r ∈ s.doors.reach, r.ident ≠ m.ident) →
        reach = s.doors.reach ++ [{ ident := m.ident, position := m.position }]) ∧
      (m.state ≠ none → m.state ≠ some .clearing → (∃ r ∈ s.doors.reach, r.ident = m.ident) → reach = s.doors.reach) ∧
      (∀ d : Fin 4, ∃ wanted : Bool, (wanted = true ↔ SecureWanted s.active reach d s.doors.doors[d]) ∧
        s.doors.doors[d].TakesSecure a.doors.doors[d] s.now s.regs.seconds s.active.doors[d] wanted) ∧
      a.doors.pressure = s.doors.pressure ∧
      DoorEventFrame { s with mail := { s.mail with incidents := rest } } a (fun _ => True)) ∧
    (∀ r rest, s.mail.readings = r :: rest → Acts .pressureReading s fun a =>
      a.doors.pressure = r ∧ a.doors.reach = s.doors.reach ∧
      (∀ d : Fin 4,
        let o := s.doors.doors[d]
        let n := a.doors.doors[d]
        (o.state = .opening → o.assist = false → PressurePasses s.active r →
          o.Assists n s.now s.active.doors[d] .pressure ∧ n.reliefDue = o.reliefDue) ∧
        (o.state ≠ .opening ∨ o.assist = true ∨ ¬PressurePasses s.active r → n = o)) ∧
      DoorEventFrame { s with mail := { s.mail with readings := rest } } a (fun _ => True))

/-- R125: DOOR_MODE stores the host mode in every state, answers the mode before it, and the door takes a change of its
secure wanted. R126: DOOR_SERVICE takes a door to SERVICE from every other state, with its flags kept, and returns it to
take up its contacts; the answer holds the service before the card. R127: DOOR_RESET clears ASSIST_TIMEOUT, clears FORCED
and HELD_OPEN unless the door stands in that state, and takes a door in FAULT to RELEASED to take up its contacts; r0 holds
the flags that stay, r1 the cause cleared. -/
def Obligations.DoorCardsAct : Prop :=
  (∀ (t : Take) (s : State), s.dispatched t .doorMode →
    (4 ≤ t.card.target.toNat → Refuses .doorModeCard s t .badTarget) ∧
    (∀ d : Fin 4, t.card.target = BitVec.ofNat 16 d.val →
      let o := s.doors.doors[d]
      (2 ≤ t.card.a0.toNat → Refuses .doorModeCard s t .badArgument) ∧
      (∀ secure : Bool, t.card.a0 = BitVec.ofNat 16 (if secure then 1 else 0) → Acts .doorModeCard s fun a =>
        let m := { o with secureMode := secure }
        DoneWith a t (if o.secureMode then 1 else 0) 0 ∧
        (∃ wanted : Bool, (wanted = true ↔ SecureWanted s.active s.doors.reach d m) ∧
          m.TakesSecure a.doors.doors[d] s.now s.regs.seconds s.active.doors[d] wanted) ∧
        a.doors.reach = s.doors.reach ∧ a.doors.pressure = s.doors.pressure ∧
        DoorEventFrame { s with executor := a.executor } a (· = d)))) ∧
  (∀ (t : Take) (s : State), s.dispatched t .doorService →
    (4 ≤ t.card.target.toNat → Refuses .doorServiceCard s t .badTarget) ∧
    (∀ d : Fin 4, t.card.target = BitVec.ofNat 16 d.val →
      let o := s.doors.doors[d]
      (2 ≤ t.card.a0.toNat → Refuses .doorServiceCard s t .badArgument) ∧
      (∀ out : Bool, t.card.a0 = BitVec.ofNat 16 (if out then 1 else 0) → Acts .doorServiceCard s fun a =>
        let n := a.doors.doors[d]
        DoneWith a t (if o.state = .service then 1 else 0) 0 ∧
        (out = true → o.state ≠ .service → o.Enters n s.regs.seconds .service none none ∧
          n.assistTimeoutFlag = o.assistTimeoutFlag) ∧
        (out = false → o.state = .service → o.TakesUp n s.now s.regs.seconds s.active.doors[d] ∧
          n.assistTimeoutFlag = o.assistTimeoutFlag) ∧
        (out = decide (o.state = .service) → n = o) ∧
        a.doors.reach = s.doors.reach ∧ a.doors.pressure = s.doors.pressure ∧
        DoorEventFrame { s with executor := a.executor } a (· = d)))) ∧
  (∀ (t : Take) (s : State), s.dispatched t .doorReset →
    (4 ≤ t.card.target.toNat → Refuses .doorResetCard s t .badTarget) ∧
    (∀ d : Fin 4, t.card.target = BitVec.ofNat 16 d.val → Acts .doorResetCard s fun a =>
      let o := s.doors.doors[d]
      let n := a.doors.doors[d]
      let c := { o with
        assistTimeoutFlag := false, forcedFlag := o.forcedFlag && decide (o.state = .forced)
        heldOpenFlag := o.heldOpenFlag && decide (o.state = .heldOpen) }
      (o.state ≠ .fault → n = c) ∧
      (o.state = .fault → c.TakesUp n s.now s.regs.seconds s.active.doors[d] ∧ n.assistTimeoutFlag = false) ∧
      DoneWith a t (flagBit 0 n.forcedFlag ||| flagBit 1 n.heldOpenFlag ||| flagBit 2 n.assistTimeoutFlag)
        (if o.boltFault then 1 else 0) ∧
      a.doors.reach = s.doors.reach ∧ a.doors.pressure = s.doors.pressure ∧
        DoorEventFrame { s with executor := a.executor } a (· = d)))

/-! ## Incidents (chapter 7) -/

/-- R80, R132, R134, R135: a creation request makes a DETECTED record with a fresh local identity where a slot is to be had,
and the zone records the identity and is TRIGGERED; else OVERFLOW is set and the zone is BLOCKED. (The age in a notice: log
21.) -/
def Obligations.CreationRequestsAreAnsweredCreatedOrFull : Prop :=
  ∀ (z : Fin 8) (q : CreationRequest) (s : State),
    s.running = true → s.mail.requests[z] = some q → s.incidents.cleared.length ≤ 8 →
    Acts (.creationRequest z) s fun a =>
      let o := s.zones[z]
      let p (n : Zone) : State :=
        { s with zones := s.zones.set z n, mail := { s.mail with requests := s.mail.requests.set z none } }
      (∃ k i, Creates (p { o with state := .triggered, confirm := none, ident := some i }) a .detected q.position (some z)
        q.template q.mirror q.evidence k i) ∨
      Overflows (p { o with state := .blocked, confirm := none, ident := none }) a

/-- R83, R136: DECLARE is refused BAD_TARGET, BAD_ARGUMENT, BUSY with the zone's identity, and TABLE_FULL with identity none,
in this order; otherwise it creates a DECLARED record, answers its identity and slot, and a named zone becomes TRIGGERED. (The
target is taken as the whole word: log 43; DECLARE waits while the zone's request is open: log 25; the age in a notice: log
21; SECONDS at dispatch: log 65.) -/
def Obligations.DeclareCreatesAnIncident : Prop :=
  ∀ (t : Take) (s : State), s.dispatched t .declare → s.incidents.cleared.length ≤ 8 →
    let refused (r : CardReason) (w : Word) : Answer :=
      { outcome := .refused, reason := r, results := .words w 0 0 0, condition := none }
    let mirror : Bool := t.card.a2 == 1
    (8 ≤ t.card.target.toNat → t.card.target ≠ 255 → Refuses .declareCard s t .badTarget) ∧
    (∀ z : Fin 8, t.card.target = BitVec.ofNat 16 z.val → s.mail.requests[z] = none →
      (8 ≤ t.card.a1.toNat ∨ 2 ≤ t.card.a2.toNat → Refuses .declareCard s t .badArgument) ∧
      (∀ template : Fin 8, t.card.a1 = BitVec.ofNat 16 template.val → t.card.a2.toNat ≤ 1 →
        (s.zones[z].state = .triggered →
          AnswersAlone .declareCard s t (refused .busy (identWord s.zones[z].ident))) ∧
        (s.zones[z].state ≠ .triggered → Acts .declareCard s fun a =>
          (∃ k i, DoneWith a t i.word (BitVec.ofNat 16 k.val) ∧
            Creates { s with executor := a.executor, zones := s.zones.set z { s.zones[z] with
              state := .triggered, confirm := none, ident := some i } } a .declared
              (s.active.span.firstNiche + s.active.zones[z].centre) (some z) template mirror [] k i) ∨
          (a.executor = some { t with answer := some (refused .tableFull 0xFFFF) } ∧
            Overflows { s with executor := a.executor } a)))) ∧
    (t.card.target = 255 →
      (8 ≤ t.card.a1.toNat ∨ 2 ≤ t.card.a2.toNat ∨ 1024 ≤ t.card.a0.toNat → Refuses .declareCard s t .badArgument) ∧
      (∀ template : Fin 8, t.card.a1 = BitVec.ofNat 16 template.val → t.card.a2.toNat ≤ 1 → t.card.a0.toNat ≤ 1023 →
        Acts .declareCard s fun a =>
          (∃ k i, DoneWith a t i.word (BitVec.ofNat 16 k.val) ∧
            Creates { s with executor := a.executor } a .declared t.card.a0.toNat none template mirror [] k i) ∨
          (a.executor = some { t with answer := some (refused .tableFull 0xFFFF) } ∧
            Overflows { s with executor := a.executor } a)))

/-- R137, R138, R142, R143, R145: what a notice does, by the state it carries and by what the span holds for its identity.
(The resume state after an ACKNOWLEDGED notice: log 22; start times and ages as differences of 32-bit values: log 21.) -/
def Obligations.NoticesAreTakenByTheTable : Prop :=
  ∀ (n : Notice) (rest : List Notice) (s : State), s.running = true → s.mail.notices = n :: rest →
    Acts .notice s fun a =>
      let p := { s with mail := { s.mail with notices := rest } }
      let u := s.incidents
      let acknowledges := n.state = .acknowledged
      let aside := n.ident.span = s.active.span.spanId ∨ n.ident.span = 0 ∨ n.ident.span = 255 ∨
        1024 ≤ n.position.toNat ∨ 8 ≤ n.template.toNat ∨ 2 ≤ n.mirror.toNat
      (aside → IncidentsStay p a) ∧
      (¬aside →
        (∀ (k : Fin 4) (r : Incident), u.slots[k] = some r → r.ident = n.ident →
          (∀ (j : Fin 4) (q : Incident), u.slots[j] = some q → q.ident = n.ident → j = k) →
          let refreshed : Incident := { r with
            lastRefresh := s.regs.seconds, staleDue := some (s.now + 10000)
            resumeAcknowledged := r.resumeAcknowledged || decide acknowledges }
          let moved (st : IncidentState) : Incident := { refreshed with state := st, entered := s.regs.seconds }
          (r.state = .clearing → IncidentsStay p a) ∧
          (r.state ≠ .clearing → n.state = .clear → EntersClearing p a k r) ∧
          (r.state = .active → acknowledges → RecordBecomes p a k (moved .acknowledged) true []) ∧
          (r.state = .active → n.state = .active → RecordBecomes p a k refreshed false []) ∧
          (r.state = .acknowledged → n.state ≠ .clear → RecordBecomes p a k refreshed false []) ∧
          (r.state = .stale → n.state ≠ .clear → acknowledges ∨ r.resumeAcknowledged = true →
            RecordBecomes p a k (moved .acknowledged) true []) ∧
          (r.state = .stale → n.state = .active → r.resumeAcknowledged = false →
            RecordBecomes p a k (moved .active) true [])) ∧
        ((∀ (k : Fin 4) (r : Incident), u.slots[k] = some r → r.ident ≠ n.ident) →
          ((∃ e ∈ u.cleared, e.ident = n.ident) → IncidentsStay p a) ∧
          (u.Unknown n.ident → n.state = .clear →
            TableIs a.incidents u.slots ∧ JoinsCleared p a n.ident ∧ IncidentEventFrame p a [] [] false [] ∧
            a.incidents = { u with slots := a.incidents.slots, cleared := a.incidents.cleared }) ∧
          (u.Unknown n.ident → n.state ≠ .clear → (∀ k : Fin 4, u.slots[k] ≠ none) →
            TableIs a.incidents u.slots ∧ IncidentEventFrame p a [] [] false [] ∧
            a.incidents = { u with
              slots := a.incidents.slots, overflow := true, overflowCount := satSucc u.overflowCount }) ∧
          (∀ k : Fin 4, u.Unknown n.ident → n.state ≠ .clear → LowestEmpty u k → RecordBecomes p a k
            { ident := n.ident, origin := .notice, state := if acknowledges then .acknowledged else .active
              resumeAcknowledged := decide acknowledges, position := n.position.toNat, zone := none
              template := ⟨n.template.toNat % 8, Nat.mod_lt _ (by decide)⟩, mirror := decide (n.mirror = 1)
              start := s.regs.seconds - n.age.setWidth 32, lastRefresh := s.regs.seconds, evidence := [], deficit := 0
              governing := false, clearLeft := 0, refreshDue := none, staleDue := some (s.now + 10000)
              clearingDue := none, entered := s.regs.seconds } true [])))

/-- R133, R142, R144: the refresh timer sends a notice of a local record; the stale timer takes a NOTICE record to STALE,
which remembers the state it left; the clearing timer sends the clear notices left and then frees the record, whose identity
joins the cleared-identity list; an expired entry of that list leaves it. R140: a delivered deficit is written into the
governing record and into no other. (The record that governs when the deficit is taken: log 24; an expiry takes the oldest
entry of the list: log 39; the age in a notice: log 21.) -/
def Obligations.IncidentTimersExpireAndDeficitsAreWritten : Prop :=
  (∀ (k : Fin 4) (r : Incident) (due : Nat) (s : State), s.running = true → s.incidents.slots[k] = some r →
    (r.refreshDue = some due → due ≤ s.now → Acts (.refreshTimerExpiry k) s fun a =>
      RecordBecomes s a k { r with lastRefresh := s.regs.seconds, refreshDue := some (s.now + 2000) } false
        [r.Sends s (if r.state = .acknowledged then .acknowledged else .active)]) ∧
    (r.staleDue = some due → due ≤ s.now → Acts (.staleTimerExpiry k) s fun a =>
      RecordBecomes s a k { r with state := .stale, resumeAcknowledged := decide (r.state = .acknowledged)
                                   staleDue := none, entered := s.regs.seconds } true []) ∧
    (r.clearingDue = some due → due ≤ s.now → 0 < r.clearLeft → Acts (.clearingTimerExpiry k) s fun a =>
      RecordBecomes s a k { r with clearLeft := r.clearLeft - 1, lastRefresh := s.regs.seconds
                                   clearingDue := some (s.now + 2000) } false [r.Sends s .clear]) ∧
    (r.clearingDue = some due → due ≤ s.now → r.clearLeft = 0 → Acts (.clearingTimerExpiry k) s fun a =>
      TableIs a.incidents (s.incidents.slots.set k none) ∧ JoinsCleared s a r.ident ∧
      a.incidents = { s.incidents with
        slots := a.incidents.slots, cleared := a.incidents.cleared, overflow := false } ∧
      IncidentEventFrame s a [{ ident := r.ident, position := r.position, state := none }] [r.ident] true [])) ∧
  (∀ (e : ClearedEntry) (rest : List ClearedEntry) (s : State), s.running = true → s.incidents.cleared = e :: rest →
    (e.due ≤ s.now → Acts .clearedEntryExpiry s fun a =>
      a = { s with incidents := { s.incidents with cleared := rest } }) ∧
    (s.now < e.due → exec .clearedEntryExpiry s = .next s)) ∧
  (∀ (d : Nat) (rest : List Nat) (s : State), s.running = true → s.mail.deficits = d :: rest →
    Acts .deficitDelivery s fun a =>
      (∀ k : Fin 4,
        (s.incidents.slots[k] = none → a.incidents.slots[k] = none) ∧
        ∀ r, s.incidents.slots[k] = some r →
          a.incidents.slots[k] = some (if r.governing then { r with deficit := d } else r)) ∧
      a = { s with incidents := { s.incidents with slots := a.incidents.slots }
                   mail := { s.mail with deficits := rest } })

/-- R141, R143: ACKNOWLEDGE and CLEAR are refused BAD_TARGET for a span id outside 1-254 and UNKNOWN_ID for an identity in no
record; ACKNOWLEDGE moves ACTIVE to ACKNOWLEDGED, sent at once if the record is local; CLEAR takes a record not yet in
CLEARING there; both answer a state and the slot. (The age in a notice: log 21.) -/
def Obligations.AcknowledgeAndClearActOnTheRecord : Prop :=
  ∀ (t : Take) (s : State),
    let i : Ident := { span := highByte t.card.target, seq := lowByte t.card.target }
    let code (st : IncidentState) : Word := BitVec.ofNat 16 st.code
    (∀ c kind, (c = Instr.acknowledgeCard ∧ kind = CardKind.acknowledge) ∨ (c = Instr.clearCard ∧ kind = CardKind.clear) →
      s.dispatched t kind →
      (i.span = 0 ∨ i.span = 255 → Refuses c s t .badTarget) ∧
      (i.span ≠ 0 → i.span ≠ 255 → (∀ (k : Fin 4) (r : Incident), s.incidents.slots[k] = some r → r.ident ≠ i) →
        Refuses c s t .unknownId)) ∧
    (∀ (k : Fin 4) (r : Incident), i.span ≠ 0 → i.span ≠ 255 → s.incidents.slots[k] = some r → r.ident = i →
      (∀ (j : Fin 4) (q : Incident), s.incidents.slots[j] = some q → q.ident = i → j = k) →
      (s.dispatched t .acknowledge → Acts .acknowledgeCard s fun a =>
        let p := { s with executor := a.executor }
        let acked : Incident := { r with state := .acknowledged, resumeAcknowledged := true, entered := s.regs.seconds }
        DoneWith a t (code (if r.state = .active then .acknowledged else r.state)) (BitVec.ofNat 16 k.val) ∧
        (r.state ≠ .active → IncidentsStay p a) ∧
        (r.state = .active → r.origin = .notice → RecordBecomes p a k acked true []) ∧
        (r.state = .active → r.origin ≠ .notice → RecordBecomes p a k
          { acked with lastRefresh := s.regs.seconds, refreshDue := some (s.now + 2000) } true
          [r.Sends s .acknowledged])) ∧
      (s.dispatched t .clear → Acts .clearCard s fun a =>
        let p := { s with executor := a.executor }
        DoneWith a t (code r.state) (BitVec.ofNat 16 k.val) ∧
        (r.state = .clearing → a = { s with executor := a.executor }) ∧
        (r.state ≠ .clearing → EntersClearing p a k r)))

/-! ## Pattern placement (chapter 8) -/

/-- R152 to R158: a governing change, an availability change of a jet fan and a change of a fan's role or niche place the
governing pattern from scratch; with no governing record the placement is empty; an availability change that places nothing
updates the copy. (The time of a record that a governing change to none has emptied: log 52.) -/
def Obligations.PlacementLaysThePatternOverTheSpan : Prop :=
  ∀ s : State, s.running = true →
    let governs := s.placement.governing
    let places (a : State) (g : Option Governing) : Prop :=
      a.placement.governing = g ∧
      (∀ copy, g = some copy → PlacementFor s.active copy a.placement.available a.placement.record) ∧
      (g = none → a.placement.record = { PlacementRecord.empty with time := a.placement.record.time })
    (∀ g rest, s.mail.governing = g :: rest → Acts .governingChange s fun a =>
      places a g ∧ a.placement.available = s.placement.available ∧
      PlacementFrame { s with mail := { s.mail with governing := rest } } a) ∧
    (∀ (f : Fin 8) (available : Bool) rest, s.mail.availability[f] = available :: rest →
      Acts (.availabilityChange f) s fun a =>
        a.placement.available = s.placement.available.set f available ∧
        (s.active.fans[f].role = .jet → governs ≠ none → places a governs) ∧
        (s.active.fans[f].role = .gallery ∨ governs = none →
          a.placement.record = s.placement.record ∧ a.placement.governing = governs) ∧
        PlacementFrame { s with mail := { s.mail with availability := s.mail.availability.set f rest } } a) ∧
    (∀ f : Fin 8, 0 < s.mail.fanItems[f] → Acts (.fanItemChange f) s fun a =>
      a.placement.available = s.placement.available ∧ (governs ≠ none → places a governs) ∧
      (governs = none → a.placement = s.placement) ∧
      PlacementFrame { s with mail := { s.mail with fanItems := s.mail.fanItems.set f (s.mail.fanItems[f] - 1) } } a)

/-! ## The span link (chapter 9) -/

/-- R166, R168, R169, R170, R179: a frame is received from the first byte after 2 ms of idle line. Such a line also breaks off
a frame received in part, which is rejected and counted, and ends the ignoring of bytes. Bytes that begin a frame and have
failed no check are kept. The bytes that complete a good frame are taken by its kind; the byte at which a check fails rejects
the frame, counted; and what follows either, without an idle line, is ignored. A port that is not enabled takes no byte.
Whatever arrives, the line is not idle and no frame of the port's own is the last on it. (What the idle line counts from, also
while the port's own frame is sent, and the command HOLD: logs 12, 14, 58; the hold time left that a HOLD makes the link
record show, R182: log 38; that bytes which make no frame end the port's own frame as the last: log 66.) -/
def Obligations.ReceivedBytesMakeGoodOrRejectedFrames : Prop :=
  ∀ (port : Port) (bytes : List Byte) (s : State), s.running = true →
    let o := s.link.get port
    let enabled := portEnabled s.active port = true
    let idle := o.idleSince + 2 ≤ s.now
    let heard (p : PortState) : PortState := { p with idleSince := s.now, ownLast := false }
    let settled : PortState := { o with
      receiving := [], ignoring := false, rejected := if o.receiving = [] then o.rejected else satSucc o.rejected }
    let receives (c : PortState) : Prop :=
      (∀ x y, bytes = x ++ y → FailsCheck (c.receiving ++ x) → x ≠ [] → Acts (.frameReceive port bytes) s fun a =>
        PortBecomes s a port { heard c with receiving := [], ignoring := true, rejected := satSucc c.rejected } false) ∧
      (∀ x y f, bytes = x ++ y → Spells (c.receiving ++ x) f → x ≠ [] → Acts (.frameReceive port bytes) s fun a => ∃ n,
        PortBecomes s a port n false ∧ TakesGood { heard c with receiving := [] } n s.now f) ∧
      (BeginsFrame (c.receiving ++ bytes) → Acts (.frameReceive port bytes) s fun a =>
        PortBecomes s a port { heard c with receiving := c.receiving ++ bytes } false)
    (bytes ≠ [] → ¬enabled ∨ (¬idle ∧ (o.ignoring = true ∨ o.receiving = [])) → Acts (.frameReceive port bytes) s fun a =>
      PortBecomes s a port (heard o) false) ∧
    (bytes ≠ [] → enabled → idle → receives settled) ∧
    (bytes ≠ [] → enabled → ¬idle → o.ignoring = false → o.receiving ≠ [] → receives o) ∧
    (∀ t, enabled → idle → Acts (.hold port t) s fun a => ∃ n,
      PortBecomes s a port n false ∧ TakesGood (heard settled) n s.now (.hold t)) ∧
    (∀ t, ¬enabled ∨ ¬idle → exec (.hold port t) s = .next s) ∧
    (o.receiving ≠ [] → idle → Acts (.incompleteFrame port) s fun a =>
      PortBecomes s a port { o with receiving := [], rejected := satSucc o.rejected } false) ∧
    (o.ignoring = true → idle → Acts (.lineIdleAfterReject port) s fun a =>
      PortBecomes s a port { o with ignoring := false } false)

/-- R169, R170, R172, R173, R180: the head of the receive queue is taken whole. A HELLO fills the entry of a DOWN port,
refreshes it, or migrates it, restarts the aging timer, and sets LINK unless only last heard changes; an INCIDENT is
delivered to the incident unit and, with hops left, a copy with one hop fewer is handed to the other port alone. -/
def Obligations.FramesAreTakenFromTheReceiveQueue : Prop :=
  ∀ (port : Port) (rest : List Frame) (s : State), s.running = true →
    let o := s.link.get port
    (∀ h : Hello, o.receiveQueue = .hello h :: rest → Acts (.helloTaken port) s fun a => ∃ n,
      TakesHead o n ∧
      let becomes (e : Neighbour) (link : Bool) : Prop :=
        PortBecomes s a port { n with neighbour := some e, agingDue := some (s.now + 5000) } link
      (o.neighbour = none → becomes { hello := h, lastHeard := s.regs.seconds, migrated := false, previous := 255 } true) ∧
      (∀ e, o.neighbour = some e → e.hello.spanId = h.spanId →
        becomes { e with hello := h, lastHeard := s.regs.seconds } (decide (e.hello ≠ h))) ∧
      (∀ e, o.neighbour = some e → e.hello.spanId ≠ h.spanId →
        becomes { hello := h, lastHeard := s.regs.seconds, migrated := true, previous := e.hello.spanId } true)) ∧
    (∀ i : Notice, o.receiveQueue = .incident i :: rest → Acts (.incidentFrameTaken port) s fun a => ∃ n,
      TakesHead o n ∧
      let copy : QueuedNotice := { notice := { i with hops := i.hops - 1 }, origin := .forwarded, joined := s.regs.seconds }
      let other := s.mail.port (otherPort port)
      let handed := { other with forwarded := other.forwarded ++ if i.hops = 0 then [] else [copy] }
      PortBecomes { s with mail := { s.mail with notices := s.mail.notices ++ [i] }.setPort (otherPort port) handed }
        a port n false)

/-- R175, R176, R177: a notice handed to a port that is DOWN or not enabled is discarded uncounted; it replaces a queued
notice of its identity in place, or at the back of its new class where its origin changed; with room it joins at the back of
its class; a full queue gives way as the table says, and the dropped count rises by one. -/
def Obligations.NoticesAreEnqueuedByClass : Prop :=
  ∀ (port : Port) (origin : NoticeOrigin) (q : QueuedNotice) (rest : List QueuedNotice) (s : State),
    s.running = true → (s.mail.port port).of origin = q :: rest → TransmitWf (s.link.get port).transmitQueue →
    Acts (.noticeEnqueue port origin) s fun a => ∃ n,
      let o := s.link.get port
      let l := o.transmitQueue
      let m := n.transmitQueue
      let taken := { s.mail.port port with
        own := if origin = .own then rest else (s.mail.port port).own
        forwarded := if origin = .own then (s.mail.port port).forwarded else rest }
      PortBecomes { s with mail := s.mail.setPort port taken } a port n false ∧
      n = { o with transmitQueue := m, dropped := n.dropped } ∧
      (o.neighbour = none ∨ portEnabled s.active port = false → n = o) ∧
      (o.neighbour ≠ none → portEnabled s.active port = true →
        (∀ x y old, l = x ++ .notice old :: y → old.notice.ident = q.notice.ident → n.dropped = o.dropped ∧
          (old.origin = q.origin → m = x ++ .notice q :: y) ∧
          (old.origin ≠ q.origin → JoinsClass (x ++ y) q m)) ∧
        ((∀ e ∈ l, ¬e.Holds q.notice.ident) →
          (l.length < 8 → JoinsClass l q m ∧ n.dropped = o.dropped) ∧
          (l.length = 8 → GivesWay l q m ∧ n.dropped = min (o.dropped + 1) (max o.dropped 65535))))

/-- R170, R171, R174, R179: the HELLO timer offers a HELLO and restarts; the aging timer takes the port DOWN, with LINK; the
hold timer stops; the hold-repeat timer with the mark set makes a HOLD(255) pending again and restarts. (The hold time left
that the link record shows once the timer has expired, R182: log 38.) -/
def Obligations.LinkTimersExpire : Prop :=
  ∀ (port : Port) (due : Nat) (s : State), s.running = true → due ≤ s.now →
    let o := s.link.get port
    (o.helloDue = some due → Acts (.helloTimerExpiry port) s fun a => ∃ n,
      OffersHello o n ∧ PortBecomes s a port { n with helloDue := some (s.now + 1000) } false) ∧
    (o.agingDue = some due → Acts (.agingTimerExpiry port) s fun a => ∃ n,
      GoesDown o n ∧ PortBecomes s a port n o.neighbour.isSome) ∧
    (o.holdDue = some due → Acts (.holdTimerExpiry port) s fun a =>
      PortBecomes s a port { o with holdDue := none, holdShown := 0 } false) ∧
    (o.holdRepeatDue = some due → o.holdMark = true → Acts (.holdRepeatExpiry port) s fun a =>
      PortBecomes s a port { o with pendingHold := some 255, holdRepeatDue := some (s.now + 2000) } false)

/-- R166, R167, R178: an enabled port whose gap has run begins its pending HOLD, else, with no hold timer running, the front
entry: a HELLO with the span item's values and the governing identity, or a notice with the age of its waiting added and
clipped, each frame with its marker, kind, body length, fields and CRC; it begins nothing before the gap, while transmitting, or
while held with no HOLD pending. When the last byte has been sent the frame is gone and was the last on the line. (The idle time
and the end of a frame in 1 ms ticks: logs 12, 13; that bytes which make no frame shorten the gap again: log 66.) -/
def Obligations.FramesAreChosenAndSent : Prop :=
  crc [0x31, 0x32, 0x33, 0x34, 0x35, 0x36, 0x37, 0x38, 0x39] = 0x29B1 ∧
  (∀ (kind : Byte) (body : List Byte),
    let covered := kind :: BitVec.ofNat 8 body.length :: body
    frameBytes kind body = [0x7E] ++ covered ++ [highByte (crc covered), lowByte (crc covered)]) ∧
  ∀ (port : Port) (s : State), s.running = true →
    let o := s.link.get port
    let gap := (if port = .down then 2 else 3) + if o.ownLast then 4 else 0
    let sends (n : PortState) (bytes : List Byte) : Prop := Acts (.frameBegin port) s fun a =>
      PortBecomes s a port { n with transmission := some { bytes := bytes, began := s.now } } false
    let free := portEnabled s.active port = true ∧ o.transmission = none ∧ o.idleSince + gap ≤ s.now
    (∀ t, free → o.pendingHold = some t → sends { o with pendingHold := none } (frameBytes 3 [t])) ∧
    (∀ rest, free → o.pendingHold = none → o.holdDue = none → o.transmitQueue = .hello :: rest →
      let hello (governing : List Byte) : List Byte := frameBytes 1 ([s.active.span.spanId] ++
        bigEndian (BitVec.ofNat 16 s.active.span.firstNiche) ++ [BitVec.ofNat 8 s.active.span.nicheCount] ++ governing ++ [1])
      (s.incidents.governingIdent = none → sends { o with transmitQueue := rest } (hello [0xFF, 0xFF])) ∧
      (∀ i, s.incidents.governingIdent = some i → sends { o with transmitQueue := rest } (hello [i.span, i.seq]))) ∧
    (∀ q rest, free → o.pendingHold = none → o.holdDue = none → o.transmitQueue = .notice q :: rest →
      let i := q.notice
      let state : Byte := if i.state = .active then 1 else if i.state = .acknowledged then 2 else 3
      let age : Word := BitVec.ofNat 16 (min 65535 (i.age.toNat + (s.regs.seconds - q.joined).toNat))
      sends { o with transmitQueue := rest } (frameBytes 2 ([i.ident.span, i.ident.seq, state] ++ bigEndian i.position ++
        [i.template, i.mirror] ++ bigEndian age ++ [i.hops]))) ∧
    (¬free ∨ (o.pendingHold = none ∧ (o.holdDue ≠ none ∨ o.transmitQueue = [])) →
      exec (.frameBegin port) s = .next s) ∧
    (∀ f, o.transmission = some f → f.bytes.length * 100 ≤ (s.now - f.began) * 576 → Acts (.frameEnd port) s fun a =>
      PortBecomes s a port { o with transmission := none, idleSince := s.now, ownLast := true } false)

/-! ## What the commit of an item does (R53, R73, R84, R108, R128, R129, R150, R164) -/

/-- R48, R53, R56, R73, R84, R89, R150: a committed gate item becomes the gate's pending values; a channel item empties the
history, takes the band to NORMAL, ends a pending zero with its card OVERTAKEN, sets the counter's filter and binding, and has
the old and the new zone re-evaluate; a zone item re-evaluates its zone and is told to the fan controller; a template is
placed again if the governing record names it. (The old and the new zone, once where they are the same: log 26; the order of
the completion: log 35; the last sample kept between FAST and SLOW: log 47; which sample a change to or from OFF takes: log
56; a window handed over before: log 49; a zone's re-evaluation as an event of its own: log 63.) -/
def Obligations.LoadedGatesChannelsZonesAndTemplatesAct : Prop :=
  ∀ (t : Take) (s : State),
    (∀ g : Fin 4, s.MayLoad t (.gate g) → Acts .loadCard s fun a =>
      let p := s.committed a (.gate g)
      a = { p with gates := s.gates.set g { s.gates[g] with pending := some p.active.gates[g] } }) ∧
    (∀ c : Fin 12, s.MayLoad t (.channel c) → Acts .loadCard s fun a =>
      let p := s.committed a (.channel c)
      let item := p.active.channels[c]
      a.channels = s.channels.set c { s.channels[c] with history := [], band := .normal, zero := none } ∧
      (∃ filtered, s.measured[c].TakesFilter filtered item.filter ∧ Rebinds filtered a.measured[c] (some item.gate)) ∧
      (∀ k : Fin 12, k ≠ c → a.measured[k] = s.measured[k]) ∧
      (∀ d : Fin 4, a.mail.completions[d] = if s.channels[c].zeroCard = some d then
        some { outcome := .overtaken, reason := .none, results := .words 0 0 0 0, condition := none }
        else s.mail.completions[d]) ∧
      (∀ z : Fin 8, a.mail.reevaluations[z] = s.mail.reevaluations[z] +
        if s.active.channels[c].zone = some z ∨ item.zone = some z then 1 else 0) ∧
      a = { p with channels := a.channels, measured := a.measured, mail := { s.mail with
        completions := a.mail.completions, reevaluations := a.mail.reevaluations } }) ∧
    (∀ z : Fin 8, s.MayLoad t (.zone z) → Acts .loadCard s fun a =>
      a = { s.committed a (.zone z) with mail := { s.mail with
        reevaluations := s.mail.reevaluations.set z (s.mail.reevaluations[z] + 1)
        zoneCommits := s.mail.zoneCommits ++ [z] } }) ∧
    (∀ i : Fin 8, s.MayLoad t (.template i) → Acts .loadCard s fun a =>
      a.placement.governing = s.placement.governing ∧ a.placement.available = s.placement.available ∧
      (∀ g, s.placement.governing = some g → g.template = i →
        PlacementFor a.active g a.placement.available a.placement.record) ∧
      ((∀ g, s.placement.governing = some g → g.template ≠ i) → a.placement.record = s.placement.record) ∧
      PlacementFrame (s.committed a (.template i)) a)

/-- R47, R56, R101, R108, R128, R129, R164: a committed fan item sets its inputs and its tach binding, clears UNDERSPEED,
recomputes demand level, owner and live target, which the fan pursues in its state, and tells the placement unit a change of
role or niche; a door item sets its inputs and recomputes secure wanted; a gallery item that changes the pressure channel
drops the pressure copy; a link item takes a port out of the link or into it. (A fan that loses its tach gate shows last rpm
0: log 41. A port that a LOAD disables drops a part of a frame and stops ignoring bytes: log 12, and shows no hold time left,
R182: log 38. A LOAD that changes no reportable field makes no update: log 46; gallery speeds while a
delivery of IDLE waits: log 64. Fans: logs 16, 17, 18, 19, 32.) -/
def Obligations.LoadedFansDoorsGalleryAndLinkAct : Prop :=
  ∀ (t : Take) (s : State),
    (∀ f : Fin 8, s.MayLoad t (.fan f) → f ∉ s.fans.queue → Acts .loadCard s fun a =>
      let q := s.committed a (.fan f)
      let old := s.active.fans[f]
      let item := q.active.fans[f]
      let o := s.fans.fans[f]
      let n := a.fans.fans[f]
      let told := if old.role = item.role ∧ old.niche = item.niche then 0 else 1
      let loaded := { o with underspeed := false, lastRpm := if item.tachGate = none then 0 else o.lastRpm }
      let p := { q with
        contacts := a.contacts, tach := a.tach, fans := { s.fans with fans := s.fans.fans.set f loaded }
        mail := { s.mail with fanItems := s.mail.fanItems.set f (s.mail.fanItems[f] + told) } }
      TakesSettings s a (threeInputs (fanInput f 0) item.running item.fault item.localSwitch) ∧
      Rebinds s.tach[f] a.tach[f] item.tachGate ∧ (∀ k : Fin 8, k ≠ f → a.tach[k] = s.tach[k]) ∧
      DemandIsHighest a.active a.fans f ∧ OwnedByHighest a.active a.fans f ∧ FollowsOwner a.active a.fans f ∧
      PursuesTarget p a f { loaded with demand := n.demand, owner := n.owner, target := n.target } ∧
      FanEventFrame p a (· = f)) ∧
    (∀ d : Fin 4, s.MayLoad t (.door d) → Acts .loadCard s fun a =>
      let q := s.committed a (.door d)
      let item := q.active.doors[d]
      let o := s.doors.doors[d]
      TakesSettings s a (threeInputs (doorInput d 0) item.closed item.bolted item.push) ∧
      (∃ wanted : Bool, (wanted = true ↔ SecureWanted a.active s.doors.reach d o) ∧
        o.TakesSecure a.doors.doors[d] s.now s.regs.seconds item wanted) ∧
      a.doors.reach = s.doors.reach ∧ a.doors.pressure = s.doors.pressure ∧
      DoorEventFrame { q with contacts := a.contacts } a (· = d)) ∧
    (s.MayLoad t .gallery → Acts .loadCard s fun a =>
      let p := s.committed a .gallery
      a = { p with doors := { s.doors with pressure :=
        if p.active.gallery.pressureChannel = s.active.gallery.pressureChannel then s.doors.pressure
        else { status := .none, average := none } } }) ∧
    (s.MayLoad t .link → Acts .loadCard s fun a =>
      let p := s.committed a .link
      let leaves (port : Port) := portEnabled s.active port && !portEnabled p.active port && (s.link.get port).neighbour.isSome
      (∀ port : Port,
        let o := s.link.get port
        let n := a.link.get port
        let before := portEnabled s.active port
        let after := portEnabled p.active port
        (before = after → n = o) ∧
        (before = false → after = true → ∃ m, OffersHello o m ∧ n = { m with helloDue := some (s.now + 1000) }) ∧
        (before = true → after = false → n = { o with
          neighbour := none, agingDue := none, receiving := [], ignoring := false, receiveQueue := [], transmitQueue := []
          pendingHold := none, holdDue := none, holdShown := 0, helloDue := none, holdRepeatDue := none
          holdMark := false })) ∧
      a.regs = (if leaves .up ∨ leaves .down then s.regs.raise .link else s.regs) ∧
      a = { p with link := { a.link with relay := s.link.relay }, regs := a.regs })

/-! ## Invariants -/

/-- The memory keeps its canonical form, and the unused bits of the change masks, of ATTENTION and of ATTENTION MASK stay
zero (R7, R11). -/
def Obligations.EveryStepKeepsTheMemoryCanonical : Prop := KeptByEveryStep MemoryWf

/-- R20 to R26, R30: decks keep their layout, their indices and their card in flight, and no two share memory. -/
def Obligations.EveryStepKeepsTheDecksInOrder : Prop := KeptByEveryStep DecksWf

/-- R48, R49, R63, R65, R70, R75, R79 to R82: counts and histories keep within their bounds, a filter holds a level exactly when
it is not OFF, an ALARM is never without SUMMARY in
service, and a zone's timer, identity and request stand in their states. -/
def Obligations.EveryStepKeepsChannelsAndZonesInOrder : Prop :=
  KeptByEveryStep ChannelsWf ∧ KeptByEveryStep ZonesWf

/-- R87, R93 to R103: the start queue and the start slots are kept, REVERSE stands as the drive needs it, and the highest
claimant owns each fan. -/
def Obligations.EveryStepKeepsTheStartQueueAndSlots : Prop := KeptByEveryStep FansWf

/-- R110, R111, R114, R117 to R120, R123: secure wanted and the gallery demand follow what they are defined by, and ASSIST
and the timers of a door stand only in their states. -/
def Obligations.EveryStepKeepsTheDoorsInOrder : Prop := KeptByEveryStep DoorsWf

/-- R132, R133, R139: identities stay unique, and the earliest record governs. (Start times are compared as signed 32-bit
values: log 21.) -/
def Obligations.EveryStepKeepsIdentitiesUnique : Prop := KeptByEveryStep IncidentsWf

/-- R163, R165, R169, R170, R172, R174, R175: the queues of each port keep their bounds and classes, marks and timers stand
with them, and the relay stands in line exactly in RUNNING. -/
def Obligations.EveryStepKeepsThePortsInOrder : Prop := KeptByEveryStep LinkWf

/-- The invariants hold at reset. -/
def Obligations.TheInvariantsHoldAtReset : Prop :=
  let s := State.reset
  MemoryWf s ∧ DecksWf s ∧ ChannelsWf s ∧ ZonesWf s ∧ FansWf s ∧ DoorsWf s ∧ IncidentsWf s ∧ LinkWf s
end

