-- ==== Sys2Proof/Laws/State.lean ====
section
/-! SUPPORT. What each state-level operation leaves alone, one lemma per field it does not write, each true by its definition. -/

namespace Sys2Proof.Machine

/-! ## publish -/

@[simp] theorem publish_pending (b a : State) : (publish b a).pending = a.pending := by simp only [publish]
@[simp] theorem publish_now (b a : State) : (publish b a).now = a.now := by simp only [publish]
@[simp] theorem publish_secondsDue (b a : State) : (publish b a).secondsDue = a.secondsDue := by simp only [publish]
@[simp] theorem publish_periodDue (b a : State) : (publish b a).periodDue = a.periodDue := by simp only [publish]
@[simp] theorem publish_hd (b a : State) : (publish b a).hd = a.hd := by simp only [publish]
@[simp] theorem publish_resetAsserted (b a : State) : (publish b a).resetAsserted = a.resetAsserted := by simp only [publish]
@[simp] theorem publish_candidate (b a : State) : (publish b a).candidate = a.candidate := by simp only [publish]
@[simp] theorem publish_active (b a : State) : (publish b a).active = a.active := by simp only [publish]
@[simp] theorem publish_decks (b a : State) : (publish b a).decks = a.decks := by simp only [publish]
@[simp] theorem publish_executor (b a : State) : (publish b a).executor = a.executor := by simp only [publish]
@[simp] theorem publish_lastGranted (b a : State) : (publish b a).lastGranted = a.lastGranted := by simp only [publish]
@[simp] theorem publish_contacts (b a : State) : (publish b a).contacts = a.contacts := by simp only [publish]
@[simp] theorem publish_measured (b a : State) : (publish b a).measured = a.measured := by simp only [publish]
@[simp] theorem publish_tach (b a : State) : (publish b a).tach = a.tach := by simp only [publish]
@[simp] theorem publish_gates (b a : State) : (publish b a).gates = a.gates := by simp only [publish]
@[simp] theorem publish_sref (b a : State) : (publish b a).sref = a.sref := by simp only [publish]
@[simp] theorem publish_channels (b a : State) : (publish b a).channels = a.channels := by simp only [publish]
@[simp] theorem publish_zones (b a : State) : (publish b a).zones = a.zones := by simp only [publish]
@[simp] theorem publish_fans (b a : State) : (publish b a).fans = a.fans := by simp only [publish]
@[simp] theorem publish_doors (b a : State) : (publish b a).doors = a.doors := by simp only [publish]
@[simp] theorem publish_incidents (b a : State) : (publish b a).incidents = a.incidents := by simp only [publish]
@[simp] theorem publish_placement (b a : State) : (publish b a).placement = a.placement := by simp only [publish]
@[simp] theorem publish_link (b a : State) : (publish b a).link = a.link := by simp only [publish]
@[simp] theorem publish_mail (b a : State) : (publish b a).mail = a.mail := by simp only [publish]

/-! ## reply -/

@[simp] theorem reply_pending (t : Take) (a : Answer) (s : State) : (State.reply t a s).pending = s.pending := by simp only [State.reply]
@[simp] theorem reply_now (t : Take) (a : Answer) (s : State) : (State.reply t a s).now = s.now := by simp only [State.reply]
@[simp] theorem reply_secondsDue (t : Take) (a : Answer) (s : State) : (State.reply t a s).secondsDue = s.secondsDue := by simp only [State.reply]
@[simp] theorem reply_periodDue (t : Take) (a : Answer) (s : State) : (State.reply t a s).periodDue = s.periodDue := by simp only [State.reply]
@[simp] theorem reply_hd (t : Take) (a : Answer) (s : State) : (State.reply t a s).hd = s.hd := by simp only [State.reply]
@[simp] theorem reply_resetAsserted (t : Take) (a : Answer) (s : State) : (State.reply t a s).resetAsserted = s.resetAsserted := by simp only [State.reply]
@[simp] theorem reply_regs (t : Take) (a : Answer) (s : State) : (State.reply t a s).regs = s.regs := by simp only [State.reply]
@[simp] theorem reply_cm (t : Take) (a : Answer) (s : State) : (State.reply t a s).cm = s.cm := by simp only [State.reply]
@[simp] theorem reply_candidate (t : Take) (a : Answer) (s : State) : (State.reply t a s).candidate = s.candidate := by simp only [State.reply]
@[simp] theorem reply_active (t : Take) (a : Answer) (s : State) : (State.reply t a s).active = s.active := by simp only [State.reply]
@[simp] theorem reply_decks (t : Take) (a : Answer) (s : State) : (State.reply t a s).decks = s.decks := by simp only [State.reply]
@[simp] theorem reply_lastGranted (t : Take) (a : Answer) (s : State) : (State.reply t a s).lastGranted = s.lastGranted := by simp only [State.reply]
@[simp] theorem reply_contacts (t : Take) (a : Answer) (s : State) : (State.reply t a s).contacts = s.contacts := by simp only [State.reply]
@[simp] theorem reply_measured (t : Take) (a : Answer) (s : State) : (State.reply t a s).measured = s.measured := by simp only [State.reply]
@[simp] theorem reply_tach (t : Take) (a : Answer) (s : State) : (State.reply t a s).tach = s.tach := by simp only [State.reply]
@[simp] theorem reply_gates (t : Take) (a : Answer) (s : State) : (State.reply t a s).gates = s.gates := by simp only [State.reply]
@[simp] theorem reply_sref (t : Take) (a : Answer) (s : State) : (State.reply t a s).sref = s.sref := by simp only [State.reply]
@[simp] theorem reply_channels (t : Take) (a : Answer) (s : State) : (State.reply t a s).channels = s.channels := by simp only [State.reply]
@[simp] theorem reply_zones (t : Take) (a : Answer) (s : State) : (State.reply t a s).zones = s.zones := by simp only [State.reply]
@[simp] theorem reply_fans (t : Take) (a : Answer) (s : State) : (State.reply t a s).fans = s.fans := by simp only [State.reply]
@[simp] theorem reply_doors (t : Take) (a : Answer) (s : State) : (State.reply t a s).doors = s.doors := by simp only [State.reply]
@[simp] theorem reply_incidents (t : Take) (a : Answer) (s : State) : (State.reply t a s).incidents = s.incidents := by simp only [State.reply]
@[simp] theorem reply_placement (t : Take) (a : Answer) (s : State) : (State.reply t a s).placement = s.placement := by simp only [State.reply]
@[simp] theorem reply_link (t : Take) (a : Answer) (s : State) : (State.reply t a s).link = s.link := by simp only [State.reply]
@[simp] theorem reply_mail (t : Take) (a : Answer) (s : State) : (State.reply t a s).mail = s.mail := by simp only [State.reply]

/-! ## started -/

@[simp] theorem started_pending (s : State) : (s.started).pending = s.pending := by simp only [State.started]
@[simp] theorem started_now (s : State) : (s.started).now = s.now := by simp only [State.started]
@[simp] theorem started_secondsDue (s : State) : (s.started).secondsDue = s.secondsDue := by simp only [State.started]
@[simp] theorem started_periodDue (s : State) : (s.started).periodDue = s.periodDue := by simp only [State.started]
@[simp] theorem started_hd (s : State) : (s.started).hd = s.hd := by simp only [State.started]
@[simp] theorem started_resetAsserted (s : State) : (s.started).resetAsserted = s.resetAsserted := by simp only [State.started]
@[simp] theorem started_regs (s : State) : (s.started).regs = s.regs := by simp only [State.started]
@[simp] theorem started_cm (s : State) : (s.started).cm = s.cm := by simp only [State.started]
@[simp] theorem started_candidate (s : State) : (s.started).candidate = s.candidate := by simp only [State.started]
@[simp] theorem started_active (s : State) : (s.started).active = s.active := by simp only [State.started]
@[simp] theorem started_decks (s : State) : (s.started).decks = s.decks := by simp only [State.started]
@[simp] theorem started_lastGranted (s : State) : (s.started).lastGranted = s.lastGranted := by simp only [State.started]
@[simp] theorem started_contacts (s : State) : (s.started).contacts = s.contacts := by simp only [State.started]
@[simp] theorem started_measured (s : State) : (s.started).measured = s.measured := by simp only [State.started]
@[simp] theorem started_tach (s : State) : (s.started).tach = s.tach := by simp only [State.started]
@[simp] theorem started_gates (s : State) : (s.started).gates = s.gates := by simp only [State.started]
@[simp] theorem started_sref (s : State) : (s.started).sref = s.sref := by simp only [State.started]
@[simp] theorem started_channels (s : State) : (s.started).channels = s.channels := by simp only [State.started]
@[simp] theorem started_zones (s : State) : (s.started).zones = s.zones := by simp only [State.started]
@[simp] theorem started_fans (s : State) : (s.started).fans = s.fans := by simp only [State.started]
@[simp] theorem started_doors (s : State) : (s.started).doors = s.doors := by simp only [State.started]
@[simp] theorem started_incidents (s : State) : (s.started).incidents = s.incidents := by simp only [State.started]
@[simp] theorem started_placement (s : State) : (s.started).placement = s.placement := by simp only [State.started]
@[simp] theorem started_link (s : State) : (s.started).link = s.link := by simp only [State.started]
@[simp] theorem started_mail (s : State) : (s.started).mail = s.mail := by simp only [State.started]

/-! ## detach -/

@[simp] theorem detach_pending (d : Fin 4) (s : State) : (State.detach d s).pending = s.pending := by simp only [State.detach]
@[simp] theorem detach_now (d : Fin 4) (s : State) : (State.detach d s).now = s.now := by simp only [State.detach]
@[simp] theorem detach_secondsDue (d : Fin 4) (s : State) : (State.detach d s).secondsDue = s.secondsDue := by simp only [State.detach]
@[simp] theorem detach_periodDue (d : Fin 4) (s : State) : (State.detach d s).periodDue = s.periodDue := by simp only [State.detach]
@[simp] theorem detach_hd (d : Fin 4) (s : State) : (State.detach d s).hd = s.hd := by simp only [State.detach]
@[simp] theorem detach_resetAsserted (d : Fin 4) (s : State) : (State.detach d s).resetAsserted = s.resetAsserted := by simp only [State.detach]
@[simp] theorem detach_regs (d : Fin 4) (s : State) : (State.detach d s).regs = s.regs := by simp only [State.detach]
@[simp] theorem detach_cm (d : Fin 4) (s : State) : (State.detach d s).cm = s.cm := by simp only [State.detach]
@[simp] theorem detach_candidate (d : Fin 4) (s : State) : (State.detach d s).candidate = s.candidate := by simp only [State.detach]
@[simp] theorem detach_active (d : Fin 4) (s : State) : (State.detach d s).active = s.active := by simp only [State.detach]
@[simp] theorem detach_decks (d : Fin 4) (s : State) : (State.detach d s).decks = s.decks := by simp only [State.detach]
@[simp] theorem detach_executor (d : Fin 4) (s : State) : (State.detach d s).executor = s.executor := by simp only [State.detach]
@[simp] theorem detach_lastGranted (d : Fin 4) (s : State) : (State.detach d s).lastGranted = s.lastGranted := by simp only [State.detach]
@[simp] theorem detach_contacts (d : Fin 4) (s : State) : (State.detach d s).contacts = s.contacts := by simp only [State.detach]
@[simp] theorem detach_measured (d : Fin 4) (s : State) : (State.detach d s).measured = s.measured := by simp only [State.detach]
@[simp] theorem detach_tach (d : Fin 4) (s : State) : (State.detach d s).tach = s.tach := by simp only [State.detach]
@[simp] theorem detach_gates (d : Fin 4) (s : State) : (State.detach d s).gates = s.gates := by simp only [State.detach]
@[simp] theorem detach_sref (d : Fin 4) (s : State) : (State.detach d s).sref = s.sref := by simp only [State.detach]
@[simp] theorem detach_zones (d : Fin 4) (s : State) : (State.detach d s).zones = s.zones := by simp only [State.detach]
@[simp] theorem detach_doors (d : Fin 4) (s : State) : (State.detach d s).doors = s.doors := by simp only [State.detach]
@[simp] theorem detach_incidents (d : Fin 4) (s : State) : (State.detach d s).incidents = s.incidents := by simp only [State.detach]
@[simp] theorem detach_placement (d : Fin 4) (s : State) : (State.detach d s).placement = s.placement := by simp only [State.detach]
@[simp] theorem detach_link (d : Fin 4) (s : State) : (State.detach d s).link = s.link := by simp only [State.detach]

/-! ## fanEvent -/

@[simp] theorem fanEvent_pending (act : FanUnit → FanUnit) (s : State) : (State.fanEvent act s).pending = s.pending := by simp only [State.fanEvent]
@[simp] theorem fanEvent_now (act : FanUnit → FanUnit) (s : State) : (State.fanEvent act s).now = s.now := by simp only [State.fanEvent]
@[simp] theorem fanEvent_secondsDue (act : FanUnit → FanUnit) (s : State) : (State.fanEvent act s).secondsDue = s.secondsDue := by simp only [State.fanEvent]
@[simp] theorem fanEvent_periodDue (act : FanUnit → FanUnit) (s : State) : (State.fanEvent act s).periodDue = s.periodDue := by simp only [State.fanEvent]
@[simp] theorem fanEvent_hd (act : FanUnit → FanUnit) (s : State) : (State.fanEvent act s).hd = s.hd := by simp only [State.fanEvent]
@[simp] theorem fanEvent_resetAsserted (act : FanUnit → FanUnit) (s : State) : (State.fanEvent act s).resetAsserted = s.resetAsserted := by simp only [State.fanEvent]
@[simp] theorem fanEvent_regs (act : FanUnit → FanUnit) (s : State) : (State.fanEvent act s).regs = s.regs := by simp only [State.fanEvent]
@[simp] theorem fanEvent_cm (act : FanUnit → FanUnit) (s : State) : (State.fanEvent act s).cm = s.cm := by simp only [State.fanEvent]
@[simp] theorem fanEvent_candidate (act : FanUnit → FanUnit) (s : State) : (State.fanEvent act s).candidate = s.candidate := by simp only [State.fanEvent]
@[simp] theorem fanEvent_active (act : FanUnit → FanUnit) (s : State) : (State.fanEvent act s).active = s.active := by simp only [State.fanEvent]
@[simp] theorem fanEvent_decks (act : FanUnit → FanUnit) (s : State) : (State.fanEvent act s).decks = s.decks := by simp only [State.fanEvent]
@[simp] theorem fanEvent_executor (act : FanUnit → FanUnit) (s : State) : (State.fanEvent act s).executor = s.executor := by simp only [State.fanEvent]
@[simp] theorem fanEvent_lastGranted (act : FanUnit → FanUnit) (s : State) : (State.fanEvent act s).lastGranted = s.lastGranted := by simp only [State.fanEvent]
@[simp] theorem fanEvent_contacts (act : FanUnit → FanUnit) (s : State) : (State.fanEvent act s).contacts = s.contacts := by simp only [State.fanEvent]
@[simp] theorem fanEvent_measured (act : FanUnit → FanUnit) (s : State) : (State.fanEvent act s).measured = s.measured := by simp only [State.fanEvent]
@[simp] theorem fanEvent_tach (act : FanUnit → FanUnit) (s : State) : (State.fanEvent act s).tach = s.tach := by simp only [State.fanEvent]
@[simp] theorem fanEvent_gates (act : FanUnit → FanUnit) (s : State) : (State.fanEvent act s).gates = s.gates := by simp only [State.fanEvent]
@[simp] theorem fanEvent_sref (act : FanUnit → FanUnit) (s : State) : (State.fanEvent act s).sref = s.sref := by simp only [State.fanEvent]
@[simp] theorem fanEvent_channels (act : FanUnit → FanUnit) (s : State) : (State.fanEvent act s).channels = s.channels := by simp only [State.fanEvent]
@[simp] theorem fanEvent_zones (act : FanUnit → FanUnit) (s : State) : (State.fanEvent act s).zones = s.zones := by simp only [State.fanEvent]
@[simp] theorem fanEvent_doors (act : FanUnit → FanUnit) (s : State) : (State.fanEvent act s).doors = s.doors := by simp only [State.fanEvent]
@[simp] theorem fanEvent_incidents (act : FanUnit → FanUnit) (s : State) : (State.fanEvent act s).incidents = s.incidents := by simp only [State.fanEvent]
@[simp] theorem fanEvent_placement (act : FanUnit → FanUnit) (s : State) : (State.fanEvent act s).placement = s.placement := by simp only [State.fanEvent]
@[simp] theorem fanEvent_link (act : FanUnit → FanUnit) (s : State) : (State.fanEvent act s).link = s.link := by simp only [State.fanEvent]

/-! ## doorEvent -/

@[simp] theorem doorEvent_pending (act : DoorUnit → DoorUnit) (s : State) : (State.doorEvent act s).pending = s.pending := by simp only [State.doorEvent]
@[simp] theorem doorEvent_now (act : DoorUnit → DoorUnit) (s : State) : (State.doorEvent act s).now = s.now := by simp only [State.doorEvent]
@[simp] theorem doorEvent_secondsDue (act : DoorUnit → DoorUnit) (s : State) : (State.doorEvent act s).secondsDue = s.secondsDue := by simp only [State.doorEvent]
@[simp] theorem doorEvent_periodDue (act : DoorUnit → DoorUnit) (s : State) : (State.doorEvent act s).periodDue = s.periodDue := by simp only [State.doorEvent]
@[simp] theorem doorEvent_hd (act : DoorUnit → DoorUnit) (s : State) : (State.doorEvent act s).hd = s.hd := by simp only [State.doorEvent]
@[simp] theorem doorEvent_resetAsserted (act : DoorUnit → DoorUnit) (s : State) : (State.doorEvent act s).resetAsserted = s.resetAsserted := by simp only [State.doorEvent]
@[simp] theorem doorEvent_regs (act : DoorUnit → DoorUnit) (s : State) : (State.doorEvent act s).regs = s.regs := by simp only [State.doorEvent]
@[simp] theorem doorEvent_cm (act : DoorUnit → DoorUnit) (s : State) : (State.doorEvent act s).cm = s.cm := by simp only [State.doorEvent]
@[simp] theorem doorEvent_candidate (act : DoorUnit → DoorUnit) (s : State) : (State.doorEvent act s).candidate = s.candidate := by simp only [State.doorEvent]
@[simp] theorem doorEvent_active (act : DoorUnit → DoorUnit) (s : State) : (State.doorEvent act s).active = s.active := by simp only [State.doorEvent]
@[simp] theorem doorEvent_decks (act : DoorUnit → DoorUnit) (s : State) : (State.doorEvent act s).decks = s.decks := by simp only [State.doorEvent]
@[simp] theorem doorEvent_executor (act : DoorUnit → DoorUnit) (s : State) : (State.doorEvent act s).executor = s.executor := by simp only [State.doorEvent]
@[simp] theorem doorEvent_lastGranted (act : DoorUnit → DoorUnit) (s : State) : (State.doorEvent act s).lastGranted = s.lastGranted := by simp only [State.doorEvent]
@[simp] theorem doorEvent_contacts (act : DoorUnit → DoorUnit) (s : State) : (State.doorEvent act s).contacts = s.contacts := by simp only [State.doorEvent]
@[simp] theorem doorEvent_measured (act : DoorUnit → DoorUnit) (s : State) : (State.doorEvent act s).measured = s.measured := by simp only [State.doorEvent]
@[simp] theorem doorEvent_tach (act : DoorUnit → DoorUnit) (s : State) : (State.doorEvent act s).tach = s.tach := by simp only [State.doorEvent]
@[simp] theorem doorEvent_gates (act : DoorUnit → DoorUnit) (s : State) : (State.doorEvent act s).gates = s.gates := by simp only [State.doorEvent]
@[simp] theorem doorEvent_sref (act : DoorUnit → DoorUnit) (s : State) : (State.doorEvent act s).sref = s.sref := by simp only [State.doorEvent]
@[simp] theorem doorEvent_channels (act : DoorUnit → DoorUnit) (s : State) : (State.doorEvent act s).channels = s.channels := by simp only [State.doorEvent]
@[simp] theorem doorEvent_zones (act : DoorUnit → DoorUnit) (s : State) : (State.doorEvent act s).zones = s.zones := by simp only [State.doorEvent]
@[simp] theorem doorEvent_fans (act : DoorUnit → DoorUnit) (s : State) : (State.doorEvent act s).fans = s.fans := by simp only [State.doorEvent]
@[simp] theorem doorEvent_incidents (act : DoorUnit → DoorUnit) (s : State) : (State.doorEvent act s).incidents = s.incidents := by simp only [State.doorEvent]
@[simp] theorem doorEvent_placement (act : DoorUnit → DoorUnit) (s : State) : (State.doorEvent act s).placement = s.placement := by simp only [State.doorEvent]
@[simp] theorem doorEvent_link (act : DoorUnit → DoorUnit) (s : State) : (State.doorEvent act s).link = s.link := by simp only [State.doorEvent]

/-! ## incidentEvent -/

@[simp] theorem incidentEvent_pending (act : IncidentUnit → IncidentStep) (s : State) : (State.incidentEvent act s).pending = s.pending := by simp only [State.incidentEvent]
@[simp] theorem incidentEvent_now (act : IncidentUnit → IncidentStep) (s : State) : (State.incidentEvent act s).now = s.now := by simp only [State.incidentEvent]
@[simp] theorem incidentEvent_secondsDue (act : IncidentUnit → IncidentStep) (s : State) : (State.incidentEvent act s).secondsDue = s.secondsDue := by simp only [State.incidentEvent]
@[simp] theorem incidentEvent_periodDue (act : IncidentUnit → IncidentStep) (s : State) : (State.incidentEvent act s).periodDue = s.periodDue := by simp only [State.incidentEvent]
@[simp] theorem incidentEvent_hd (act : IncidentUnit → IncidentStep) (s : State) : (State.incidentEvent act s).hd = s.hd := by simp only [State.incidentEvent]
@[simp] theorem incidentEvent_resetAsserted (act : IncidentUnit → IncidentStep) (s : State) : (State.incidentEvent act s).resetAsserted = s.resetAsserted := by simp only [State.incidentEvent]
@[simp] theorem incidentEvent_cm (act : IncidentUnit → IncidentStep) (s : State) : (State.incidentEvent act s).cm = s.cm := by simp only [State.incidentEvent]
@[simp] theorem incidentEvent_candidate (act : IncidentUnit → IncidentStep) (s : State) : (State.incidentEvent act s).candidate = s.candidate := by simp only [State.incidentEvent]
@[simp] theorem incidentEvent_active (act : IncidentUnit → IncidentStep) (s : State) : (State.incidentEvent act s).active = s.active := by simp only [State.incidentEvent]
@[simp] theorem incidentEvent_decks (act : IncidentUnit → IncidentStep) (s : State) : (State.incidentEvent act s).decks = s.decks := by simp only [State.incidentEvent]
@[simp] theorem incidentEvent_executor (act : IncidentUnit → IncidentStep) (s : State) : (State.incidentEvent act s).executor = s.executor := by simp only [State.incidentEvent]
@[simp] theorem incidentEvent_lastGranted (act : IncidentUnit → IncidentStep) (s : State) : (State.incidentEvent act s).lastGranted = s.lastGranted := by simp only [State.incidentEvent]
@[simp] theorem incidentEvent_contacts (act : IncidentUnit → IncidentStep) (s : State) : (State.incidentEvent act s).contacts = s.contacts := by simp only [State.incidentEvent]
@[simp] theorem incidentEvent_measured (act : IncidentUnit → IncidentStep) (s : State) : (State.incidentEvent act s).measured = s.measured := by simp only [State.incidentEvent]
@[simp] theorem incidentEvent_tach (act : IncidentUnit → IncidentStep) (s : State) : (State.incidentEvent act s).tach = s.tach := by simp only [State.incidentEvent]
@[simp] theorem incidentEvent_gates (act : IncidentUnit → IncidentStep) (s : State) : (State.incidentEvent act s).gates = s.gates := by simp only [State.incidentEvent]
@[simp] theorem incidentEvent_sref (act : IncidentUnit → IncidentStep) (s : State) : (State.incidentEvent act s).sref = s.sref := by simp only [State.incidentEvent]
@[simp] theorem incidentEvent_channels (act : IncidentUnit → IncidentStep) (s : State) : (State.incidentEvent act s).channels = s.channels := by simp only [State.incidentEvent]
@[simp] theorem incidentEvent_zones (act : IncidentUnit → IncidentStep) (s : State) : (State.incidentEvent act s).zones = s.zones := by simp only [State.incidentEvent]
@[simp] theorem incidentEvent_fans (act : IncidentUnit → IncidentStep) (s : State) : (State.incidentEvent act s).fans = s.fans := by simp only [State.incidentEvent]
@[simp] theorem incidentEvent_doors (act : IncidentUnit → IncidentStep) (s : State) : (State.incidentEvent act s).doors = s.doors := by simp only [State.incidentEvent]
@[simp] theorem incidentEvent_placement (act : IncidentUnit → IncidentStep) (s : State) : (State.incidentEvent act s).placement = s.placement := by simp only [State.incidentEvent]
@[simp] theorem incidentEvent_link (act : IncidentUnit → IncidentStep) (s : State) : (State.incidentEvent act s).link = s.link := by simp only [State.incidentEvent]

/-! ## placementEvent -/

@[simp] theorem placementEvent_pending (b : Bool) (act : PlacementUnit → PlacementUnit) (s : State) : (State.placementEvent b act s).pending = s.pending := by simp only [State.placementEvent]
@[simp] theorem placementEvent_now (b : Bool) (act : PlacementUnit → PlacementUnit) (s : State) : (State.placementEvent b act s).now = s.now := by simp only [State.placementEvent]
@[simp] theorem placementEvent_secondsDue (b : Bool) (act : PlacementUnit → PlacementUnit) (s : State) : (State.placementEvent b act s).secondsDue = s.secondsDue := by simp only [State.placementEvent]
@[simp] theorem placementEvent_periodDue (b : Bool) (act : PlacementUnit → PlacementUnit) (s : State) : (State.placementEvent b act s).periodDue = s.periodDue := by simp only [State.placementEvent]
@[simp] theorem placementEvent_hd (b : Bool) (act : PlacementUnit → PlacementUnit) (s : State) : (State.placementEvent b act s).hd = s.hd := by simp only [State.placementEvent]
@[simp] theorem placementEvent_resetAsserted (b : Bool) (act : PlacementUnit → PlacementUnit) (s : State) : (State.placementEvent b act s).resetAsserted = s.resetAsserted := by simp only [State.placementEvent]
@[simp] theorem placementEvent_regs (b : Bool) (act : PlacementUnit → PlacementUnit) (s : State) : (State.placementEvent b act s).regs = s.regs := by simp only [State.placementEvent]
@[simp] theorem placementEvent_cm (b : Bool) (act : PlacementUnit → PlacementUnit) (s : State) : (State.placementEvent b act s).cm = s.cm := by simp only [State.placementEvent]
@[simp] theorem placementEvent_candidate (b : Bool) (act : PlacementUnit → PlacementUnit) (s : State) : (State.placementEvent b act s).candidate = s.candidate := by simp only [State.placementEvent]
@[simp] theorem placementEvent_active (b : Bool) (act : PlacementUnit → PlacementUnit) (s : State) : (State.placementEvent b act s).active = s.active := by simp only [State.placementEvent]
@[simp] theorem placementEvent_decks (b : Bool) (act : PlacementUnit → PlacementUnit) (s : State) : (State.placementEvent b act s).decks = s.decks := by simp only [State.placementEvent]
@[simp] theorem placementEvent_executor (b : Bool) (act : PlacementUnit → PlacementUnit) (s : State) : (State.placementEvent b act s).executor = s.executor := by simp only [State.placementEvent]
@[simp] theorem placementEvent_lastGranted (b : Bool) (act : PlacementUnit → PlacementUnit) (s : State) : (State.placementEvent b act s).lastGranted = s.lastGranted := by simp only [State.placementEvent]
@[simp] theorem placementEvent_contacts (b : Bool) (act : PlacementUnit → PlacementUnit) (s : State) : (State.placementEvent b act s).contacts = s.contacts := by simp only [State.placementEvent]
@[simp] theorem placementEvent_measured (b : Bool) (act : PlacementUnit → PlacementUnit) (s : State) : (State.placementEvent b act s).measured = s.measured := by simp only [State.placementEvent]
@[simp] theorem placementEvent_tach (b : Bool) (act : PlacementUnit → PlacementUnit) (s : State) : (State.placementEvent b act s).tach = s.tach := by simp only [State.placementEvent]
@[simp] theorem placementEvent_gates (b : Bool) (act : PlacementUnit → PlacementUnit) (s : State) : (State.placementEvent b act s).gates = s.gates := by simp only [State.placementEvent]
@[simp] theorem placementEvent_sref (b : Bool) (act : PlacementUnit → PlacementUnit) (s : State) : (State.placementEvent b act s).sref = s.sref := by simp only [State.placementEvent]
@[simp] theorem placementEvent_channels (b : Bool) (act : PlacementUnit → PlacementUnit) (s : State) : (State.placementEvent b act s).channels = s.channels := by simp only [State.placementEvent]
@[simp] theorem placementEvent_zones (b : Bool) (act : PlacementUnit → PlacementUnit) (s : State) : (State.placementEvent b act s).zones = s.zones := by simp only [State.placementEvent]
@[simp] theorem placementEvent_fans (b : Bool) (act : PlacementUnit → PlacementUnit) (s : State) : (State.placementEvent b act s).fans = s.fans := by simp only [State.placementEvent]
@[simp] theorem placementEvent_doors (b : Bool) (act : PlacementUnit → PlacementUnit) (s : State) : (State.placementEvent b act s).doors = s.doors := by simp only [State.placementEvent]
@[simp] theorem placementEvent_incidents (b : Bool) (act : PlacementUnit → PlacementUnit) (s : State) : (State.placementEvent b act s).incidents = s.incidents := by simp only [State.placementEvent]
@[simp] theorem placementEvent_link (b : Bool) (act : PlacementUnit → PlacementUnit) (s : State) : (State.placementEvent b act s).link = s.link := by simp only [State.placementEvent]

/-! ## portEvent -/

@[simp] theorem portEvent_pending (p : Port) (act : PortState → PortState) (s : State) : (State.portEvent p act s).pending = s.pending := by simp only [State.portEvent]
@[simp] theorem portEvent_now (p : Port) (act : PortState → PortState) (s : State) : (State.portEvent p act s).now = s.now := by simp only [State.portEvent]
@[simp] theorem portEvent_secondsDue (p : Port) (act : PortState → PortState) (s : State) : (State.portEvent p act s).secondsDue = s.secondsDue := by simp only [State.portEvent]
@[simp] theorem portEvent_periodDue (p : Port) (act : PortState → PortState) (s : State) : (State.portEvent p act s).periodDue = s.periodDue := by simp only [State.portEvent]
@[simp] theorem portEvent_hd (p : Port) (act : PortState → PortState) (s : State) : (State.portEvent p act s).hd = s.hd := by simp only [State.portEvent]
@[simp] theorem portEvent_resetAsserted (p : Port) (act : PortState → PortState) (s : State) : (State.portEvent p act s).resetAsserted = s.resetAsserted := by simp only [State.portEvent]
@[simp] theorem portEvent_cm (p : Port) (act : PortState → PortState) (s : State) : (State.portEvent p act s).cm = s.cm := by simp only [State.portEvent]
@[simp] theorem portEvent_candidate (p : Port) (act : PortState → PortState) (s : State) : (State.portEvent p act s).candidate = s.candidate := by simp only [State.portEvent]
@[simp] theorem portEvent_active (p : Port) (act : PortState → PortState) (s : State) : (State.portEvent p act s).active = s.active := by simp only [State.portEvent]
@[simp] theorem portEvent_decks (p : Port) (act : PortState → PortState) (s : State) : (State.portEvent p act s).decks = s.decks := by simp only [State.portEvent]
@[simp] theorem portEvent_executor (p : Port) (act : PortState → PortState) (s : State) : (State.portEvent p act s).executor = s.executor := by simp only [State.portEvent]
@[simp] theorem portEvent_lastGranted (p : Port) (act : PortState → PortState) (s : State) : (State.portEvent p act s).lastGranted = s.lastGranted := by simp only [State.portEvent]
@[simp] theorem portEvent_contacts (p : Port) (act : PortState → PortState) (s : State) : (State.portEvent p act s).contacts = s.contacts := by simp only [State.portEvent]
@[simp] theorem portEvent_measured (p : Port) (act : PortState → PortState) (s : State) : (State.portEvent p act s).measured = s.measured := by simp only [State.portEvent]
@[simp] theorem portEvent_tach (p : Port) (act : PortState → PortState) (s : State) : (State.portEvent p act s).tach = s.tach := by simp only [State.portEvent]
@[simp] theorem portEvent_gates (p : Port) (act : PortState → PortState) (s : State) : (State.portEvent p act s).gates = s.gates := by simp only [State.portEvent]
@[simp] theorem portEvent_sref (p : Port) (act : PortState → PortState) (s : State) : (State.portEvent p act s).sref = s.sref := by simp only [State.portEvent]
@[simp] theorem portEvent_channels (p : Port) (act : PortState → PortState) (s : State) : (State.portEvent p act s).channels = s.channels := by simp only [State.portEvent]
@[simp] theorem portEvent_zones (p : Port) (act : PortState → PortState) (s : State) : (State.portEvent p act s).zones = s.zones := by simp only [State.portEvent]
@[simp] theorem portEvent_fans (p : Port) (act : PortState → PortState) (s : State) : (State.portEvent p act s).fans = s.fans := by simp only [State.portEvent]
@[simp] theorem portEvent_doors (p : Port) (act : PortState → PortState) (s : State) : (State.portEvent p act s).doors = s.doors := by simp only [State.portEvent]
@[simp] theorem portEvent_incidents (p : Port) (act : PortState → PortState) (s : State) : (State.portEvent p act s).incidents = s.incidents := by simp only [State.portEvent]
@[simp] theorem portEvent_placement (p : Port) (act : PortState → PortState) (s : State) : (State.portEvent p act s).placement = s.placement := by simp only [State.portEvent]
@[simp] theorem portEvent_mail (p : Port) (act : PortState → PortState) (s : State) : (State.portEvent p act s).mail = s.mail := by simp only [State.portEvent]

/-! ## popContact -/

@[simp] theorem popContact_pending (i : Fin 36) (s : State) : (State.popContact i s).pending = s.pending := by simp only [State.popContact]
@[simp] theorem popContact_now (i : Fin 36) (s : State) : (State.popContact i s).now = s.now := by simp only [State.popContact]
@[simp] theorem popContact_secondsDue (i : Fin 36) (s : State) : (State.popContact i s).secondsDue = s.secondsDue := by simp only [State.popContact]
@[simp] theorem popContact_periodDue (i : Fin 36) (s : State) : (State.popContact i s).periodDue = s.periodDue := by simp only [State.popContact]
@[simp] theorem popContact_hd (i : Fin 36) (s : State) : (State.popContact i s).hd = s.hd := by simp only [State.popContact]
@[simp] theorem popContact_resetAsserted (i : Fin 36) (s : State) : (State.popContact i s).resetAsserted = s.resetAsserted := by simp only [State.popContact]
@[simp] theorem popContact_regs (i : Fin 36) (s : State) : (State.popContact i s).regs = s.regs := by simp only [State.popContact]
@[simp] theorem popContact_cm (i : Fin 36) (s : State) : (State.popContact i s).cm = s.cm := by simp only [State.popContact]
@[simp] theorem popContact_candidate (i : Fin 36) (s : State) : (State.popContact i s).candidate = s.candidate := by simp only [State.popContact]
@[simp] theorem popContact_active (i : Fin 36) (s : State) : (State.popContact i s).active = s.active := by simp only [State.popContact]
@[simp] theorem popContact_decks (i : Fin 36) (s : State) : (State.popContact i s).decks = s.decks := by simp only [State.popContact]
@[simp] theorem popContact_executor (i : Fin 36) (s : State) : (State.popContact i s).executor = s.executor := by simp only [State.popContact]
@[simp] theorem popContact_lastGranted (i : Fin 36) (s : State) : (State.popContact i s).lastGranted = s.lastGranted := by simp only [State.popContact]
@[simp] theorem popContact_contacts (i : Fin 36) (s : State) : (State.popContact i s).contacts = s.contacts := by simp only [State.popContact]
@[simp] theorem popContact_measured (i : Fin 36) (s : State) : (State.popContact i s).measured = s.measured := by simp only [State.popContact]
@[simp] theorem popContact_tach (i : Fin 36) (s : State) : (State.popContact i s).tach = s.tach := by simp only [State.popContact]
@[simp] theorem popContact_gates (i : Fin 36) (s : State) : (State.popContact i s).gates = s.gates := by simp only [State.popContact]
@[simp] theorem popContact_sref (i : Fin 36) (s : State) : (State.popContact i s).sref = s.sref := by simp only [State.popContact]
@[simp] theorem popContact_channels (i : Fin 36) (s : State) : (State.popContact i s).channels = s.channels := by simp only [State.popContact]
@[simp] theorem popContact_zones (i : Fin 36) (s : State) : (State.popContact i s).zones = s.zones := by simp only [State.popContact]
@[simp] theorem popContact_fans (i : Fin 36) (s : State) : (State.popContact i s).fans = s.fans := by simp only [State.popContact]
@[simp] theorem popContact_doors (i : Fin 36) (s : State) : (State.popContact i s).doors = s.doors := by simp only [State.popContact]
@[simp] theorem popContact_incidents (i : Fin 36) (s : State) : (State.popContact i s).incidents = s.incidents := by simp only [State.popContact]
@[simp] theorem popContact_placement (i : Fin 36) (s : State) : (State.popContact i s).placement = s.placement := by simp only [State.popContact]
@[simp] theorem popContact_link (i : Fin 36) (s : State) : (State.popContact i s).link = s.link := by simp only [State.popContact]

/-! ## popDeckEvent -/

@[simp] theorem popDeckEvent_pending (d : Fin 4) (s : State) : (State.popDeckEvent d s).pending = s.pending := by simp only [State.popDeckEvent]
@[simp] theorem popDeckEvent_now (d : Fin 4) (s : State) : (State.popDeckEvent d s).now = s.now := by simp only [State.popDeckEvent]
@[simp] theorem popDeckEvent_secondsDue (d : Fin 4) (s : State) : (State.popDeckEvent d s).secondsDue = s.secondsDue := by simp only [State.popDeckEvent]
@[simp] theorem popDeckEvent_periodDue (d : Fin 4) (s : State) : (State.popDeckEvent d s).periodDue = s.periodDue := by simp only [State.popDeckEvent]
@[simp] theorem popDeckEvent_hd (d : Fin 4) (s : State) : (State.popDeckEvent d s).hd = s.hd := by simp only [State.popDeckEvent]
@[simp] theorem popDeckEvent_resetAsserted (d : Fin 4) (s : State) : (State.popDeckEvent d s).resetAsserted = s.resetAsserted := by simp only [State.popDeckEvent]
@[simp] theorem popDeckEvent_regs (d : Fin 4) (s : State) : (State.popDeckEvent d s).regs = s.regs := by simp only [State.popDeckEvent]
@[simp] theorem popDeckEvent_cm (d : Fin 4) (s : State) : (State.popDeckEvent d s).cm = s.cm := by simp only [State.popDeckEvent]
@[simp] theorem popDeckEvent_candidate (d : Fin 4) (s : State) : (State.popDeckEvent d s).candidate = s.candidate := by simp only [State.popDeckEvent]
@[simp] theorem popDeckEvent_active (d : Fin 4) (s : State) : (State.popDeckEvent d s).active = s.active := by simp only [State.popDeckEvent]
@[simp] theorem popDeckEvent_decks (d : Fin 4) (s : State) : (State.popDeckEvent d s).decks = s.decks := by simp only [State.popDeckEvent]
@[simp] theorem popDeckEvent_executor (d : Fin 4) (s : State) : (State.popDeckEvent d s).executor = s.executor := by simp only [State.popDeckEvent]
@[simp] theorem popDeckEvent_lastGranted (d : Fin 4) (s : State) : (State.popDeckEvent d s).lastGranted = s.lastGranted := by simp only [State.popDeckEvent]
@[simp] theorem popDeckEvent_contacts (d : Fin 4) (s : State) : (State.popDeckEvent d s).contacts = s.contacts := by simp only [State.popDeckEvent]
@[simp] theorem popDeckEvent_measured (d : Fin 4) (s : State) : (State.popDeckEvent d s).measured = s.measured := by simp only [State.popDeckEvent]
@[simp] theorem popDeckEvent_tach (d : Fin 4) (s : State) : (State.popDeckEvent d s).tach = s.tach := by simp only [State.popDeckEvent]
@[simp] theorem popDeckEvent_gates (d : Fin 4) (s : State) : (State.popDeckEvent d s).gates = s.gates := by simp only [State.popDeckEvent]
@[simp] theorem popDeckEvent_sref (d : Fin 4) (s : State) : (State.popDeckEvent d s).sref = s.sref := by simp only [State.popDeckEvent]
@[simp] theorem popDeckEvent_channels (d : Fin 4) (s : State) : (State.popDeckEvent d s).channels = s.channels := by simp only [State.popDeckEvent]
@[simp] theorem popDeckEvent_zones (d : Fin 4) (s : State) : (State.popDeckEvent d s).zones = s.zones := by simp only [State.popDeckEvent]
@[simp] theorem popDeckEvent_fans (d : Fin 4) (s : State) : (State.popDeckEvent d s).fans = s.fans := by simp only [State.popDeckEvent]
@[simp] theorem popDeckEvent_doors (d : Fin 4) (s : State) : (State.popDeckEvent d s).doors = s.doors := by simp only [State.popDeckEvent]
@[simp] theorem popDeckEvent_incidents (d : Fin 4) (s : State) : (State.popDeckEvent d s).incidents = s.incidents := by simp only [State.popDeckEvent]
@[simp] theorem popDeckEvent_placement (d : Fin 4) (s : State) : (State.popDeckEvent d s).placement = s.placement := by simp only [State.popDeckEvent]
@[simp] theorem popDeckEvent_link (d : Fin 4) (s : State) : (State.popDeckEvent d s).link = s.link := by simp only [State.popDeckEvent]

/-! ## storeItem -/

@[simp] theorem storeItem_pending (r : ItemRef) (s : State) : (State.storeItem r s).pending = s.pending := by simp only [State.storeItem]
@[simp] theorem storeItem_now (r : ItemRef) (s : State) : (State.storeItem r s).now = s.now := by simp only [State.storeItem]
@[simp] theorem storeItem_secondsDue (r : ItemRef) (s : State) : (State.storeItem r s).secondsDue = s.secondsDue := by simp only [State.storeItem]
@[simp] theorem storeItem_periodDue (r : ItemRef) (s : State) : (State.storeItem r s).periodDue = s.periodDue := by simp only [State.storeItem]
@[simp] theorem storeItem_hd (r : ItemRef) (s : State) : (State.storeItem r s).hd = s.hd := by simp only [State.storeItem]
@[simp] theorem storeItem_resetAsserted (r : ItemRef) (s : State) : (State.storeItem r s).resetAsserted = s.resetAsserted := by simp only [State.storeItem]
@[simp] theorem storeItem_regs (r : ItemRef) (s : State) : (State.storeItem r s).regs = s.regs := by simp only [State.storeItem]
@[simp] theorem storeItem_cm (r : ItemRef) (s : State) : (State.storeItem r s).cm = s.cm := by simp only [State.storeItem]
@[simp] theorem storeItem_candidate (r : ItemRef) (s : State) : (State.storeItem r s).candidate = s.candidate := by simp only [State.storeItem]
@[simp] theorem storeItem_decks (r : ItemRef) (s : State) : (State.storeItem r s).decks = s.decks := by simp only [State.storeItem]
@[simp] theorem storeItem_executor (r : ItemRef) (s : State) : (State.storeItem r s).executor = s.executor := by simp only [State.storeItem]
@[simp] theorem storeItem_lastGranted (r : ItemRef) (s : State) : (State.storeItem r s).lastGranted = s.lastGranted := by simp only [State.storeItem]
@[simp] theorem storeItem_contacts (r : ItemRef) (s : State) : (State.storeItem r s).contacts = s.contacts := by simp only [State.storeItem]
@[simp] theorem storeItem_measured (r : ItemRef) (s : State) : (State.storeItem r s).measured = s.measured := by simp only [State.storeItem]
@[simp] theorem storeItem_tach (r : ItemRef) (s : State) : (State.storeItem r s).tach = s.tach := by simp only [State.storeItem]
@[simp] theorem storeItem_gates (r : ItemRef) (s : State) : (State.storeItem r s).gates = s.gates := by simp only [State.storeItem]
@[simp] theorem storeItem_sref (r : ItemRef) (s : State) : (State.storeItem r s).sref = s.sref := by simp only [State.storeItem]
@[simp] theorem storeItem_channels (r : ItemRef) (s : State) : (State.storeItem r s).channels = s.channels := by simp only [State.storeItem]
@[simp] theorem storeItem_zones (r : ItemRef) (s : State) : (State.storeItem r s).zones = s.zones := by simp only [State.storeItem]
@[simp] theorem storeItem_fans (r : ItemRef) (s : State) : (State.storeItem r s).fans = s.fans := by simp only [State.storeItem]
@[simp] theorem storeItem_doors (r : ItemRef) (s : State) : (State.storeItem r s).doors = s.doors := by simp only [State.storeItem]
@[simp] theorem storeItem_incidents (r : ItemRef) (s : State) : (State.storeItem r s).incidents = s.incidents := by simp only [State.storeItem]
@[simp] theorem storeItem_placement (r : ItemRef) (s : State) : (State.storeItem r s).placement = s.placement := by simp only [State.storeItem]
@[simp] theorem storeItem_link (r : ItemRef) (s : State) : (State.storeItem r s).link = s.link := by simp only [State.storeItem]
@[simp] theorem storeItem_mail (r : ItemRef) (s : State) : (State.storeItem r s).mail = s.mail := by simp only [State.storeItem]

/-! ## configureContacts -/

@[simp] theorem configureContacts_pending (o : Fin 36 → Bool) (s : State) : (State.configureContacts o s).pending = s.pending := by simp only [State.configureContacts]
@[simp] theorem configureContacts_now (o : Fin 36 → Bool) (s : State) : (State.configureContacts o s).now = s.now := by simp only [State.configureContacts]
@[simp] theorem configureContacts_secondsDue (o : Fin 36 → Bool) (s : State) : (State.configureContacts o s).secondsDue = s.secondsDue := by simp only [State.configureContacts]
@[simp] theorem configureContacts_periodDue (o : Fin 36 → Bool) (s : State) : (State.configureContacts o s).periodDue = s.periodDue := by simp only [State.configureContacts]
@[simp] theorem configureContacts_hd (o : Fin 36 → Bool) (s : State) : (State.configureContacts o s).hd = s.hd := by simp only [State.configureContacts]
@[simp] theorem configureContacts_resetAsserted (o : Fin 36 → Bool) (s : State) : (State.configureContacts o s).resetAsserted = s.resetAsserted := by simp only [State.configureContacts]
@[simp] theorem configureContacts_regs (o : Fin 36 → Bool) (s : State) : (State.configureContacts o s).regs = s.regs := by simp only [State.configureContacts]
@[simp] theorem configureContacts_cm (o : Fin 36 → Bool) (s : State) : (State.configureContacts o s).cm = s.cm := by simp only [State.configureContacts]
@[simp] theorem configureContacts_candidate (o : Fin 36 → Bool) (s : State) : (State.configureContacts o s).candidate = s.candidate := by simp only [State.configureContacts]
@[simp] theorem configureContacts_active (o : Fin 36 → Bool) (s : State) : (State.configureContacts o s).active = s.active := by simp only [State.configureContacts]
@[simp] theorem configureContacts_decks (o : Fin 36 → Bool) (s : State) : (State.configureContacts o s).decks = s.decks := by simp only [State.configureContacts]
@[simp] theorem configureContacts_executor (o : Fin 36 → Bool) (s : State) : (State.configureContacts o s).executor = s.executor := by simp only [State.configureContacts]
@[simp] theorem configureContacts_lastGranted (o : Fin 36 → Bool) (s : State) : (State.configureContacts o s).lastGranted = s.lastGranted := by simp only [State.configureContacts]
@[simp] theorem configureContacts_measured (o : Fin 36 → Bool) (s : State) : (State.configureContacts o s).measured = s.measured := by simp only [State.configureContacts]
@[simp] theorem configureContacts_tach (o : Fin 36 → Bool) (s : State) : (State.configureContacts o s).tach = s.tach := by simp only [State.configureContacts]
@[simp] theorem configureContacts_gates (o : Fin 36 → Bool) (s : State) : (State.configureContacts o s).gates = s.gates := by simp only [State.configureContacts]
@[simp] theorem configureContacts_sref (o : Fin 36 → Bool) (s : State) : (State.configureContacts o s).sref = s.sref := by simp only [State.configureContacts]
@[simp] theorem configureContacts_channels (o : Fin 36 → Bool) (s : State) : (State.configureContacts o s).channels = s.channels := by simp only [State.configureContacts]
@[simp] theorem configureContacts_zones (o : Fin 36 → Bool) (s : State) : (State.configureContacts o s).zones = s.zones := by simp only [State.configureContacts]
@[simp] theorem configureContacts_fans (o : Fin 36 → Bool) (s : State) : (State.configureContacts o s).fans = s.fans := by simp only [State.configureContacts]
@[simp] theorem configureContacts_doors (o : Fin 36 → Bool) (s : State) : (State.configureContacts o s).doors = s.doors := by simp only [State.configureContacts]
@[simp] theorem configureContacts_incidents (o : Fin 36 → Bool) (s : State) : (State.configureContacts o s).incidents = s.incidents := by simp only [State.configureContacts]
@[simp] theorem configureContacts_placement (o : Fin 36 → Bool) (s : State) : (State.configureContacts o s).placement = s.placement := by simp only [State.configureContacts]
@[simp] theorem configureContacts_link (o : Fin 36 → Bool) (s : State) : (State.configureContacts o s).link = s.link := by simp only [State.configureContacts]
@[simp] theorem configureContacts_mail (o : Fin 36 → Bool) (s : State) : (State.configureContacts o s).mail = s.mail := by simp only [State.configureContacts]

/-! ## releaseLatch -/

@[simp] theorem releaseLatch_pending (s : State) : (s.releaseLatch).pending = s.pending := by simp only [State.releaseLatch]
@[simp] theorem releaseLatch_now (s : State) : (s.releaseLatch).now = s.now := by simp only [State.releaseLatch]
@[simp] theorem releaseLatch_secondsDue (s : State) : (s.releaseLatch).secondsDue = s.secondsDue := by simp only [State.releaseLatch]
@[simp] theorem releaseLatch_periodDue (s : State) : (s.releaseLatch).periodDue = s.periodDue := by simp only [State.releaseLatch]
@[simp] theorem releaseLatch_hd (s : State) : (s.releaseLatch).hd = s.hd := by simp only [State.releaseLatch]
@[simp] theorem releaseLatch_resetAsserted (s : State) : (s.releaseLatch).resetAsserted = s.resetAsserted := by simp only [State.releaseLatch]
@[simp] theorem releaseLatch_regs (s : State) : (s.releaseLatch).regs = s.regs := by simp only [State.releaseLatch]
@[simp] theorem releaseLatch_candidate (s : State) : (s.releaseLatch).candidate = s.candidate := by simp only [State.releaseLatch]
@[simp] theorem releaseLatch_active (s : State) : (s.releaseLatch).active = s.active := by simp only [State.releaseLatch]
@[simp] theorem releaseLatch_decks (s : State) : (s.releaseLatch).decks = s.decks := by simp only [State.releaseLatch]
@[simp] theorem releaseLatch_executor (s : State) : (s.releaseLatch).executor = s.executor := by simp only [State.releaseLatch]
@[simp] theorem releaseLatch_lastGranted (s : State) : (s.releaseLatch).lastGranted = s.lastGranted := by simp only [State.releaseLatch]
@[simp] theorem releaseLatch_contacts (s : State) : (s.releaseLatch).contacts = s.contacts := by simp only [State.releaseLatch]
@[simp] theorem releaseLatch_measured (s : State) : (s.releaseLatch).measured = s.measured := by simp only [State.releaseLatch]
@[simp] theorem releaseLatch_tach (s : State) : (s.releaseLatch).tach = s.tach := by simp only [State.releaseLatch]
@[simp] theorem releaseLatch_gates (s : State) : (s.releaseLatch).gates = s.gates := by simp only [State.releaseLatch]
@[simp] theorem releaseLatch_sref (s : State) : (s.releaseLatch).sref = s.sref := by simp only [State.releaseLatch]
@[simp] theorem releaseLatch_channels (s : State) : (s.releaseLatch).channels = s.channels := by simp only [State.releaseLatch]
@[simp] theorem releaseLatch_zones (s : State) : (s.releaseLatch).zones = s.zones := by simp only [State.releaseLatch]
@[simp] theorem releaseLatch_fans (s : State) : (s.releaseLatch).fans = s.fans := by simp only [State.releaseLatch]
@[simp] theorem releaseLatch_doors (s : State) : (s.releaseLatch).doors = s.doors := by simp only [State.releaseLatch]
@[simp] theorem releaseLatch_incidents (s : State) : (s.releaseLatch).incidents = s.incidents := by simp only [State.releaseLatch]
@[simp] theorem releaseLatch_placement (s : State) : (s.releaseLatch).placement = s.placement := by simp only [State.releaseLatch]
@[simp] theorem releaseLatch_link (s : State) : (s.releaseLatch).link = s.link := by simp only [State.releaseLatch]
@[simp] theorem releaseLatch_mail (s : State) : (s.releaseLatch).mail = s.mail := by simp only [State.releaseLatch]

/-! ## discarded -/

@[simp] theorem discarded_pending (s : State) : (s.discarded).pending = s.pending := by simp only [State.discarded]
@[simp] theorem discarded_now (s : State) : (s.discarded).now = s.now := by simp only [State.discarded]
@[simp] theorem discarded_secondsDue (s : State) : (s.discarded).secondsDue = s.secondsDue := by simp only [State.discarded]
@[simp] theorem discarded_periodDue (s : State) : (s.discarded).periodDue = s.periodDue := by simp only [State.discarded]
@[simp] theorem discarded_hd (s : State) : (s.discarded).hd = s.hd := by simp only [State.discarded]
@[simp] theorem discarded_resetAsserted (s : State) : (s.discarded).resetAsserted = s.resetAsserted := by simp only [State.discarded]
@[simp] theorem discarded_cm (s : State) : (s.discarded).cm = s.cm := by simp only [State.discarded]
@[simp] theorem discarded_candidate (s : State) : (s.discarded).candidate = s.candidate := by simp only [State.discarded]
@[simp] theorem discarded_active (s : State) : (s.discarded).active = s.active := by simp only [State.discarded]
@[simp] theorem discarded_decks (s : State) : (s.discarded).decks = s.decks := by simp only [State.discarded]
@[simp] theorem discarded_executor (s : State) : (s.discarded).executor = s.executor := by simp only [State.discarded]
@[simp] theorem discarded_lastGranted (s : State) : (s.discarded).lastGranted = s.lastGranted := by simp only [State.discarded]
@[simp] theorem discarded_contacts (s : State) : (s.discarded).contacts = s.contacts := by simp only [State.discarded]
@[simp] theorem discarded_measured (s : State) : (s.discarded).measured = s.measured := by simp only [State.discarded]
@[simp] theorem discarded_tach (s : State) : (s.discarded).tach = s.tach := by simp only [State.discarded]
@[simp] theorem discarded_gates (s : State) : (s.discarded).gates = s.gates := by simp only [State.discarded]
@[simp] theorem discarded_sref (s : State) : (s.discarded).sref = s.sref := by simp only [State.discarded]
@[simp] theorem discarded_channels (s : State) : (s.discarded).channels = s.channels := by simp only [State.discarded]
@[simp] theorem discarded_zones (s : State) : (s.discarded).zones = s.zones := by simp only [State.discarded]
@[simp] theorem discarded_fans (s : State) : (s.discarded).fans = s.fans := by simp only [State.discarded]
@[simp] theorem discarded_doors (s : State) : (s.discarded).doors = s.doors := by simp only [State.discarded]
@[simp] theorem discarded_incidents (s : State) : (s.discarded).incidents = s.incidents := by simp only [State.discarded]
@[simp] theorem discarded_placement (s : State) : (s.discarded).placement = s.placement := by simp only [State.discarded]
@[simp] theorem discarded_link (s : State) : (s.discarded).link = s.link := by simp only [State.discarded]
@[simp] theorem discarded_mail (s : State) : (s.discarded).mail = s.mail := by simp only [State.discarded]

/-! ## sampleContact -/

@[simp] theorem sampleContact_pending (s : State) (i : Fin 36) : (s.sampleContact i).pending = s.pending := by simp only [State.sampleContact]
@[simp] theorem sampleContact_now (s : State) (i : Fin 36) : (s.sampleContact i).now = s.now := by simp only [State.sampleContact]
@[simp] theorem sampleContact_secondsDue (s : State) (i : Fin 36) : (s.sampleContact i).secondsDue = s.secondsDue := by simp only [State.sampleContact]
@[simp] theorem sampleContact_periodDue (s : State) (i : Fin 36) : (s.sampleContact i).periodDue = s.periodDue := by simp only [State.sampleContact]
@[simp] theorem sampleContact_hd (s : State) (i : Fin 36) : (s.sampleContact i).hd = s.hd := by simp only [State.sampleContact]
@[simp] theorem sampleContact_resetAsserted (s : State) (i : Fin 36) : (s.sampleContact i).resetAsserted = s.resetAsserted := by simp only [State.sampleContact]
@[simp] theorem sampleContact_regs (s : State) (i : Fin 36) : (s.sampleContact i).regs = s.regs := by simp only [State.sampleContact]
@[simp] theorem sampleContact_cm (s : State) (i : Fin 36) : (s.sampleContact i).cm = s.cm := by simp only [State.sampleContact]
@[simp] theorem sampleContact_candidate (s : State) (i : Fin 36) : (s.sampleContact i).candidate = s.candidate := by simp only [State.sampleContact]
@[simp] theorem sampleContact_active (s : State) (i : Fin 36) : (s.sampleContact i).active = s.active := by simp only [State.sampleContact]
@[simp] theorem sampleContact_decks (s : State) (i : Fin 36) : (s.sampleContact i).decks = s.decks := by simp only [State.sampleContact]
@[simp] theorem sampleContact_executor (s : State) (i : Fin 36) : (s.sampleContact i).executor = s.executor := by simp only [State.sampleContact]
@[simp] theorem sampleContact_lastGranted (s : State) (i : Fin 36) : (s.sampleContact i).lastGranted = s.lastGranted := by simp only [State.sampleContact]
@[simp] theorem sampleContact_measured (s : State) (i : Fin 36) : (s.sampleContact i).measured = s.measured := by simp only [State.sampleContact]
@[simp] theorem sampleContact_tach (s : State) (i : Fin 36) : (s.sampleContact i).tach = s.tach := by simp only [State.sampleContact]
@[simp] theorem sampleContact_gates (s : State) (i : Fin 36) : (s.sampleContact i).gates = s.gates := by simp only [State.sampleContact]
@[simp] theorem sampleContact_sref (s : State) (i : Fin 36) : (s.sampleContact i).sref = s.sref := by simp only [State.sampleContact]
@[simp] theorem sampleContact_channels (s : State) (i : Fin 36) : (s.sampleContact i).channels = s.channels := by simp only [State.sampleContact]
@[simp] theorem sampleContact_zones (s : State) (i : Fin 36) : (s.sampleContact i).zones = s.zones := by simp only [State.sampleContact]
@[simp] theorem sampleContact_fans (s : State) (i : Fin 36) : (s.sampleContact i).fans = s.fans := by simp only [State.sampleContact]
@[simp] theorem sampleContact_doors (s : State) (i : Fin 36) : (s.sampleContact i).doors = s.doors := by simp only [State.sampleContact]
@[simp] theorem sampleContact_incidents (s : State) (i : Fin 36) : (s.sampleContact i).incidents = s.incidents := by simp only [State.sampleContact]
@[simp] theorem sampleContact_placement (s : State) (i : Fin 36) : (s.sampleContact i).placement = s.placement := by simp only [State.sampleContact]
@[simp] theorem sampleContact_link (s : State) (i : Fin 36) : (s.sampleContact i).link = s.link := by simp only [State.sampleContact]

/-! ## ask -/

@[simp] theorem ask_pending (z : Fin 8) (s : State) : (State.ask z s).pending = s.pending := by simp only [State.ask]
@[simp] theorem ask_now (z : Fin 8) (s : State) : (State.ask z s).now = s.now := by simp only [State.ask]
@[simp] theorem ask_secondsDue (z : Fin 8) (s : State) : (State.ask z s).secondsDue = s.secondsDue := by simp only [State.ask]
@[simp] theorem ask_periodDue (z : Fin 8) (s : State) : (State.ask z s).periodDue = s.periodDue := by simp only [State.ask]
@[simp] theorem ask_hd (z : Fin 8) (s : State) : (State.ask z s).hd = s.hd := by simp only [State.ask]
@[simp] theorem ask_resetAsserted (z : Fin 8) (s : State) : (State.ask z s).resetAsserted = s.resetAsserted := by simp only [State.ask]
@[simp] theorem ask_regs (z : Fin 8) (s : State) : (State.ask z s).regs = s.regs := by simp only [State.ask]
@[simp] theorem ask_cm (z : Fin 8) (s : State) : (State.ask z s).cm = s.cm := by simp only [State.ask]
@[simp] theorem ask_candidate (z : Fin 8) (s : State) : (State.ask z s).candidate = s.candidate := by simp only [State.ask]
@[simp] theorem ask_active (z : Fin 8) (s : State) : (State.ask z s).active = s.active := by simp only [State.ask]
@[simp] theorem ask_decks (z : Fin 8) (s : State) : (State.ask z s).decks = s.decks := by simp only [State.ask]
@[simp] theorem ask_executor (z : Fin 8) (s : State) : (State.ask z s).executor = s.executor := by simp only [State.ask]
@[simp] theorem ask_lastGranted (z : Fin 8) (s : State) : (State.ask z s).lastGranted = s.lastGranted := by simp only [State.ask]
@[simp] theorem ask_contacts (z : Fin 8) (s : State) : (State.ask z s).contacts = s.contacts := by simp only [State.ask]
@[simp] theorem ask_measured (z : Fin 8) (s : State) : (State.ask z s).measured = s.measured := by simp only [State.ask]
@[simp] theorem ask_tach (z : Fin 8) (s : State) : (State.ask z s).tach = s.tach := by simp only [State.ask]
@[simp] theorem ask_gates (z : Fin 8) (s : State) : (State.ask z s).gates = s.gates := by simp only [State.ask]
@[simp] theorem ask_sref (z : Fin 8) (s : State) : (State.ask z s).sref = s.sref := by simp only [State.ask]
@[simp] theorem ask_channels (z : Fin 8) (s : State) : (State.ask z s).channels = s.channels := by simp only [State.ask]
@[simp] theorem ask_zones (z : Fin 8) (s : State) : (State.ask z s).zones = s.zones := by simp only [State.ask]
@[simp] theorem ask_fans (z : Fin 8) (s : State) : (State.ask z s).fans = s.fans := by simp only [State.ask]
@[simp] theorem ask_doors (z : Fin 8) (s : State) : (State.ask z s).doors = s.doors := by simp only [State.ask]
@[simp] theorem ask_incidents (z : Fin 8) (s : State) : (State.ask z s).incidents = s.incidents := by simp only [State.ask]
@[simp] theorem ask_placement (z : Fin 8) (s : State) : (State.ask z s).placement = s.placement := by simp only [State.ask]
@[simp] theorem ask_link (z : Fin 8) (s : State) : (State.ask z s).link = s.link := by simp only [State.ask]

/-! ## tickInputs -/

@[simp] theorem tickInputs_pending (s : State) : (s.tickInputs).pending = s.pending := by simp only [State.tickInputs]
@[simp] theorem tickInputs_now (s : State) : (s.tickInputs).now = s.now := by simp only [State.tickInputs]
@[simp] theorem tickInputs_secondsDue (s : State) : (s.tickInputs).secondsDue = s.secondsDue := by simp only [State.tickInputs]
@[simp] theorem tickInputs_hd (s : State) : (s.tickInputs).hd = s.hd := by simp only [State.tickInputs]
@[simp] theorem tickInputs_resetAsserted (s : State) : (s.tickInputs).resetAsserted = s.resetAsserted := by simp only [State.tickInputs]
@[simp] theorem tickInputs_regs (s : State) : (s.tickInputs).regs = s.regs := by simp only [State.tickInputs]
@[simp] theorem tickInputs_cm (s : State) : (s.tickInputs).cm = s.cm := by simp only [State.tickInputs]
@[simp] theorem tickInputs_candidate (s : State) : (s.tickInputs).candidate = s.candidate := by simp only [State.tickInputs]
@[simp] theorem tickInputs_active (s : State) : (s.tickInputs).active = s.active := by simp only [State.tickInputs]
@[simp] theorem tickInputs_decks (s : State) : (s.tickInputs).decks = s.decks := by simp only [State.tickInputs]
@[simp] theorem tickInputs_executor (s : State) : (s.tickInputs).executor = s.executor := by simp only [State.tickInputs]
@[simp] theorem tickInputs_lastGranted (s : State) : (s.tickInputs).lastGranted = s.lastGranted := by simp only [State.tickInputs]
@[simp] theorem tickInputs_sref (s : State) : (s.tickInputs).sref = s.sref := by simp only [State.tickInputs]
@[simp] theorem tickInputs_channels (s : State) : (s.tickInputs).channels = s.channels := by simp only [State.tickInputs]
@[simp] theorem tickInputs_zones (s : State) : (s.tickInputs).zones = s.zones := by simp only [State.tickInputs]
@[simp] theorem tickInputs_fans (s : State) : (s.tickInputs).fans = s.fans := by simp only [State.tickInputs]
@[simp] theorem tickInputs_doors (s : State) : (s.tickInputs).doors = s.doors := by simp only [State.tickInputs]
@[simp] theorem tickInputs_incidents (s : State) : (s.tickInputs).incidents = s.incidents := by simp only [State.tickInputs]
@[simp] theorem tickInputs_placement (s : State) : (s.tickInputs).placement = s.placement := by simp only [State.tickInputs]
@[simp] theorem tickInputs_link (s : State) : (s.tickInputs).link = s.link := by simp only [State.tickInputs]
@[simp] theorem tickInputs_mail (s : State) : (s.tickInputs).mail = s.mail := by simp only [State.tickInputs]

/-! ## takeSamples -/

@[simp] theorem takeSamples_pending (s : State) : (s.takeSamples).pending = s.pending := by simp only [State.takeSamples]
@[simp] theorem takeSamples_now (s : State) : (s.takeSamples).now = s.now := by simp only [State.takeSamples]
@[simp] theorem takeSamples_secondsDue (s : State) : (s.takeSamples).secondsDue = s.secondsDue := by simp only [State.takeSamples]
@[simp] theorem takeSamples_periodDue (s : State) : (s.takeSamples).periodDue = s.periodDue := by simp only [State.takeSamples]
@[simp] theorem takeSamples_hd (s : State) : (s.takeSamples).hd = s.hd := by simp only [State.takeSamples]
@[simp] theorem takeSamples_resetAsserted (s : State) : (s.takeSamples).resetAsserted = s.resetAsserted := by simp only [State.takeSamples]
@[simp] theorem takeSamples_regs (s : State) : (s.takeSamples).regs = s.regs := by simp only [State.takeSamples]
@[simp] theorem takeSamples_cm (s : State) : (s.takeSamples).cm = s.cm := by simp only [State.takeSamples]
@[simp] theorem takeSamples_candidate (s : State) : (s.takeSamples).candidate = s.candidate := by simp only [State.takeSamples]
@[simp] theorem takeSamples_active (s : State) : (s.takeSamples).active = s.active := by simp only [State.takeSamples]
@[simp] theorem takeSamples_decks (s : State) : (s.takeSamples).decks = s.decks := by simp only [State.takeSamples]
@[simp] theorem takeSamples_executor (s : State) : (s.takeSamples).executor = s.executor := by simp only [State.takeSamples]
@[simp] theorem takeSamples_lastGranted (s : State) : (s.takeSamples).lastGranted = s.lastGranted := by simp only [State.takeSamples]
@[simp] theorem takeSamples_gates (s : State) : (s.takeSamples).gates = s.gates := by simp only [State.takeSamples]
@[simp] theorem takeSamples_sref (s : State) : (s.takeSamples).sref = s.sref := by simp only [State.takeSamples]
@[simp] theorem takeSamples_channels (s : State) : (s.takeSamples).channels = s.channels := by simp only [State.takeSamples]
@[simp] theorem takeSamples_zones (s : State) : (s.takeSamples).zones = s.zones := by simp only [State.takeSamples]
@[simp] theorem takeSamples_fans (s : State) : (s.takeSamples).fans = s.fans := by simp only [State.takeSamples]
@[simp] theorem takeSamples_doors (s : State) : (s.takeSamples).doors = s.doors := by simp only [State.takeSamples]
@[simp] theorem takeSamples_incidents (s : State) : (s.takeSamples).incidents = s.incidents := by simp only [State.takeSamples]
@[simp] theorem takeSamples_placement (s : State) : (s.takeSamples).placement = s.placement := by simp only [State.takeSamples]
@[simp] theorem takeSamples_link (s : State) : (s.takeSamples).link = s.link := by simp only [State.takeSamples]

/-! ## windowEnd -/

@[simp] theorem windowEnd_pending (g : Fin 4) (s : State) : (State.windowEnd g s).pending = s.pending := by simp only [State.windowEnd]
@[simp] theorem windowEnd_now (g : Fin 4) (s : State) : (State.windowEnd g s).now = s.now := by simp only [State.windowEnd]
@[simp] theorem windowEnd_secondsDue (g : Fin 4) (s : State) : (State.windowEnd g s).secondsDue = s.secondsDue := by simp only [State.windowEnd]
@[simp] theorem windowEnd_periodDue (g : Fin 4) (s : State) : (State.windowEnd g s).periodDue = s.periodDue := by simp only [State.windowEnd]
@[simp] theorem windowEnd_hd (g : Fin 4) (s : State) : (State.windowEnd g s).hd = s.hd := by simp only [State.windowEnd]
@[simp] theorem windowEnd_resetAsserted (g : Fin 4) (s : State) : (State.windowEnd g s).resetAsserted = s.resetAsserted := by simp only [State.windowEnd]
@[simp] theorem windowEnd_regs (g : Fin 4) (s : State) : (State.windowEnd g s).regs = s.regs := by simp only [State.windowEnd]
@[simp] theorem windowEnd_cm (g : Fin 4) (s : State) : (State.windowEnd g s).cm = s.cm := by simp only [State.windowEnd]
@[simp] theorem windowEnd_candidate (g : Fin 4) (s : State) : (State.windowEnd g s).candidate = s.candidate := by simp only [State.windowEnd]
@[simp] theorem windowEnd_active (g : Fin 4) (s : State) : (State.windowEnd g s).active = s.active := by simp only [State.windowEnd]
@[simp] theorem windowEnd_decks (g : Fin 4) (s : State) : (State.windowEnd g s).decks = s.decks := by simp only [State.windowEnd]
@[simp] theorem windowEnd_executor (g : Fin 4) (s : State) : (State.windowEnd g s).executor = s.executor := by simp only [State.windowEnd]
@[simp] theorem windowEnd_lastGranted (g : Fin 4) (s : State) : (State.windowEnd g s).lastGranted = s.lastGranted := by simp only [State.windowEnd]
@[simp] theorem windowEnd_contacts (g : Fin 4) (s : State) : (State.windowEnd g s).contacts = s.contacts := by simp only [State.windowEnd]
@[simp] theorem windowEnd_sref (g : Fin 4) (s : State) : (State.windowEnd g s).sref = s.sref := by simp only [State.windowEnd]
@[simp] theorem windowEnd_channels (g : Fin 4) (s : State) : (State.windowEnd g s).channels = s.channels := by simp only [State.windowEnd]
@[simp] theorem windowEnd_zones (g : Fin 4) (s : State) : (State.windowEnd g s).zones = s.zones := by simp only [State.windowEnd]
@[simp] theorem windowEnd_fans (g : Fin 4) (s : State) : (State.windowEnd g s).fans = s.fans := by simp only [State.windowEnd]
@[simp] theorem windowEnd_doors (g : Fin 4) (s : State) : (State.windowEnd g s).doors = s.doors := by simp only [State.windowEnd]
@[simp] theorem windowEnd_incidents (g : Fin 4) (s : State) : (State.windowEnd g s).incidents = s.incidents := by simp only [State.windowEnd]
@[simp] theorem windowEnd_placement (g : Fin 4) (s : State) : (State.windowEnd g s).placement = s.placement := by simp only [State.windowEnd]
@[simp] theorem windowEnd_link (g : Fin 4) (s : State) : (State.windowEnd g s).link = s.link := by simp only [State.windowEnd]

/-! ## writeDone -/

@[simp] theorem writeDone_pending (d : Fin 4) (f : Finishing) (s : State) : (State.writeDone d f s).pending = s.pending := by simp only [State.writeDone]
@[simp] theorem writeDone_now (d : Fin 4) (f : Finishing) (s : State) : (State.writeDone d f s).now = s.now := by simp only [State.writeDone]
@[simp] theorem writeDone_secondsDue (d : Fin 4) (f : Finishing) (s : State) : (State.writeDone d f s).secondsDue = s.secondsDue := by simp only [State.writeDone]
@[simp] theorem writeDone_periodDue (d : Fin 4) (f : Finishing) (s : State) : (State.writeDone d f s).periodDue = s.periodDue := by simp only [State.writeDone]
@[simp] theorem writeDone_hd (d : Fin 4) (f : Finishing) (s : State) : (State.writeDone d f s).hd = s.hd := by simp only [State.writeDone]
@[simp] theorem writeDone_resetAsserted (d : Fin 4) (f : Finishing) (s : State) : (State.writeDone d f s).resetAsserted = s.resetAsserted := by simp only [State.writeDone]
@[simp] theorem writeDone_cm (d : Fin 4) (f : Finishing) (s : State) : (State.writeDone d f s).cm = s.cm := by simp only [State.writeDone]
@[simp] theorem writeDone_candidate (d : Fin 4) (f : Finishing) (s : State) : (State.writeDone d f s).candidate = s.candidate := by simp only [State.writeDone]
@[simp] theorem writeDone_active (d : Fin 4) (f : Finishing) (s : State) : (State.writeDone d f s).active = s.active := by simp only [State.writeDone]
@[simp] theorem writeDone_lastGranted (d : Fin 4) (f : Finishing) (s : State) : (State.writeDone d f s).lastGranted = s.lastGranted := by simp only [State.writeDone]
@[simp] theorem writeDone_contacts (d : Fin 4) (f : Finishing) (s : State) : (State.writeDone d f s).contacts = s.contacts := by simp only [State.writeDone]
@[simp] theorem writeDone_measured (d : Fin 4) (f : Finishing) (s : State) : (State.writeDone d f s).measured = s.measured := by simp only [State.writeDone]
@[simp] theorem writeDone_tach (d : Fin 4) (f : Finishing) (s : State) : (State.writeDone d f s).tach = s.tach := by simp only [State.writeDone]
@[simp] theorem writeDone_gates (d : Fin 4) (f : Finishing) (s : State) : (State.writeDone d f s).gates = s.gates := by simp only [State.writeDone]
@[simp] theorem writeDone_sref (d : Fin 4) (f : Finishing) (s : State) : (State.writeDone d f s).sref = s.sref := by simp only [State.writeDone]
@[simp] theorem writeDone_channels (d : Fin 4) (f : Finishing) (s : State) : (State.writeDone d f s).channels = s.channels := by simp only [State.writeDone]
@[simp] theorem writeDone_zones (d : Fin 4) (f : Finishing) (s : State) : (State.writeDone d f s).zones = s.zones := by simp only [State.writeDone]
@[simp] theorem writeDone_fans (d : Fin 4) (f : Finishing) (s : State) : (State.writeDone d f s).fans = s.fans := by simp only [State.writeDone]
@[simp] theorem writeDone_doors (d : Fin 4) (f : Finishing) (s : State) : (State.writeDone d f s).doors = s.doors := by simp only [State.writeDone]
@[simp] theorem writeDone_incidents (d : Fin 4) (f : Finishing) (s : State) : (State.writeDone d f s).incidents = s.incidents := by simp only [State.writeDone]
@[simp] theorem writeDone_placement (d : Fin 4) (f : Finishing) (s : State) : (State.writeDone d f s).placement = s.placement := by simp only [State.writeDone]
@[simp] theorem writeDone_link (d : Fin 4) (f : Finishing) (s : State) : (State.writeDone d f s).link = s.link := by simp only [State.writeDone]
@[simp] theorem writeDone_mail (d : Fin 4) (f : Finishing) (s : State) : (State.writeDone d f s).mail = s.mail := by simp only [State.writeDone]

end Sys2Proof.Machine
end

