-- ==== Sys2Proof/Laws/Events.lean ====
section
/-! SUPPORT. The shapes every command is made of: tables, `internal`, the executor's dispatch, completion and attention. -/

namespace Sys2Proof.Machine

/-! ## Tables -/

/-- The changed entry. -/
@[simp] theorem modify_get_same {α : Type} {n : Nat} (v : Vector α n) (i : Fin n) (f : α → α) : (modify v i f)[i] = f v[i] := by
  simp [modify]

/-- Another entry. -/
theorem modify_get_other {α : Type} {n : Nat} (v : Vector α n) {i j : Fin n} (f : α → α) (h : j ≠ i) :
    (modify v i f)[j] = v[j] := by
  have hv : i.val ≠ j.val := fun e => h (Fin.ext e.symm)
  simp [modify, hv]

/-- An entry of a table set at one place. -/
theorem set_get_other {α : Type} {n : Nat} (v : Vector α n) {i j : Fin n} (x : α) (h : j ≠ i) : (v.set i x)[j] = v[j] := by
  have hv : i.val ≠ j.val := fun e => h (Fin.ext e.symm)
  simp [hv]

/-- An entry of a table under a function. -/
@[simp] theorem mapTable_get {α β : Type} {n : Nat} (v : Vector α n) (f : α → β) (i : Fin n) : (mapTable v f)[i] = f v[i] := by
  simp [mapTable]

/-! ## internal -/

/-- An event that has come about acts, and its updates are published. -/
theorem internal_acts {s : State} {g : Bool} {act : State → State} (hr : s.running = true) (hg : g = true) :
    internal s g act = .next (publish s (act s)) := by
  simp [internal, hr, hg]

/-- An event that has not come about changes nothing. -/
theorem internal_idle {s : State} {g : Bool} {act : State → State} (h : (s.running && g) = false) :
    internal s g act = .next s := by
  simp [internal, h]

/-- Everything `internal` can answer. -/
theorem internal_next {s t : State} {g : Bool} {act : State → State} (h : internal s g act = .next t) :
    (t = s ∧ (s.running && g) = false) ∨ (s.running = true ∧ g = true ∧ t = publish s (act s)) := by
  unfold internal at h
  split at h
  · rename_i hg
    simp only [Bool.and_eq_true] at hg
    exact Or.inr ⟨hg.1, hg.2, by injection h with h; exact h.symm⟩
  · rename_i hg
    exact Or.inl ⟨by injection h with h; exact h.symm, by simpa using hg⟩

/-- RUNNING, spelled out. -/
theorem running_iff {s : State} : s.running = true ↔ s.regs.runState = .running ∧ s.resetAsserted = false := by
  simp [State.running]

/-! ## Publishing -/

/-- Publishing leaves the bytes of the common memory. -/
@[simp] theorem publish_bytes (b a : State) : (publish b a).cm.bytes = a.cm.bytes := by simp only [publish]

/-- Publishing leaves the record latch. -/
@[simp] theorem publish_latch (b a : State) : (publish b a).cm.latch = a.cm.latch := by simp only [publish]

/-- Raising a cause leaves every other register. -/
@[simp] theorem raise_runState (r : Registers) (c : Cause) : (r.raise c).runState = r.runState := rfl
/-- Raising a cause leaves SECONDS. -/
@[simp] theorem raise_seconds (r : Registers) (c : Cause) : (r.raise c).seconds = r.seconds := rfl
/-- Raising a cause leaves the mask. -/
@[simp] theorem raise_attentionMask (r : Registers) (c : Cause) : (r.raise c).attentionMask = r.attentionMask := rfl
/-- Raising a cause changes ATTENTION alone. -/
theorem raise_frame (r : Registers) (c : Cause) : r.raise c = { r with attention := (r.raise c).attention } := rfl
/-- A conditional raise leaves the run state. -/
@[simp] theorem raiseIf_runState (r : Registers) (b : Bool) (c : Cause) : (r.raiseIf b c).runState = r.runState := by
  cases b <;> rfl
/-- A conditional raise leaves SECONDS. -/
@[simp] theorem raiseIf_seconds (r : Registers) (b : Bool) (c : Cause) : (r.raiseIf b c).seconds = r.seconds := by
  cases b <;> rfl
/-- A conditional raise changes ATTENTION alone. -/
theorem raiseIf_frame (r : Registers) (b : Bool) (c : Cause) :
    r.raiseIf b c = { r with attention := (r.raiseIf b c).attention } := by
  cases b <;> rfl
/-- Publishing leaves the run state. -/
@[simp] theorem publish_runState (b a : State) : (publish b a).regs.runState = a.regs.runState := by simp [publish]
/-- Publishing leaves SECONDS. -/
@[simp] theorem publish_seconds (b a : State) : (publish b a).regs.seconds = a.regs.seconds := by simp [publish]

/-! ## The executor -/

/-- A card of a kind waits exactly when the executor holds such a card without an answer. -/
theorem cardWaiting_iff {s : State} {k : CardKind} :
    s.cardWaiting k = true ↔ ∃ t, s.executor = some t ∧ t.answer = none ∧ t.card.kind = some k := by
  unfold State.cardWaiting
  cases h : s.executor with
  | none => simp
  | some t => simp [Option.isNone_iff_eq_none]

/-- Dispatch hands the card of the take in progress to the owning block. -/
theorem dispatch_some {s : State} {t : Take} (act : Take → State → State) (h : s.executor = some t) :
    s.dispatch act = act t s := by
  simp [State.dispatch, h]

/-- A target in range reaches the object. -/
theorem onTarget_some {n : Nat} {i : Fin n} {t : Take} (act : Fin n → Take → State → State) (s : State)
    (h : targetIndex n t.card.target = some i) : State.onTarget n act t s = act i t s := by
  simp [State.onTarget, h]

/-- A target out of range is refused BAD_TARGET. -/
theorem onTarget_none {n : Nat} {t : Take} (act : Fin n → Take → State → State) (s : State)
    (h : targetIndex n t.card.target = none) : State.onTarget n act t s = s.reply t (.refuse .badTarget) := by
  simp [State.onTarget, h]

/-- The answer stands at the executor. -/
@[simp] theorem reply_executor (t : Take) (a : Answer) (s : State) :
    (s.reply t a).executor = some { t with answer := some a } := rfl

/-- The executor is free after a started answer. -/
@[simp] theorem started_executor (s : State) : s.started.executor = none := rfl

/-! ## Completion -/

/-- A completion that finds no card in flight writes nothing (R30). -/
theorem writeCard_none {s : State} {d : Fin 4} (immediate : Bool) (a : Answer) (h : s.decks[d].inFlight = none) :
    s.writeCard d immediate a = s := by
  simp only [State.writeCard, h]

/-- The card write changes the memory, the deck and its attachments, and nothing else. -/
theorem writeCard_frame (s : State) (d : Fin 4) (immediate : Bool) (a : Answer) :
    let t := s.writeCard d immediate a
    t = { s with cm := { s.cm with bytes := t.cm.bytes }, decks := t.decks, channels := t.channels, fans := t.fans
                 mail := t.mail } := by
  simp only [State.writeCard]
  split <;> rfl

/-- After a card write no card is in flight. -/
theorem writeCard_inFlight (s : State) (d : Fin 4) (immediate : Bool) (a : Answer) :
    (s.writeCard d immediate a).decks[d].inFlight = none := by
  unfold State.writeCard
  split
  · assumption
  · simp only [State.detach]
    rw [modify_get_same]
    rfl

/-- The header write changes the deck, ATTENTION and the executor, and nothing else. -/
theorem writeDone_frame (s : State) (d : Fin 4) (f : Finishing) :
    let t := s.writeDone d f
    t = { s with decks := t.decks, regs := { s.regs with attention := t.regs.attention }, executor := t.executor } := by
  simp only [State.writeDone, Registers.raiseIf]
  split <;> rfl

/-- A deck in its header write can take neither a control nor a post event (R30). -/
theorem not_waiting_of_finishing {s : State} {d : Fin 4} {f : Finishing} (h : s.decks[d].finishing = some f) :
    s.controlWaiting d = false ∧ s.postWaiting d = false := by
  have hd : s.decks[d].settled = false := by simp only [Deck.settled, h]; rfl
  simp only [State.controlWaiting, State.postWaiting, hd, Bool.false_and, and_self]

/-- A completion taken changes the memory, the deck and its attachments, and may free the executor. -/
theorem takeCompletion_frame (s : State) (d : Fin 4) :
    let t := s.takeCompletion d
    t = { s with cm := { s.cm with bytes := t.cm.bytes }, decks := t.decks, channels := t.channels, fans := t.fans
                 mail := t.mail, executor := t.executor } := by
  simp only [State.takeCompletion, State.writeCard]
  split <;> split <;> (try split) <;> rfl

/-- A deck event changes the deck, attachments and ATTENTION, and nothing else. -/
theorem deckEvent_frame (d : Fin 4) (act : Deck → Deck) (s : State) :
    let t := s.deckEvent d act
    t = { s with decks := t.decks, channels := t.channels, fans := t.fans, mail := t.mail
                 regs := { s.regs with attention := t.regs.attention } } := by
  simp only [State.deckEvent, Registers.raiseIf]
  split <;> split <;> rfl

end Sys2Proof.Machine
end

