-- ==== Sys2Proof/Laws/Doors.lean ====
section
/-! SUPPORT. The door controller: what one event at it can do (R110, R111, R123). -/

namespace Sys2Proof.Machine

/-- Some entry of a table satisfies a test. -/
theorem anyEntry_iff {α : Type} {n : Nat} (v : Vector α n) (f : α → Bool) :
    anyEntry v f = true ↔ ∃ i : Fin n, f v[i] = true := by
  simp [anyEntry]

/-- The distance test of R111 and R123, spelled as a reach on either side. -/
theorem distance_le_iff (a b r : Nat) : distance a b ≤ r ↔ Within a b r := by
  unfold distance Within; omega

/-- No door, no incident and no opening: the gallery demand by R123's rows. -/
theorem demandOf_follows (cfg : ActiveConfig) (u : DoorUnit) (h : u.demand = u.demandOf cfg) :
    DemandFollowsDoors cfg u := by
  have hg : (galleryEntries cfg u.reach).isEmpty = false ↔ GalleryIncident cfg u := by
    rw [List.isEmpty_eq_false_iff_exists_mem]
    simp only [galleryEntries, List.mem_filter, decide_eq_true_eq, GalleryIncident, distance_le_iff]
    rfl
  have ho : (anyEntry u.doors fun d => decide (d.state = .opening)) = true ↔ ∃ d : Fin 4, u.doors[d].state = .opening := by
    simp [anyEntry_iff]
  have hl : (anyEntry u.doors fun d => d.state.isOpen) = true ↔
      ∃ d : Fin 4, u.doors[d].state = .openLeaf ∨ u.doors[d].state = .heldOpen := by
    rw [anyEntry_iff]
    refine exists_congr fun d => ?_
    cases u.doors[d].state <;> simp [DoorState.isOpen]
  simp only [DemandFollowsDoors]
  rw [← hg, ← ho, ← hl, h]
  unfold DoorUnit.demandOf
  refine ⟨?_, ?_, ?_, ?_⟩ <;> intros <;> simp_all

/-- After an event the demand is the one that the doors and the reach list give. -/
theorem settle_demand (x : Ctx) (u : DoorUnit) : (u.settle x).demand = (u.settle x).demandOf x.cfg := by
  unfold DoorUnit.settle
  split
  · next h => exact h.symm
  · rfl

/-- Everything one event at the door controller can do besides what `act` does to the doors: the frame of R123. -/
theorem doorEvent_frame (s : State) (act : DoorUnit → DoorUnit) (acted : Fin 4 → Prop)
    (hk : ∀ k : Fin 4, ¬acted k → (act s.doors).doors[k] = s.doors.doors[k])
    (hd : (act s.doors).demand = s.doors.demand) (he : (act s.doors).demandEntered = s.doors.demandEntered) :
    DoorEventFrame s (s.doorEvent act) acted := by
  have hdoors : ∀ v : DoorUnit, (v.settle s.ctx).doors = v.doors := by
    intro v; unfold DoorUnit.settle; split <;> rfl
  refine ⟨fun k h => ?_, demandOf_follows s.active _ (settle_demand s.ctx _), fun h => ?_, fun h => ?_, ?_⟩
  · show ((act s.doors).settle s.ctx).doors[k] = _
    rw [hdoors]; exact hk k h
  · have hs : ((act s.doors).settle s.ctx).demand = s.doors.demand := h
    refine ⟨?_, by simp only [State.doorEvent]; rw [if_pos hs]⟩
    show ((act s.doors).settle s.ctx).demandEntered = _
    unfold DoorUnit.settle at hs ⊢
    split at hs
    · next hc => rw [if_pos hc]; exact he
    · next hc => exact absurd (hs.trans hd.symm) hc
  · have hs : ((act s.doors).settle s.ctx).demand ≠ s.doors.demand := h
    refine ⟨?_, by simp only [State.doorEvent]; rw [if_neg hs]⟩
    show ((act s.doors).settle s.ctx).demandEntered = _
    unfold DoorUnit.settle at hs ⊢
    split at hs
    · exact absurd hd hs
    · next hc => rw [if_neg hc]; rfl
  · simp only [State.doorEvent]
    split <;> rfl

/-- An event at the door controller keeps what `act` keeps of the reach list and the pressure copy. -/
theorem doorEvent_reach (s : State) (act : DoorUnit → DoorUnit) :
    (s.doorEvent act).doors.reach = (act s.doors).reach ∧ (s.doorEvent act).doors.pressure = (act s.doors).pressure ∧
    (s.doorEvent act).doors.doors = (act s.doors).doors := by
  simp only [State.doorEvent, DoorUnit.settle]
  split <;> exact ⟨rfl, rfl, rfl⟩

/-- Secure wanted as R111 defines it. -/
theorem wantsSecure_iff (cfg : ActiveConfig) (reach : List ReachEntry) (d : Fin 4) (e : Door) :
    wantsSecure cfg reach d e = true ↔ SecureWanted cfg reach d e := by
  simp only [wantsSecure, SecureWanted, Bool.and_eq_true, Bool.not_eq_true', List.any_eq_false, decide_eq_true_eq,
    distance_le_iff]
  rfl

/-- What a change of secure wanted does to a door (R113 to R116). -/
theorem takeSecure_spec (x : Ctx) (item : DoorItem) (wanted : Bool) (e : Door) :
    e.TakesSecure (e.takeSecure x item wanted) x.now x.sec item wanted := by
  simp only [Door.TakesSecure]
  refine ⟨?_, ?_, ?_, ?_, ?_, ?_⟩ <;> intros <;> simp_all [Door.takeSecure, Door.Bolts, Door.throwBolt, Door.Enters,
    Door.enter, Door.Opens, Door.goOpen, seconds, Config.ticksPerSecond]
  · intro _; omega
  · intro h1 h2; simp_all
  · rename_i h; rcases h with h | h <;> simp [h]
  · rw [Nat.mul_comm]

/-- Throwing the bolt (R114 to R116). -/
theorem throwBolt_spec (x : Ctx) (item : DoorItem) (e : Door) : e.Bolts (e.throwBolt x item) x.now x.sec item := by
  simp only [Door.Bolts, Door.throwBolt, Door.Enters, Door.enter, seconds, Config.ticksPerSecond]
  refine ⟨?_, ?_⟩ <;> intro h <;> simp [h, Nat.mul_comm]

/-- Entering OPEN (R119). -/
theorem goOpen_spec (x : Ctx) (item : DoorItem) (e : Door) : e.Opens (e.goOpen x item) x.now x.sec item := by
  simp [Door.Opens, Door.goOpen, Door.Enters, Door.enter, seconds, Config.ticksPerSecond, Nat.mul_comm]

/-- Taking up the contacts from RELEASED (R112). -/
theorem takeUp_spec (x : Ctx) (item : DoorItem) (e : Door) :
    e.TakesUp ((e.enter x .released).takeUp x item) x.now x.sec item := by
  simp only [Door.TakesUp, Door.takeUp, Door.Bolts, Door.throwBolt, Door.Opens, Door.goOpen, Door.Enters, Door.enter, seconds,
    Config.ticksPerSecond]
  refine ⟨?_, ?_, ?_⟩ <;> intros <;> simp_all [Nat.mul_comm]

end Sys2Proof.Machine
end

