-- ==== Sys2Proof/Laws/Fans.lean ====
section
/-! SUPPORT. The fan controller: what one event at it can do (R101, R103, R106). -/

namespace Sys2Proof.Machine

/-! ## One fan and the queue -/

@[simp] theorem change_queue (u : FanUnit) (f : Fin 8) (g : Fan → Fan) : (u.change f g).queue = u.queue := rfl
@[simp] theorem change_same (u : FanUnit) (f : Fin 8) (g : Fan → Fan) : (u.change f g).fans[f] = g u.fans[f] :=
  modify_get_same _ _ _
theorem change_other (u : FanUnit) {f k : Fin 8} (g : Fan → Fan) (h : k ≠ f) : (u.change f g).fans[k] = u.fans[k] :=
  modify_get_other _ _ h
@[simp] theorem leaveQueue_fans (u : FanUnit) (f : Fin 8) : (u.leaveQueue f).fans = u.fans := rfl
@[simp] theorem leaveQueue_queue (u : FanUnit) (f : Fin 8) :
    (u.leaveQueue f).queue = u.queue.filter fun g => decide (g ≠ f) := rfl

/-- An operation on fan f leaves every other fan and the cards attached to f. -/
structure Touches (f : Fin 8) (u v : FanUnit) : Prop where
  other : ∀ k : Fin 8, k ≠ f → v.fans[k] = u.fans[k]
  attached : v.fans[f].attached = u.fans[f].attached

theorem Touches.refl (f : Fin 8) (u : FanUnit) : Touches f u u := ⟨fun _ _ => rfl, rfl⟩

theorem Touches.trans {f : Fin 8} {u v w : FanUnit} (h : Touches f u v) (g : Touches f v w) : Touches f u w :=
  ⟨fun k hk => (g.other k hk).trans (h.other k hk), g.attached.trans h.attached⟩

/-- Changing fan f, its attached cards apart. -/
theorem change_touches (u : FanUnit) (f : Fin 8) (g : Fan → Fan) (h : (g u.fans[f]).attached = u.fans[f].attached) :
    Touches f u (u.change f g) := ⟨fun _ hk => change_other u g hk, by rw [change_same]; exact h⟩

theorem enter_touches (x : Ctx) (f : Fin 8) (st : FanState) (u : FanUnit) : Touches f u (u.enter x f st) :=
  ⟨fun _ hk => change_other u _ hk, by
    show (u.change f _).fans[f].attached = _
    rw [change_same]; rfl⟩

theorem enterFaulted_touches (x : Ctx) (f : Fin 8) (c : FanFault) (u : FanUnit) : Touches f u (u.enterFaulted x f c) :=
  (enter_touches x f .faulted u).trans (change_touches _ f _ rfl)

theorem enterChecked_touches (x : Ctx) (f : Fin 8) (st : FanState) (u : FanUnit) : Touches f u (u.enterChecked x f st) := by
  unfold FanUnit.enterChecked
  split
  · exact (enter_touches x f st u).trans (enterFaulted_touches x f _ _)
  · exact enter_touches x f st u

theorem start_touches (x : Ctx) (f : Fin 8) (u : FanUnit) : Touches f u (u.start x f) := by
  unfold FanUnit.start
  dsimp only
  split
  · exact (enterChecked_touches x f _ u).trans (enter_touches x f _ _)
  · exact enterChecked_touches x f _ u

@[simp] theorem enter_queue (x : Ctx) (f : Fin 8) (st : FanState) (u : FanUnit) :
    (u.enter x f st).queue = u.queue.filter fun g => decide (g ≠ f) := rfl

/-- A fan that is granted a slot leaves the queue. -/
theorem start_queue (x : Ctx) (f : Fin 8) (u : FanUnit) : (u.start x f).queue = u.queue.filter fun g => decide (g ≠ f) := by
  have h : (u.enterChecked x f .starting).queue = u.queue.filter fun g => decide (g ≠ f) := by
    unfold FanUnit.enterChecked
    split
    · simp [FanUnit.enterFaulted, List.filter_filter]
    · rfl
  unfold FanUnit.start
  dsimp only
  split
  · rw [enter_queue, h, List.filter_filter]; simp
  · exact h

/-- A start changes neither copy of a demand. -/
theorem start_demands (x : Ctx) (f : Fin 8) (u : FanUnit) :
    (u.start x f).zoneDemand = u.zoneDemand ∧ (u.start x f).galleryDemand = u.galleryDemand := by
  have h : (u.enterChecked x f .starting).zoneDemand = u.zoneDemand ∧
      (u.enterChecked x f .starting).galleryDemand = u.galleryDemand := by
    unfold FanUnit.enterChecked
    split <;> exact ⟨rfl, rfl⟩
  unfold FanUnit.start
  dsimp only
  split <;> exact h

/-- With nothing queued nothing is granted. -/
theorem grant_nil (x : Ctx) (n : Nat) {u : FanUnit} (h : u.queue = []) : u.grant x n = u := by
  cases n <;> simp [FanUnit.grant, h]

/-- The head of the queue is granted a free slot. -/
theorem grant_cons (x : Ctx) (n : Nat) {u : FanUnit} {f : Fin 8} {rest : List (Fin 8)} (h : u.queue = f :: rest) :
    u.grant x (n + 1) = if u.starting < x.cfg.span.startSlots then (u.start x f).grant x n else u := by
  simp only [FanUnit.grant, h]

/-- Slots are granted only to queued fans, and no card is detached by it. -/
theorem grant_frame (x : Ctx) (n : Nat) (u : FanUnit) :
    (∀ k : Fin 8, k ∉ u.queue → (u.grant x n).fans[k] = u.fans[k]) ∧
    (∀ k : Fin 8, (u.grant x n).fans[k].attached = u.fans[k].attached) ∧
    (u.grant x n).zoneDemand = u.zoneDemand ∧ (u.grant x n).galleryDemand = u.galleryDemand := by
  induction n generalizing u with
  | zero => exact ⟨fun _ _ => rfl, fun _ => rfl, rfl, rfl⟩
  | succ n ih =>
    cases hq : u.queue with
    | nil => rw [grant_nil x _ hq]; exact ⟨fun _ _ => rfl, fun _ => rfl, rfl, rfl⟩
    | cons f rest =>
      rw [grant_cons x n hq]
      split
      · obtain ⟨h1, h2, h3, h4⟩ := ih (u.start x f)
        have ht := start_touches x f u
        refine ⟨fun k hk => ?_, fun k => ?_, h3.trans (start_demands x f u).1, h4.trans (start_demands x f u).2⟩
        · have hne : k ≠ f := fun e => hk (by rw [e]; exact List.mem_cons_self)
          rw [h1 k (by rw [start_queue, hq]; simp only [List.mem_filter, not_and_or]; exact Or.inl hk), ht.other k hne]
        · rw [h2 k]
          by_cases hkf : k = f
          · rw [hkf]; exact ht.attached
          · rw [ht.other k hkf]
      · exact ⟨fun _ _ => rfl, fun _ => rfl, rfl, rfl⟩

/-- Grants only take fans out of the queue. -/
theorem grant_sublist (x : Ctx) (n : Nat) (u : FanUnit) : (u.grant x n).queue.Sublist u.queue := by
  induction n generalizing u with
  | zero => exact List.Sublist.refl _
  | succ n ih =>
    cases hq : u.queue with
    | nil => rw [grant_nil x _ hq, hq]
    | cons f rest =>
      rw [grant_cons x n hq, ← hq]
      split
      · refine (ih _).trans ?_
        rw [start_queue]
        exact List.filter_sublist
      · exact List.Sublist.refl _

/-- Granting goes on until the queue is empty or no slot is free (R103). -/
theorem grant_fills (x : Ctx) (n : Nat) (u : FanUnit) (hn : u.queue.toFinset.card ≤ n) :
    (u.grant x n).queue = [] ∨ x.cfg.span.startSlots ≤ (u.grant x n).starting := by
  induction n generalizing u with
  | zero =>
    have h : u.queue.toFinset = ∅ := Finset.card_eq_zero.mp (Nat.le_zero.mp hn)
    exact Or.inl (List.toFinset_eq_empty_iff _ |>.mp h)
  | succ n ih =>
    cases hq : u.queue with
    | nil => rw [grant_nil x _ hq]; exact Or.inl hq
    | cons f rest =>
      rw [grant_cons x n hq]
      split
      · refine ih _ ?_
        have hf : f ∈ u.queue.toFinset := by rw [hq]; simp
        have hs : (u.start x f).queue.toFinset = u.queue.toFinset.erase f := by
          rw [start_queue]; ext k; simp [and_comm]
        rw [hs, Finset.card_erase_of_mem hf]
        omega
      · next h => exact Or.inr (Nat.le_of_not_lt h)

/-- The queue is filled as far as it goes within one event, however it stands. -/
theorem grant_eight (x : Ctx) (u : FanUnit) :
    (u.grant x 8).queue = [] ∨ x.cfg.span.startSlots ≤ (u.grant x 8).starting :=
  grant_fills x 8 u (by
    have h := Finset.card_le_univ u.queue.toFinset
    simpa using h)

/-- Entering a state, spelled out (R92). -/
theorem enter_same (p : State) (f : Fin 8) (st : FanState) (u : FanUnit) :
    (u.enter p.ctx f st).fans[f] = u.fans[f].entering p p.active.fans[f] st .none := by
  show (u.change f _).fans[f] = _
  rw [change_same]
  unfold Fan.enter Fan.entering
  cases h : u.fans[f].state <;> cases st <;> simp [FanState.runOn, State.ctx, seconds, Config.ticksPerSecond, Nat.mul_comm]

/-- What a grant makes of the fan granted, spelled out (R95, R98, R103). -/
theorem start_same (p : State) (f : Fin 8) (u : FanUnit) :
    (u.start p.ctx f).fans[f] = u.fans[f].granted p p.active.fans[f] := by
  unfold FanUnit.start FanUnit.enterChecked Fan.granted
  dsimp only
  by_cases hf : u.fans[f].fault = true
  · rw [if_pos hf, if_pos hf]
    have h : ((u.enter p.ctx f .starting).enterFaulted p.ctx f .driveFault).fans[f] =
        (u.fans[f].entering p p.active.fans[f] .starting .none).entering p p.active.fans[f] .faulted .driveFault := by
      unfold FanUnit.enterFaulted
      rw [change_same, enter_same, enter_same]
      rfl
    rw [if_neg (by rw [h]; rintro ⟨h, -⟩; cases h), h]
  · rw [if_neg hf, if_neg hf]
    by_cases hr : u.fans[f].running = true
    · rw [if_pos hr, if_pos (by rw [enter_same]; exact ⟨rfl, hr⟩), enter_same, enter_same]
    · rw [if_neg hr, if_neg (by rw [enter_same]; exact fun h => hr h.2), enter_same]

/-- Each queued fan keeps its entry while it stays in the queue, and is as a grant leaves it once it has left (R103). -/
theorem grant_each (p : State) (n : Nat) (u : FanUnit) (k : Fin 8) :
    (k ∈ (u.grant p.ctx n).queue → (u.grant p.ctx n).fans[k] = u.fans[k]) ∧
    (k ∈ u.queue → k ∉ (u.grant p.ctx n).queue →
      (u.grant p.ctx n).fans[k] = u.fans[k].granted p p.active.fans[k]) := by
  induction n generalizing u with
  | zero => exact ⟨fun _ => rfl, fun h h2 => absurd h h2⟩
  | succ n ih =>
    cases hq : u.queue with
    | nil => rw [grant_nil _ _ hq]; exact ⟨fun _ => rfl, fun h => absurd h List.not_mem_nil⟩
    | cons f rest =>
      rw [grant_cons _ n hq]
      split
      · obtain ⟨h1, h2⟩ := ih (u.start p.ctx f)
        have hf : f ∉ (u.start p.ctx f).queue := by rw [start_queue]; simp
        have hgf := (grant_frame p.ctx n (u.start p.ctx f)).1
        by_cases hkf : k = f
        · subst hkf
          have hg := (hgf k hf).trans (start_same p k u)
          refine ⟨fun h => absurd h fun h => hf ((grant_sublist p.ctx n _).mem h), fun _ _ => hg⟩
        · have ho := (start_touches p.ctx f u).other k hkf
          refine ⟨fun h => (h1 h).trans ho, fun h h3 => ?_⟩
          rw [h2 (by rw [start_queue, hq]; simpa [hkf] using h) h3, ho]
      · exact ⟨fun _ => rfl, fun h h2 => absurd (hq ▸ h) h2⟩

/-- Grants keep the order of those that stay: one that stays has those behind it behind it still (R103). -/
theorem grant_pair (x : Ctx) (n : Nat) (u : FanUnit) (j k : Fin 8) (hn : u.queue.Nodup)
    (h : [j, k].Sublist u.queue) (hj : j ∈ (u.grant x n).queue) : [j, k].Sublist (u.grant x n).queue := by
  induction n generalizing u with
  | zero => exact h
  | succ n ih =>
    cases hq : u.queue with
    | nil => rw [hq] at h; cases h
    | cons f rest =>
      rw [grant_cons _ n hq] at hj ⊢
      split at hj
      · next hs =>
        rw [if_pos hs]
        have hq2 : (u.start x f).queue = rest := by
          rw [start_queue, hq, List.filter_cons_of_neg (by simp), List.filter_eq_self.mpr]
          intro a ha
          rw [hq] at hn
          have : a ≠ f := fun e => (List.nodup_cons.mp hn).1 (e ▸ ha)
          simpa using this
        refine ih _ (by rw [hq2]; rw [hq] at hn; exact (List.nodup_cons.mp hn).2) ?_ hj
        rw [hq2]
        rw [hq] at h
        cases h with
        | cons _ h => exact h
        | cons_cons _ h =>
          have := (grant_sublist x n (u.start x j)).mem hj
          rw [start_queue] at this
          simp at this
      · next hs => rw [if_neg hs]; exact h

/-! ## Attached cards (R106) -/

/-- The completions that a list of decks is sent. -/
theorem complete_get (m : Mail) (l : List (Fin 4)) (a : Answer) (d : Fin 4) :
    (m.complete l a).completions[d] = if d ∈ l then some a else m.completions[d] := by
  simp [Mail.complete]

/-- A deck without a card on any fan of a list keeps what is sent to it. -/
theorem completeFans_other (u : FanUnit) (which : Fin 8 → Bool) (o : CardOutcome) (d : Fin 4)
    (h : ∀ k : Fin 8, which k = true → d ∉ u.fans[k].attached) (m : Mail) :
    (m.completeFans u which o).completions[d] = m.completions[d] := by
  unfold Mail.completeFans
  generalize List.finRange 8 = l
  induction l generalizing m with
  | nil => rfl
  | cons f rest ih =>
    rw [List.foldl_cons, ih]
    split
    · next hw => rw [complete_get, if_neg (h f hw)]
    · rfl

/-- The card that waits on one fan alone takes that fan's completion. -/
theorem completeFans_same (u : FanUnit) (which : Fin 8 → Bool) (o : CardOutcome) (d : Fin 4) (k : Fin 8)
    (hk : which k = true) (hd : d ∈ u.fans[k].attached)
    (h : ∀ j : Fin 8, which j = true → d ∈ u.fans[j].attached → j = k) (m : Mail) :
    (m.completeFans u which o).completions[d] = some (.fanStatus o k) := by
  unfold Mail.completeFans
  have hmem : k ∈ List.finRange 8 := List.mem_finRange k
  have hnd : (List.finRange 8).Nodup := List.nodup_finRange 8
  generalize List.finRange 8 = l at hmem hnd
  induction l generalizing m with
  | nil => simp at hmem
  | cons f rest ih =>
    rw [List.foldl_cons]
    rcases List.mem_cons.mp hmem with hf | hr
    · subst hf
      have hrest : ∀ j ∈ rest, which j = true → d ∉ u.fans[j].attached := fun j hj hw hda =>
        (List.nodup_cons.mp hnd).1 (h j hw hda ▸ hj)
      rw [if_pos hk]
      have hkeep : ∀ (l : List (Fin 8)) (m : Mail), (∀ j ∈ l, which j = true → d ∉ u.fans[j].attached) →
          (l.foldl (fun m f => if which f then m.complete u.fans[f].attached (.fanStatus o f) else m) m).completions[d] =
            m.completions[d] := by
        intro l
        induction l with
        | nil => intros; rfl
        | cons g rest ih =>
          intro m hl
          rw [List.foldl_cons, ih _ fun j hj => hl j (List.mem_cons_of_mem _ hj)]
          split
          · next hw => rw [complete_get, if_neg (hl g List.mem_cons_self hw)]
          · rfl
      rw [hkeep rest _ hrest]
      rw [complete_get, if_pos hd]
    · exact ih _ hr (List.nodup_cons.mp hnd).2

/-- Completing cards changes the completions alone. -/
theorem completeFans_frame (u : FanUnit) (which : Fin 8 → Bool) (o : CardOutcome) (m : Mail) :
    m.completeFans u which o = { m with completions := (m.completeFans u which o).completions } := by
  unfold Mail.completeFans
  generalize List.finRange 8 = l
  induction l generalizing m with
  | nil => rfl
  | cons f rest ih =>
    rw [List.foldl_cons, ih]
    split <;> rfl

/-- A fan at its target, spelled out (R105). -/
theorem reached_iff (e : Fan) : e.reached = true ↔ e.atTarget := by
  unfold Fan.reached Fan.atTarget
  cases h : e.target with
  | stop => simp
  | run dir speed =>
    simp only [Fan.sameDirection, h, Bool.and_eq_true, decide_eq_true_eq]
    constructor
    · rintro ⟨hs, hd⟩
      exact Or.inr ⟨dir, speed, rfl, hs, by cases dir <;> cases hr : e.reverse <;> simp_all⟩
    · rintro (⟨h1, _⟩ | ⟨d, sp, h1, hs, hd⟩)
      · cases h1
      · injection h1 with h1 h2
        subst h1
        exact ⟨hs, by cases dir <;> cases hr : e.reverse <;> simp_all⟩

/-- The states unavailable to placement, spelled out (R101). -/
theorem unavailable_iff (st : FanState) : st.unavailable = true ↔ st.isUnavailable := by
  cases st <;> simp [FanState.unavailable, FanState.isUnavailable]

/-- An event that overtakes, spelled out (R106). -/
theorem overtakes_iff (b a : Fan) : overtakes b a = true ↔ Supersedes b a := by
  simp [overtakes, Supersedes, unavailable_iff, or_assoc]

/-! ## One event (R101, R103, R106) -/

/-- Everything one event at the fan controller can do besides what `act` does to the fans it is for. -/
theorem fanEvent_frame (s : State) (act : FanUnit → FanUnit) (acted : Fin 8 → Prop)
    (hk : ∀ k : Fin 8, ¬acted k → (act s.fans).fans[k] = s.fans.fans[k] ∧ (k ∈ (act s.fans).queue ↔ k ∈ s.fans.queue))
    (ha : ∀ k : Fin 8, (act s.fans).fans[k].attached = s.fans.fans[k].attached)
    (hn : s.fans.queue.Nodup → (act s.fans).queue.Nodup)
    (ho : s.fans.queue.Nodup → ClassesInOrder s.fans → QueueInOrder s.fans (act s.fans) acted) :
    FanEventFrame { s with fans := { s.fans with
      zoneDemand := (act s.fans).zoneDemand, galleryDemand := (act s.fans).galleryDemand } } (s.fanEvent act) acted := by
  obtain ⟨g1, g2, g3, g4⟩ := grant_frame s.ctx 8 (act s.fans)
  have hfill := grant_eight s.ctx (act s.fans)
  have geach := grant_each s 8 (act s.fans)
  have gpair := fun j k => grant_pair s.ctx 8 (act s.fans) j k
  have gsub := grant_sublist s.ctx 8 (act s.fans)
  have hu : ∃ u, u = (act s.fans).grant s.ctx 8 := ⟨_, rfl⟩
  obtain ⟨u, hu⟩ := hu
  rw [← hu] at g1 g2 g3 g4 hfill geach gpair gsub
  have hat : ∀ k : Fin 8, u.fans[k].attached = s.fans.fans[k].attached := fun k => (g2 k).trans (ha k)
  let late (f : Fin 8) : Bool := overtakes s.fans.fans[f] u.fans[f]
  let done (f : Fin 8) : Bool := !late f && u.fans[f].reached
  let m := (s.mail.completeFans u late .overtaken).completeFans u done .done
  have hev : s.fanEvent act = { s with
      fans := { u with fans := Vector.ofFn fun f => if late f || done f then { u.fans[f] with attached := [] } else u.fans[f] }
      mail := { m with availability := availabilityMail s.fans u m.availability } } := by
    simp only [State.fanEvent, ← hu, late, done, m]
  have hfan : ∀ k : Fin 8, (s.fanEvent act).fans.fans[k] =
      if late k || done k then { u.fans[k] with attached := [] } else u.fans[k] := fun k => by
    rw [hev]; simp
  have hstate : ∀ k : Fin 8, (s.fanEvent act).fans.fans[k] = { u.fans[k] with
      attached := (s.fanEvent act).fans.fans[k].attached } := fun k => by
    rw [hfan k]; split <;> rfl
  have hm : m = { s.mail with completions := m.completions } := by
    obtain ⟨c1, h1⟩ : ∃ c, s.mail.completeFans u late .overtaken = { s.mail with completions := c } :=
      ⟨_, completeFans_frame u late .overtaken s.mail⟩
    obtain ⟨c2, h2⟩ : ∃ c, m = { s.mail.completeFans u late .overtaken with completions := c } :=
      ⟨_, completeFans_frame u done .done _⟩
    rw [h2, h1]
  have hsup : ∀ k : Fin 8, Supersedes s.fans.fans[k] (s.fanEvent act).fans.fans[k] ↔ late k = true := fun k => by
    rw [hstate k]; exact (overtakes_iff _ _).symm
  have htgt : ∀ k : Fin 8, (s.fanEvent act).fans.fans[k].atTarget ↔ u.fans[k].reached = true := fun k => by
    rw [hstate k]; exact (reached_iff u.fans[k]).symm
  have hone : ∀ (k : Fin 8) (d : Fin 4), d ∈ s.fans.fans[k].attached →
      (∀ j : Fin 8, d ∈ s.fans.fans[j].attached → j = k) → m.completions[d] =
        if late k then some (.fanStatus .overtaken k) else if done k then some (.fanStatus .done k)
        else s.mail.completions[d] := by
    intro k d hd hj
    have hd' : d ∈ u.fans[k].attached := by rw [hat]; exact hd
    have hj' : ∀ j : Fin 8, d ∈ u.fans[j].attached → j = k := fun j h => hj j (by rw [← hat]; exact h)
    show ((s.mail.completeFans u late .overtaken).completeFans u done .done).completions[d] = _
    by_cases hl : late k = true
    · rw [if_pos hl, completeFans_other u done .done d, completeFans_same u late .overtaken d k hl hd' fun j _ => hj' j]
      intro j hjd hda
      rw [hj' j hda] at hjd
      simp [done, hl] at hjd
    · rw [if_neg hl]
      have hlo : (s.mail.completeFans u late .overtaken).completions[d] = s.mail.completions[d] :=
        completeFans_other u late .overtaken d (fun j hjl hda => hl (hj' j hda ▸ hjl)) _
      by_cases hdn : done k = true
      · rw [if_pos hdn, completeFans_same u done .done d k hdn hd' fun j _ => hj' j]
      · rw [if_neg hdn, completeFans_other u done .done d (fun j hjd hda => hdn (hj' j hda ▸ hjd)), hlo]
  have hmail : (s.fanEvent act).mail = { m with availability := availabilityMail s.fans u m.availability } := by rw [hev]
  have hav : ∀ k : Fin 8, (s.fanEvent act).mail.availability[k] =
      if s.fans.fans[k].state.unavailable = u.fans[k].state.unavailable then s.mail.availability[k]
      else s.mail.availability[k] ++ [!u.fans[k].state.unavailable] := fun k => by
    rw [hmail, hm]; simp [availabilityMail]
  have hst : ∀ k : Fin 8, (s.fanEvent act).fans.fans[k].state = u.fans[k].state := fun k => by rw [hstate k]
  have hqueue : (s.fanEvent act).fans.queue = u.queue := by rw [hev]
  have hown : ∀ k : Fin 8, (s.fanEvent act).fans.fans[k].owner = u.fans[k].owner := fun k => by rw [hstate k]
  have hcls : ∀ k : Fin 8, k ∈ u.queue → u.fans[k] = (act s.fans).fans[k] := fun k h => (geach k).1 h
  have hrev : ∀ k : Fin 8, (s.fanEvent act).fans.fans[k].reverse = u.fans[k].reverse := fun k => by rw [hstate k]
  have hkeep : ∀ k : Fin 8, k ∈ u.queue ∨ ¬acted k → KeepsPlace s.fans (s.fanEvent act).fans acted k →
      KeepsPlace s.fans (act s.fans) acted k := by
    rintro k h ⟨h1, h2, h3⟩
    by_cases hka : acted k
    · have hq := h.resolve_right (absurd hka)
      refine ⟨h1, ?_, fun _ => ⟨(h3 hka).1, (h3 hka).2.1, ?_⟩⟩
      · simpa only [SameClass, hown k, hcls k hq] using h2
      · rw [← (h3 hka).2.2, hrev k, hcls k hq]
    · refine ⟨h1, ?_, fun h => absurd h hka⟩
      rw [(hk k hka).1]
      exact Iff.rfl
  refine ⟨fun k hka hkq => ?_, fun k hka hkq => ?_, ?_, fun hnd hcl j k hjk hjp hjq => ⟨fun hkp hks hs => ?_,
    fun hka hkq hsc hc => ?_⟩, ?_, ?_, fun k => ⟨?_, ?_, ?_⟩, fun k d hd hj => ⟨?_, ?_, ?_⟩, fun d hd => ?_, ?_⟩
  · obtain ⟨h1, h2⟩ := hk k hka
    have hq : k ∉ (act s.fans).queue := fun h => hkq (h2.mp h)
    refine ⟨by rw [hqueue]; exact fun h => hq (gsub.mem h), ?_⟩
    have h4 := hstate k
    rw [(g1 k hq).trans h1] at h4
    exact h4
  · obtain ⟨h1, h2⟩ := hk k hka
    unfold Waits
    rw [hqueue]
    by_cases hq : k ∈ u.queue
    · refine Or.inl ⟨hq, ?_⟩
      have h4 := hstate k
      rw [((geach k).1 hq).trans h1] at h4
      exact h4
    · refine Or.inr ⟨hq, ?_⟩
      have h4 := hstate k
      rw [(geach k).2 (h2.mpr hkq) hq, h1] at h4
      exact h4
  · have hs : (s.fanEvent act).fans.starting = u.starting := by
      unfold FanUnit.starting
      congr 1
      refine List.filter_congr fun k _ => ?_
      rw [hst k]
    rw [hs, hev]
    exact hfill
  · rw [hqueue] at hjq hks ⊢
    have hkq : k ∈ u.queue ∨ ¬acted k := (em (acted k)).imp_left hks
    exact gpair j k (hn hnd) ((ho hnd hcl j k hjk (hkeep j (.inl hjq) hjp) (gsub.mem hjq)).1 (hkeep k hkq hkp)
      (fun h => gsub.mem (hks h)) hs) hjq
  · rw [hqueue] at hjq hkq ⊢
    refine gpair j k (hn hnd) ((ho hnd hcl j k hjk (hkeep j (.inl hjq) hjp) (gsub.mem hjq)).2 hka (gsub.mem hkq) ?_ ?_) hjq
    · simpa only [SameClass, hown, hcls j hjq, hcls k hkq] using hsc
    · simpa only [JoinsBack, SameClass, hown, hrev, hcls k hkq] using hc
  · rw [hev]; exact g3
  · rw [hev]; exact g4
  · rw [hst k, hav k, ← unavailable_iff, ← unavailable_iff]
    intro h
    rw [if_pos (Bool.eq_iff_iff.mpr h)]
  · rw [hst k, hav k, ← unavailable_iff, ← unavailable_iff]
    intro h1 h2
    rw [Bool.not_eq_true] at h2
    rw [h1, h2, if_neg (by decide)]
    rfl
  · rw [hst k, hav k, ← unavailable_iff, ← unavailable_iff]
    intro h1 h2
    rw [Bool.not_eq_true] at h1
    rw [h1, h2, if_neg (by decide)]
    rfl
  · intro h
    have hl : late k = true := (hsup k).mp h
    refine ⟨by rw [hfan k, if_pos (by simp [hl])], ?_⟩
    rw [hmail]
    show m.completions[d] = _
    rw [hone k d hd hj, if_pos hl]
    rfl
  · intro h1 h2
    have hl : ¬late k = true := fun h => h1 ((hsup k).mpr h)
    have hdn : done k = true := by
      have hr := (htgt k).mp h2
      simp only [done, Bool.and_eq_true, Bool.not_eq_true']
      exact ⟨Bool.not_eq_true _ ▸ hl, hr⟩
    refine ⟨by rw [hfan k, if_pos (by simp [hdn])], ?_⟩
    rw [hmail]
    show m.completions[d] = _
    rw [hone k d hd hj, if_neg hl, if_pos hdn]
    rfl
  · intro h1 h2
    have hl : ¬late k = true := fun h => h1 ((hsup k).mpr h)
    have hdn : ¬done k = true := fun h => h2 ((htgt k).mpr (by simp only [done, Bool.and_eq_true] at h; exact h.2))
    refine ⟨by rw [hfan k, if_neg (by simp [hl, hdn])]; exact hat k, ?_⟩
    rw [hmail]
    show m.completions[d] = _
    rw [hone k d hd hj, if_neg hl, if_neg hdn]
  · rw [hmail]
    show ((s.mail.completeFans u late .overtaken).completeFans u done .done).completions[d] = _
    rw [completeFans_other u done .done d (fun j _ h => hd j (by rw [← hat]; exact h)),
      completeFans_other u late .overtaken d (fun j _ h => hd j (by rw [← hat]; exact h))]
  · rw [hev, hm]

end Sys2Proof.Machine
end

