-- ==== Sys2Proof/Laws/Incidents.lean ====
section
/-! SUPPORT. The incident unit: the governing record and what one event of the unit sends (R131, R139, R140). -/

namespace Sys2Proof.Machine

/-- The governing order, spelled out (R139). -/
theorem before_iff (a b : Incident) : a.before b = true ↔ a.Earlier b := by
  simp [Incident.before, Incident.Earlier]

/-- The governing order is a linear preorder: what is not before carries over. -/
theorem not_before_trans {a b c : Incident} (h1 : ¬a.Earlier b) (h2 : ¬b.Earlier c) : ¬a.Earlier c := by
  have hb : ∀ x y : Byte, x = y ↔ x.toNat = y.toNat := fun x y => BitVec.toNat_inj.symm
  have hd : ∀ x y : DWord, x = y ↔ x.toInt = y.toInt := fun x y => BitVec.toInt_inj.symm
  simp only [Incident.Earlier, hb, hd] at *
  omega

/-- No record is before itself. -/
theorem not_before_self (a : Incident) : ¬a.Earlier a := by
  simp [Incident.Earlier]

/-- What a search of the slots has found so far. -/
def FoundBest (u : IncidentUnit) (test : Incident → Bool) (better : Incident → Incident → Bool) (seen : List (Fin 4))
    (acc : Option (Fin 4)) : Prop :=
  (acc = none → ∀ k ∈ seen, ∀ r, u.slots[k] = some r → test r = false) ∧
  (∀ k, acc = some k → ∃ r, u.slots[k] = some r ∧ test r = true ∧
    ∀ j ∈ seen, ∀ q, u.slots[j] = some q → test q = true → better q r = false)

/-- A search that adds one slot at a time. -/
theorem foldl_found (u : IncidentUnit) (test : Incident → Bool) (better : Incident → Incident → Bool)
    (f : Option (Fin 4) → Fin 4 → Option (Fin 4))
    (hf : ∀ seen acc k, FoundBest u test better seen acc → FoundBest u test better (seen ++ [k]) (f acc k))
    (l seen : List (Fin 4)) (acc : Option (Fin 4)) (h : FoundBest u test better seen acc) :
    FoundBest u test better (seen ++ l) (l.foldl f acc) := by
  induction l generalizing seen acc with
  | nil => simpa using h
  | cons k rest ih =>
    have := ih (seen ++ [k]) (f acc k) (hf seen acc k h)
    simpa using this

/-- What `best` finds: of the slots that satisfy a test one that none is better than, where there is one. -/
theorem best_found (u : IncidentUnit) (test : Incident → Bool) (better : Incident → Incident → Bool)
    (hirr : ∀ a, better a a = false)
    (htrans : ∀ a b c, better a b = false → better b c = false → better a c = false)
    (hasym : ∀ a b, better a b = true → better b a = false) :
    FoundBest u test better (List.finRange 4) (u.best test better) := by
  refine foldl_found u test better _ ?_ (List.finRange 4) [] none
    ⟨fun _ k hk => absurd hk List.not_mem_nil, fun k hk => by cases hk⟩
  intro seen acc k hacc
  obtain ⟨hn, hs⟩ := hacc
  have hold : ∀ {P : Fin 4 → Prop}, (∀ j ∈ seen, P j) → P k → ∀ j ∈ seen ++ [k], P j := fun h1 h2 j hj => by
    rcases List.mem_append.mp hj with hj | hj
    · exact h1 j hj
    · rw [List.mem_singleton.mp hj]; exact h2
  cases hk : u.slots[k] with
  | none =>
    refine ⟨fun ha => hold (hn ha) fun r hr => ?_, fun j ha => ?_⟩
    · rw [hk] at hr; cases hr
    · obtain ⟨r, h1, h2, h3⟩ := hs j ha
      exact ⟨r, h1, h2, hold h3 fun q hq => by rw [hk] at hq; cases hq⟩
  | some r =>
    dsimp only
    by_cases ht : test r = true
    · rw [if_pos ht]
      cases acc with
      | none =>
        refine ⟨nofun, fun j hj => ?_⟩
        cases hj
        refine ⟨r, hk, ht, hold (fun i hi q hq hqt => ?_) fun q hq _ => ?_⟩
        · rw [hn rfl i hi q hq] at hqt; cases hqt
        · rw [hk] at hq; cases hq; exact hirr _
      | some j =>
        obtain ⟨q, h1, h2, h3⟩ := hs j rfl
        dsimp only
        rw [h1]
        dsimp only
        by_cases hb : better r q = true
        · rw [if_pos hb]
          refine ⟨nofun, fun i hi => ?_⟩
          cases hi
          refine ⟨r, hk, ht, hold (fun i hi p hp hpt => ?_) fun p hp _ => ?_⟩
          · exact htrans p q r (h3 i hi p hp hpt) (hasym r q hb)
          · rw [hk] at hp; cases hp; exact hirr _
        · rw [if_neg hb]
          refine ⟨nofun, fun i hi => ?_⟩
          cases hi
          refine ⟨q, h1, h2, hold h3 fun p hp _ => ?_⟩
          rw [hk] at hp; cases hp
          exact Bool.not_eq_true _ ▸ hb
    · rw [if_neg ht]
      refine ⟨fun ha => hold (hn ha) fun p hp => ?_, fun j ha => ?_⟩
      · rw [hk] at hp; cases hp; exact Bool.not_eq_true _ ▸ ht
      · obtain ⟨q, h1, h2, h3⟩ := hs j ha
        refine ⟨q, h1, h2, hold h3 fun p hp hpt => ?_⟩
        rw [hk] at hp; cases hp; exact absurd hpt ht

/-- The recomputation changes the governing flags and the deficits alone. -/
theorem govern_table (u : IncidentUnit) : TableIs u.govern u.slots := by
  intro k
  refine ⟨fun h => ?_, fun r h => ⟨decide (u.best Incident.eligible Incident.before = some k), ?_⟩⟩
  · simp only [IncidentUnit.govern, Fin.getElem_fin, Vector.getElem_ofFn]
    rw [Option.map_eq_none_iff]; exact h
  · simp only [IncidentUnit.govern, Fin.getElem_fin, Vector.getElem_ofFn]
    rw [Option.map_eq_some_iff]
    refine ⟨r, h, ?_⟩
    simp

/-- The slots after the recomputation. -/
theorem govern_get (u : IncidentUnit) (k : Fin 4) (r : Incident) (h : u.govern.slots[k] = some r) :
    ∃ q, u.slots[k] = some q ∧ r = { q with
      governing := decide (u.best Incident.eligible Incident.before = some k)
      deficit := if u.best Incident.eligible Incident.before = some k then q.deficit else 0 } := by
  simp only [IncidentUnit.govern, Fin.getElem_fin, Vector.getElem_ofFn] at h
  rw [Option.map_eq_some_iff] at h
  obtain ⟨q, h1, h2⟩ := h
  exact ⟨q, h1, h2.symm⟩

/-- After it the earliest record governs (R139, R140). -/
theorem govern_earliest (u : IncidentUnit) : GoverningIsEarliest u.govern := by
  obtain ⟨hn, hs⟩ := best_found u Incident.eligible Incident.before
    (fun a => by rw [← Bool.not_eq_true, before_iff]; exact not_before_self a)
    (fun a b c => by simp only [← Bool.not_eq_true, before_iff]; exact not_before_trans)
    (fun a b => by
      simp only [← Bool.not_eq_true, before_iff]
      intro h1 h2
      have hb : ∀ x y : Byte, x = y ↔ x.toNat = y.toNat := fun x y => BitVec.toNat_inj.symm
      have hd : ∀ x y : DWord, x = y ↔ x.toInt = y.toInt := fun x y => BitVec.toInt_inj.symm
      simp only [Incident.Earlier, hb, hd] at *
      omega)
  have hel : ∀ r : Incident, r.eligible = true ↔ r.state ≠ .clearing := fun r => by simp [Incident.eligible]
  refine ⟨fun k r hr hg => ?_, fun j k q r hq hr hqg hrg => ?_, fun ⟨k, r, hr, hst⟩ => ?_, fun k r hr hg => ?_⟩
  · obtain ⟨q, h1, h2⟩ := govern_get u k r hr
    have hb : u.best Incident.eligible Incident.before = some k := by rw [h2] at hg; simpa using hg
    obtain ⟨q', h3, h4, h5⟩ := hs k hb
    rw [h1] at h3; cases h3
    refine ⟨by rw [h2]; exact (hel q).mp h4, fun j p hp hpst => ?_⟩
    obtain ⟨p', h6, h7⟩ := govern_get u j p hp
    have hpe : p'.eligible = true := (hel p').mpr (by rw [h7] at hpst; exact hpst)
    have := h5 j (List.mem_finRange j) p' h6 hpe
    rw [← Bool.not_eq_true, before_iff] at this
    rw [h7, h2]
    exact this
  · obtain ⟨_, _, h2⟩ := govern_get u j q hq
    obtain ⟨_, _, h3⟩ := govern_get u k r hr
    rw [h2] at hqg; rw [h3] at hrg
    have hj : u.best Incident.eligible Incident.before = some j := by simpa using hqg
    have hk : u.best Incident.eligible Incident.before = some k := by simpa using hrg
    rw [hj] at hk
    exact Option.some.inj hk
  · obtain ⟨q, h1, h2⟩ := govern_get u k r hr
    have hqe : q.eligible = true := (hel q).mpr (by rw [h2] at hst; exact hst)
    cases hb : u.best Incident.eligible Incident.before with
    | none => rw [hn hb k (List.mem_finRange k) q h1] at hqe; cases hqe
    | some j =>
      obtain ⟨p, h3, -, -⟩ := hs j hb
      refine ⟨j, { p with governing := true, deficit := p.deficit }, ?_, rfl⟩
      simp only [IncidentUnit.govern, Fin.getElem_fin, Vector.getElem_ofFn]
      rw [Option.map_eq_some_iff]
      exact ⟨p, h3, by simp [hb]⟩
  · obtain ⟨q, h1, h2⟩ := govern_get u k r hr
    rw [h2] at hg
    have hb : ¬u.best Incident.eligible Incident.before = some k := by simpa using hg
    rw [h2]
    simp [hb]

/-- Everything one event at the incident unit sends, besides what `act` does to the unit. -/
theorem incidentEvent_frame (s : State) (act : IncidentUnit → IncidentStep) :
    IncidentEventFrame s (s.incidentEvent act) (act s.incidents).deliveries (act s.incidents).freed
      (act s.incidents).slotFreed (act s.incidents).notices := by
  refine ⟨govern_earliest _, rfl, fun z => by simp [State.incidentEvent, Mail.incidentStep, mapTable], fun z => ?_, rfl, rfl,
    fun h => ?_, fun h => ?_, ?_, rfl⟩
  · simp only [State.incidentEvent, Mail.incidentStep]
    split <;> simp [mapTable]
  · have hg : s.incidents.governingRecord.map (·.ident) = (act s.incidents).unit.govern.governingRecord.map (·.ident) := h.symm
    simp only [State.incidentEvent, Mail.incidentStep, if_pos hg]
  · have hg : ¬s.incidents.governingRecord.map (·.ident) = (act s.incidents).unit.govern.governingRecord.map (·.ident) :=
      fun e => h e.symm
    simp only [State.incidentEvent, Mail.incidentStep, if_neg hg]
    rfl
  · simp only [State.incidentEvent, Registers.raiseIf]
    cases (act s.incidents).deliveries <;> simp

/-- The table after an event is the one `act` makes, governing flags and deficits apart. -/
theorem incidentEvent_table (s : State) (act : IncidentUnit → IncidentStep) :
    TableIs (s.incidentEvent act).incidents (act s.incidents).unit.slots := govern_table _

end Sys2Proof.Machine
end

