-- ==== Sys2Proof/Laws/Inputs.lean ====
section
/-! SUPPORT. Contacts, pulse inputs and registers: what one sample and one register access can do (R43 to R48, R184). -/

namespace Sys2Proof.Machine

/-! ## Contacts (R43, R44, R46) -/

/-- The sample of a contact that is due, and the delivery it makes. -/
theorem takeDue_takes (c : Contact) (now : Nat) (before : List Bool) (h : c.due = true) :
    c.TakesSample (c.takeDue now).1 now before (before ++ (c.takeDue now).2.toList) := by
  unfold Contact.takeDue Contact.sample Contact.TakesSample Contact.raw
  rw [if_pos h]
  refine ⟨fun hr => ?_, fun hr hc hd => ?_, fun hr hc hd => ?_, fun first hr hc hd => ?_, fun first hr hc hd => ?_⟩
  · rw [if_pos hr]; simp
  all_goals rw [if_neg hr, hc]
  · have hl : (!c.level) = (c.pin != c.activeLow) := by
      revert hr; cases c.pin <;> cases c.activeLow <;> cases c.level <;> simp
    simp [hd, hl]
  · simp [hd]
  · have hl : (!c.level) = (c.pin != c.activeLow) := by
      revert hr; cases c.pin <;> cases c.activeLow <;> cases c.level <;> simp
    simp [hd, hl]
  · simp only [Option.getD_some, if_neg (Nat.not_le.mpr hd)]
    cases c; simp_all

/-- A contact with no sample due keeps what it holds. -/
theorem takeDue_none (c : Contact) (now : Nat) (h : c.due = false) : c.takeDue now = (c, none) := by
  simp [Contact.takeDue, h]

/-! ## Pulse inputs (R48, R49) -/

/-- A saturating count, spelled out. -/
theorem satSucc_eq (n : Nat) : satSucc n = min (n + 1) (max n 65535) := by
  unfold satSucc Config.countMax
  split <;> omega

/-- The pulse that a filtered rise makes, spelled out (R49). -/
theorem counted_eq (p : Pulse) :
    p.counted = { p with count := if p.binding = .none then p.count else min (p.count + 1) (max p.count 65535) } := by
  unfold Pulse.counted
  obtain ⟨pin, filter, next, level, last, left, count, binding⟩ := p
  cases binding <;> simp [satSucc_eq]

/-- A sample with no change of the filter setting to come. -/
theorem sample_next_none {p : Pulse} (h : p.next = none) : p.takeSetting = p := by
  unfold Pulse.takeSetting
  rw [h]

/-- One sample. -/
theorem sample_takes (p : Pulse) : p.TakesSamples p.sample 1 := by
  unfold Pulse.TakesSamples
  refine ⟨by simp, fun _ h => ?_, fun k _ h1 h2 h3 => ?_, fun _ h1 h2 => ⟨fun h => ?_, fun l h hl hc => ?_, fun l h hc => ?_⟩⟩
  · simp [Pulse.sample, Pulse.takeSetting, h]
  · simp [Pulse.sample, Pulse.takeSetting, h1, h2, h3]
  · simp [Pulse.sample, sample_next_none h2, h1, h]
  · have hp : p.pin = p.lastSample := hc.resolve_right (by omega)
    have hb : (decide (p.pin = p.lastSample) && p.pin != l) = true := by simp [← hp, hl]
    simp only [Pulse.sample, sample_next_none h2, if_neg h1, h, if_pos hb]
    cases hpin : p.pin
    · simp
    · simp only [if_true, counted_eq]
      cases p.binding <;> simp
  · have hb : ¬(decide (p.pin = p.lastSample) && p.pin != l) = true := by
      rcases hc with hc | ⟨hc, -⟩ <;> simp [hc]
    simp only [Pulse.sample, sample_next_none h2, if_neg h1, h, if_neg hb]

/-- A filter that has settled on its pin, and OFF, only let the samples of the tick pass. -/
theorem samples_settled (n : Nat) (p : Pulse) (h1 : p.lastSample = p.pin) (h2 : p.next = none)
    (h3 : p.filter = .off ∨ p.level = some p.pin) : p.samples n = { p with left := p.left - n } := by
  induction n generalizing p with
  | zero => rfl
  | succ n ih =>
    have hs : p.sample = { p with left := p.left - 1 } := by
      unfold Pulse.sample
      rw [sample_next_none h2]
      rcases h3 with h3 | h3 <;> simp [h3, ← h1]
    rw [Pulse.samples, hs, ih { p with left := p.left - 1 } h1 h2 h3, Nat.sub_sub, Nat.add_comm 1 n]

/-- Several samples of a standing pin: the second of two settles the filter, and the others change nothing (R48). -/
theorem samples_take (n : Nat) (p : Pulse) : p.TakesSamples (p.samples n) n := by
  match n with
  | 0 => exact ⟨fun _ => rfl, by simp, by simp, by simp⟩
  | n + 1 =>
    obtain ⟨-, t0, t1, t2⟩ := sample_takes p
    rw [Pulse.samples]
    refine ⟨by simp, fun _ h => ?_, fun k _ h1 h2 h3 => ?_, fun _ h1 h2 => ⟨fun h => ?_, fun l h hl hc => ?_, fun l h hc => ?_⟩⟩
    · rw [t0 one_pos h, samples_settled _ _ rfl rfl (.inl rfl), Nat.sub_sub, Nat.add_comm 1 n]
    · rw [t1 k one_pos h1 h2 h3, samples_settled _ _ rfl rfl (.inr rfl), Nat.sub_sub, Nat.add_comm 1 n]
    · rw [(t2 one_pos h1 h2).1 h, samples_settled _ _ rfl (by exact h2) (.inr rfl), Nat.sub_sub, Nat.add_comm 1 n]
    · obtain ⟨-, u1, u2⟩ := t2 one_pos h1 h2
      by_cases hp : p.pin = p.lastSample
      · rw [u1 l h hl (.inl hp), samples_settled _ _ rfl (by exact h2) (.inr rfl), Nat.sub_sub, Nat.add_comm 1 n]
      · have hn : 2 ≤ n + 1 := hc.resolve_left hp
        obtain ⟨m, rfl⟩ : ∃ m, n = m + 1 := ⟨n - 1, by omega⟩
        rw [u2 l h (.inr ⟨hp, rfl⟩), show m + 1 = m.succ from rfl, Pulse.samples]
        obtain ⟨-, -, -, v⟩ := sample_takes { p with lastSample := p.pin, left := p.left - 1 }
        rw [(v one_pos h1 h2).2.1 l h hl (.inl rfl), samples_settled _ _ rfl (by exact h2) (.inr rfl)]
        simp only [Nat.sub_sub]
        congr 1
        omega
    · obtain ⟨-, -, u2⟩ := t2 one_pos h1 h2
      by_cases hp : p.pin = l
      · rw [u2 l h (.inl hp), samples_settled _ _ rfl (by exact h2) (.inr (by simp [h, hp])), Nat.sub_sub, Nat.add_comm 1 n]
      · obtain ⟨h3, h4⟩ := hc.resolve_left hp
        have hn : n = 0 := by omega
        subst hn
        exact u2 l h (.inr ⟨h3, rfl⟩)

/-- The samples still to come are counted down beside what a sample does to the filter. -/
theorem sample_left (p : Pulse) (n : Nat) : ({ p with left := n } : Pulse).sample = { p.sample with left := n - 1 } := by
  obtain ⟨pin, filter, next, level, last, left, count, binding⟩ := p
  unfold Pulse.sample Pulse.takeSetting
  simp only [counted_eq]
  cases next <;> dsimp only <;> split <;> try rfl
  all_goals split <;> try rfl
  all_goals split <;> try rfl
  all_goals split <;> rfl

/-- A number of samples lowers those still to come by that number. -/
theorem samples_left (n : Nat) (p : Pulse) : (p.samples n).left = p.left - n := by
  induction n generalizing p with
  | zero => rfl
  | succ n ih =>
    have h : p.sample.left = p.left - 1 := congrArg Pulse.left (sample_left p p.left)
    rw [Pulse.samples, ih, h, Nat.sub_sub, Nat.add_comm 1 n]

/-- How many samples are due, by the filter that takes them. -/
theorem due_fast {p : Pulse} (h : p.SampledAs .fast) : p.due = p.left := by
  unfold Pulse.SampledAs at h
  unfold Pulse.due Pulse.sampler
  rcases h with h | ⟨h1, h2⟩ <;> simp_all

theorem due_slow {p : Pulse} (h : p.SampledAs .slow) (h2 : p.left = 8) : p.due = 1 := by
  unfold Pulse.SampledAs at h
  unfold Pulse.due Pulse.sampler Config.samplesPerTick
  rcases h with h | ⟨h1, h2⟩ <;> simp_all

/-- No sample is due where none of this tick is still to come. -/
theorem due_eq_zero (p : Pulse) (h : ¬p.SampleDue) : p.due = 0 := by
  unfold Pulse.SampleDue Pulse.SampledAs at h
  unfold Pulse.due Pulse.sampler Config.samplesPerTick
  rcases hf : p.filter with _ | _ | _
  · rcases hn : p.next with _ | k
    · simp
    · cases k <;> simp_all
  all_goals simp_all

/-- A sample that is due. -/
theorem due_pos_iff (p : Pulse) : 0 < p.due ↔ p.SampleDue := by
  refine ⟨fun h => by_contra fun hn => by rw [due_eq_zero p hn] at h; omega, ?_⟩
  rintro (⟨h1, h2⟩ | ⟨h1, h2⟩)
  · rw [due_fast h1]; exact h2
  · rw [due_slow h1 h2]; omega

/-- The samples of a tick that are still to come (R48). -/
theorem takeDue_takesDue (p : Pulse) : p.TakesDue p.takeDue := by
  unfold Pulse.TakesDue Pulse.takeDue
  refine ⟨fun h => ?_, fun h h2 => ?_, fun h => ?_⟩
  · have hl : { p.samples p.left with left := 0 } = p.samples p.left := by
      rw [← show (p.samples p.left).left = 0 by rw [samples_left, Nat.sub_self]]
    rw [due_fast h]
    exact hl ▸ samples_take p.left p
  · rw [due_slow h h2]
    exact sample_left p 1 ▸ sample_takes { p with left := 1 }
  · rw [due_eq_zero p h]
    rfl

/-- A LOAD's filter setting (R48). -/
theorem setFilter_takes (k : FilterKind) (p : Pulse) : p.TakesFilter (p.setFilter k) k := by
  unfold Pulse.TakesFilter Pulse.setFilter Config.samplesPerTick
  refine ⟨fun h => if_pos h, fun h h2 => ?_, fun h h2 => ?_, fun h h2 h3 => ?_⟩
  · rw [if_neg (fun e => h2 (e.symm.trans h)), if_pos h]
  · rw [if_neg (fun e => h (e.trans h2)), if_neg h, if_pos h2]
  · rw [if_neg (fun e => h3 e.symm), if_neg h, if_neg h2]

/-! ## Registers (R184) -/

/-- HA1-HA3 choose the register. -/
theorem registerPosition_eq (o : Offset) : registerPosition o = o.toNat % 16 / 2 := by
  unfold registerPosition
  omega

end Sys2Proof.Machine
end

