-- ==== Sys2Proof/Laws/Link.lean ====
section
/-! SUPPORT. The span link: the classes of a transmit queue and what one event at a port can do (R175 to R177, R182). -/

namespace Sys2Proof.Machine

/-- Every event at a port changes that port, and ATTENTION where R182 calls for LINK. -/
theorem portEvent_becomes (p : Port) (act : PortState → PortState) (s : State) :
    PortBecomes s (State.portEvent p act s) p (act (s.link.get p)) (linkChanged (s.link.get p) (act (s.link.get p))) := rfl

/-- The part of a classed list below a class and the rest. -/
theorem classes_split (l : List TxEntry) (h : l.Pairwise fun a b => a.place ≤ b.place) :
    l.filter (TxEntry.isOrigin .own) ++ l.filter (TxEntry.isOrigin .forwarded) ++ l.filter (fun e => decide (e = .hello)) = l := by
  induction l with
  | nil => rfl
  | cons e rest ih =>
    have hr := ih (List.Pairwise.of_cons h)
    have hle := (List.pairwise_cons.mp h).1
    have hnone : ∀ (o : NoticeOrigin), (∀ a ∈ rest, TxEntry.isOrigin o a = false) → rest.filter (TxEntry.isOrigin o) = [] :=
      fun o ha => List.filter_eq_nil_iff.mpr fun a hm => by simp [ha a hm]
    cases e with
    | hello =>
      have h1 : ∀ (o : NoticeOrigin), ∀ a ∈ rest, TxEntry.isOrigin o a = false := fun o a ha => by
        have := hle a ha
        cases a with
        | hello => rfl
        | notice q => simp only [TxEntry.place] at this; split at this <;> omega
      have h2 := hnone .own (h1 .own)
      have h3 := hnone .forwarded (h1 .forwarded)
      rw [h2, h3] at hr
      simp only [List.filter_cons, TxEntry.isOrigin, Bool.false_eq_true, if_false, decide_true, if_true, h2, h3]
      simpa using hr
    | notice q =>
      cases ho : q.origin with
      | own =>
        simp only [List.filter_cons, TxEntry.isOrigin, ho, decide_true, if_true, List.cons_append, reduceCtorEq,
          decide_false, Bool.false_eq_true, if_false]
        rw [hr]
      | forwarded =>
        have h1 : ∀ a ∈ rest, TxEntry.isOrigin .own a = false := fun a ha => by
          have := hle a ha
          cases a with
          | hello => rfl
          | notice r =>
            simp only [TxEntry.place, ho, reduceCtorEq, if_false] at this
            simp only [TxEntry.isOrigin, decide_eq_false_iff_not]
            intro hro
            rw [if_pos hro] at this
            omega
        have h2 := hnone .own h1
        rw [h2] at hr
        simp only [List.filter_cons, TxEntry.isOrigin, ho, reduceCtorEq, decide_false, Bool.false_eq_true, if_false,
          decide_true, if_true, h2, List.nil_append, List.cons_append]
        rw [List.nil_append] at hr
        rw [hr]

/-- Joining puts the notice at the back of its class (R175). -/
theorem joinClass_joins (l : List TxEntry) (q : QueuedNotice) (h : l.Pairwise fun a b => a.place ≤ b.place) :
    JoinsClass l q (joinClass l q) := by
  have hs := classes_split l h
  have hown : ∀ e ∈ l.filter (TxEntry.isOrigin .own), e.place = 0 := fun e he => by
    have := (List.mem_filter.mp he).2
    cases e with
    | hello => simp [TxEntry.isOrigin] at this
    | notice r => simp only [TxEntry.isOrigin, decide_eq_true_eq] at this; simp [TxEntry.place, this]
  have hfwd : ∀ e ∈ l.filter (TxEntry.isOrigin .forwarded), e.place = 1 := fun e he => by
    have := (List.mem_filter.mp he).2
    cases e with
    | hello => simp [TxEntry.isOrigin] at this
    | notice r => simp only [TxEntry.isOrigin, decide_eq_true_eq] at this; simp [TxEntry.place, this]
  have hhel : ∀ e ∈ l.filter (fun e => decide (e = .hello)), e.place = 2 := fun e he => by
    have := (List.mem_filter.mp he).2
    simp only [decide_eq_true_eq] at this
    rw [this]; rfl
  unfold joinClass
  cases ho : q.origin with
  | own =>
    refine ⟨l.filter (TxEntry.isOrigin .own), l.filter (TxEntry.isOrigin .forwarded) ++ l.filter fun e => decide (e = .hello),
      ?_, ?_, ?_, ?_⟩
    · rw [← List.append_assoc]; exact hs.symm
    · simp
    · intro e he; rw [hown e he]; exact Nat.zero_le _
    · intro e he
      have hq : TxEntry.place (.notice q) = 0 := by simp [TxEntry.place, ho]
      rcases List.mem_append.mp he with he | he
      · rw [hfwd e he, hq]; decide
      · rw [hhel e he, hq]; decide
  | forwarded =>
    have hq : TxEntry.place (.notice q) = 1 := by simp [TxEntry.place, ho]
    refine ⟨l.filter (TxEntry.isOrigin .own) ++ l.filter (TxEntry.isOrigin .forwarded), l.filter fun e => decide (e = .hello),
      hs.symm, by simp, ?_, ?_⟩
    · intro e he
      rw [hq]
      rcases List.mem_append.mp he with he | he
      · rw [hown e he]; decide
      · rw [hfwd e he]
    · intro e he; rw [hhel e he, hq]; decide

/-- The first entry that satisfies a test leaves, and no other. -/
theorem dropFirst_append (test : TxEntry → Bool) (x y : List TxEntry) (e : TxEntry) (hx : ∀ a ∈ x, test a = false)
    (he : test e = true) : dropFirst test (x ++ e :: y) = x ++ y := by
  induction x with
  | nil => simp [dropFirst, he]
  | cons a x ih =>
    simp [dropFirst, hx a List.mem_cons_self, ih fun b hb => hx b (List.mem_cons_of_mem _ hb)]

/-- A full queue gives way as R177 says. -/
theorem overfull_givesWay (l : List TxEntry) (q : QueuedNotice) (h : TransmitWf l) : GivesWay l q (overfull l q) := by
  obtain ⟨-, hp⟩ := h
  have hle : l.Pairwise fun a b => a.place ≤ b.place := hp.imp fun h => h.1
  have hsub : ∀ x y (e : TxEntry), l = x ++ e :: y → (x ++ y).Pairwise fun a b => a.place ≤ b.place := fun x y e he =>
    hle.sublist (by rw [he]; exact List.Sublist.append_left (List.sublist_cons_self _ _) _)
  refine ⟨fun x y he => ?_, fun hh x y old he ho hx => ?_, fun h0 ho => ?_, fun h0 ho => ?_⟩
  · have hx : ∀ a ∈ x, (decide (a = TxEntry.hello)) = false := fun a ha => by
      rw [he] at hp
      have := (List.pairwise_append.mp hp).2.2 a ha .hello List.mem_cons_self
      simp only [decide_eq_false_iff_not]
      exact fun hah => this.2.1 ⟨hah, rfl⟩
    have hd := dropFirst_append (fun e => decide (e = .hello)) x y .hello hx (by simp)
    have hc : l.contains TxEntry.hello = true := by rw [he]; simp
    unfold overfull
    rw [if_pos hc]
    rw [← he] at hd
    rw [hd]
    exact joinClass_joins _ q (hsub x y _ he)
  · have hc : ¬l.contains TxEntry.hello = true := by simpa using hh
    have hf : (l.any (TxEntry.isOrigin .forwarded)) = true := by rw [he]; simp [TxEntry.isOrigin, ho]
    have hx' : ∀ a ∈ x, TxEntry.isOrigin .forwarded a = false := fun a ha => by
      have := hx a ha
      cases a with
      | hello => rfl
      | notice r =>
        simp only [TxEntry.place] at this
        split at this
        · next hr => simp [TxEntry.isOrigin, hr]
        · omega
    have hd := dropFirst_append (TxEntry.isOrigin .forwarded) x y (.notice old) hx' (by simp [TxEntry.isOrigin, ho])
    rw [← he] at hd
    unfold overfull
    rw [if_neg hc, if_pos hf, hd]
    exact joinClass_joins _ q (hsub x y _ he)
  all_goals
    have hc : ¬l.contains TxEntry.hello = true := by
      simp only [List.contains_iff_mem]
      intro hm
      have := h0 _ hm
      simp [TxEntry.place] at this
    have hf : ¬(l.any (TxEntry.isOrigin .forwarded)) = true := by
      simp only [List.any_eq_true, not_exists, not_and]
      intro a ha
      have := h0 a ha
      cases a with
      | hello => simp [TxEntry.isOrigin]
      | notice r =>
        simp only [TxEntry.place] at this
        split at this
        · next hr => simp [TxEntry.isOrigin, hr]
        · omega
    unfold overfull
    rw [if_neg hc, if_neg hf, ho]
  have hall : ∀ m : List TxEntry, (∀ e ∈ m, e.place = 0) → joinClass m q = m ++ [.notice q] := fun m hm => by
    have hiso : ∀ e ∈ m, TxEntry.isOrigin .own e = true ∧ TxEntry.isOrigin .forwarded e = false ∧ e ≠ .hello := fun e he => by
      have := hm e he
      cases e with
      | hello => simp [TxEntry.place] at this
      | notice r =>
        simp only [TxEntry.place] at this
        split at this
        · next hr => simp [TxEntry.isOrigin, hr]
        · omega
    unfold joinClass
    rw [ho, List.filter_eq_self.mpr fun e he => (hiso e he).1,
      List.filter_eq_nil_iff.mpr fun e he => by simp [(hiso e he).2.1],
      List.filter_eq_nil_iff.mpr fun e he => by simp [(hiso e he).2.2]]
    simp
  cases l with
  | nil => exact hall [] fun e he => absurd he List.not_mem_nil
  | cons e rest =>
    have hd : dropFirst (TxEntry.isOrigin .own) (e :: rest) = rest :=
      dropFirst_append (TxEntry.isOrigin .own) [] rest e (fun a ha => absurd ha List.not_mem_nil) (by
        have := h0 e List.mem_cons_self
        cases e with
        | hello => simp [TxEntry.place] at this
        | notice r =>
          simp only [TxEntry.place] at this
          split at this
          · next hr => simp [TxEntry.isOrigin, hr]
          · omega)
    show joinClass (dropFirst (TxEntry.isOrigin .own) (e :: rest)) q = _
    rw [hd]
    exact hall rest fun a ha => h0 a (List.mem_cons_of_mem _ ha)

/-- The line is idle from 2 ms after the last byte on it (R168). -/
theorem idleTwo_iff {now : Nat} {p : PortState} : p.idleTwo now = true ↔ p.idleSince + 2 ≤ now :=
  decide_eq_true_iff

/-- A line that is not idle settles nothing (R168). -/
theorem settle_busy {now : Nat} {p : PortState} (h : now < p.idleSince + 2) : p.settle now = p := by
  unfold PortState.settle
  rw [if_neg fun hc => Nat.not_le.mpr h (idleTwo_iff.mp hc)]

/-- An idle line ends the ignoring of bytes (R168). -/
theorem settle_idle {now : Nat} {p : PortState} (h : p.idleSince + 2 ≤ now) (hr : p.receiving = []) :
    p.settle now = { p with ignoring := false } := by
  unfold PortState.settle
  rw [if_pos (idleTwo_iff.mpr h)]
  simp [hr]

/-- An idle line gives up a frame received in part (R168 check 4). -/
theorem settle_part {now : Nat} {p : PortState} (h : p.idleSince + 2 ≤ now) (hr : p.receiving ≠ []) :
    p.settle now = { p with ignoring := false, receiving := [], rejected := satSucc p.rejected } := by
  unfold PortState.settle
  rw [if_pos (idleTwo_iff.mpr h)]
  have : p.receiving.isEmpty = false := by cases hl : p.receiving <;> simp_all
  simp [this, PortState.breakOff]

/-- A byte at a disabled port is discarded (R163, R166). -/
theorem byteArrives_disabled (x : Ctx) (p : PortState) (b : Byte) :
    p.byteArrives x false b = { p with idleSince := x.now, ownLast := false } := rfl

/-- A byte that neither goes on with a frame nor has an idle line before it is ignored, and so is one after a rejected frame
(R168). -/
theorem receive_ignored {x : Ctx} {p : PortState} (b : Byte)
    (h : p.ignoring = true ∨ (p.receiving = [] ∧ x.now < p.idleSince + 2)) :
    p.receive x b = { p with idleSince := x.now, ownLast := false } := by
  unfold PortState.receive PortState.idleTwo
  dsimp only
  rw [if_pos]
  rcases h with h | ⟨h, h2⟩
  · simp [h]
  · simp [h, Config.idleTicks, Nat.not_le.mpr h2]

/-- Any other byte: good frames act, and a failing byte rejects the frame (R168). -/
theorem receive_taken {x : Ctx} {p : PortState} (b : Byte) (h : p.ignoring = false)
    (h2 : p.receiving ≠ [] ∨ p.idleSince + 2 ≤ x.now) :
    p.receive x b =
      match frameProgress (p.receiving ++ [b]) with
      | .more => { p with idleSince := x.now, ownLast := false, receiving := p.receiving ++ [b] }
      | .bad => { p with idleSince := x.now, ownLast := false, receiving := [], ignoring := true, rejected := satSucc p.rejected }
      | .good f => ({ p with idleSince := x.now, ownLast := false, receiving := [] }).takeGood x f := by
  have hc : ¬(p.ignoring || (p.receiving.isEmpty && !p.idleTwo x.now)) = true := by
    rcases h2 with h2 | h2
    · have : p.receiving.isEmpty = false := by cases hl : p.receiving <;> simp_all
      simp [h, this]
    · simp [h, idleTwo_iff.mpr h2]
  unfold PortState.receive
  dsimp only
  rw [if_neg hc, h]
  all_goals rfl

/-- A good frame is taken by its kind (R169, R170, R179). -/
theorem takeGood_takes (x : Ctx) (f : GoodFrame) (p : PortState) : TakesGood p (p.takeGood x f) x.now f := by
  refine ⟨?_, ?_⟩
  · rintro t rfl; rfl
  · rintro g rfl
    refine ⟨fun h => ?_, fun h h2 => ?_, fun h h2 h3 => ?_⟩
    · have hn : ¬p.receiveQueue.length < Config.receiveCapacity := Nat.not_lt.mpr h
      simp only [PortState.takeGood, PortState.joinReceive, if_neg hn]
    · have hn : p.receiveQueue.length < Config.receiveCapacity := h
      simp only [PortState.takeGood, PortState.joinReceive, if_pos hn, PortState.markIfFilling]
      rw [if_neg]
      rintro ⟨h4, h5⟩
      rcases h2 with h2 | h2
      · exact absurd h4 (Nat.not_le.mpr h2)
      · rw [h2] at h5; cases h5
    · have hn : p.receiveQueue.length < Config.receiveCapacity := h
      simp only [PortState.takeGood, PortState.joinReceive, if_pos hn, PortState.markIfFilling]
      rw [if_pos ⟨h2, h3⟩]
      rfl

/-- The head frame leaves and the mark is released where R170 says. -/
theorem takeHead_takes (p : PortState) : TakesHead p p.takeHead := by
  refine ⟨fun h1 h2 => ?_, fun h => ?_⟩
  · have hl : p.receiveQueue.tail.length ≤ Config.holdMarkRelease := by
      simp only [List.length_tail, Config.holdMarkRelease]; omega
    simp only [PortState.takeHead, if_pos (And.intro hl h1)]
  · have hl : ¬(p.receiveQueue.tail.length ≤ Config.holdMarkRelease ∧ p.holdMark = true) := by
      simp only [List.length_tail, Config.holdMarkRelease]
      rintro ⟨h1, h2⟩
      rcases h with h | h
      · rw [h2] at h; cases h
      · omega
    simp only [PortState.takeHead, if_neg hl]

/-- A HELLO is offered as R171 says. -/
theorem offerHello_offers (p : PortState) : OffersHello p p.offerHello := by
  refine ⟨fun h => ?_, fun h h2 => ?_, fun h h2 => ?_⟩
  · simp [PortState.offerHello, h]
  · simp [PortState.offerHello, h, Config.transmitCapacity, h2]
  · simp [PortState.offerHello, h, Config.transmitCapacity, Nat.not_lt.mpr h2]

/-- Going DOWN (R174). -/
theorem goDown_goes (p : PortState) : GoesDown p p.goDown := by
  unfold GoesDown PortState.goDown
  congr 1
  generalize p.transmitQueue = l
  induction l with
  | nil => rfl
  | cons e rest ih => by_cases h : e = .hello <;> simp [h, ih, List.replicate_succ]

end Sys2Proof.Machine
end

