-- ==== Sys2Proof/Laws/Memory.lean ====
section
/-! SUPPORT. The sparse memory: every write keeps its canonical form, and reads after writes. -/

namespace Sys2Proof.Machine

/-- A canonical list whose keys are above a bound is canonical above any lower bound. -/
theorem Memory.wfAbove_weaken {m : Memory} {b c : Nat} (hbc : b ≤ c) (h : Memory.wfAbove (some c) m = true) :
    Memory.wfAbove (some b) m = true := by
  cases m with
  | nil => rfl
  | cons e rest =>
    obtain ⟨k, v⟩ := e
    simp only [Memory.wfAbove, Bool.and_eq_true, decide_eq_true_eq] at h ⊢
    exact ⟨⟨by omega, h.1.2⟩, h.2⟩

/-- A write above the bound keeps the canonical form above it. -/
theorem Memory.wfAbove_write {m : Memory} {b a : Nat} {v : Byte} (hb : b < a) (h : Memory.wfAbove (some b) m = true) :
    Memory.wfAbove (some b) (m.write a v) = true := by
  induction m generalizing b with
  | nil =>
    unfold Memory.write
    split <;> simp_all [Memory.wfAbove]
  | cons e rest ih =>
    obtain ⟨k, w⟩ := e
    simp only [Memory.wfAbove, Bool.and_eq_true, decide_eq_true_eq] at h
    unfold Memory.write
    split
    · rename_i hk
      simp only [Memory.wfAbove, Bool.and_eq_true, decide_eq_true_eq]
      exact ⟨h.1, ih hk h.2⟩
    · split
      · rename_i hk
        subst hk
        split
        · exact Memory.wfAbove_weaken (Nat.le_of_lt h.1.1) h.2
        · simp_all [Memory.wfAbove]
      · rename_i h1 h2
        split
        · simp_all [Memory.wfAbove]
        · simp only [Memory.wfAbove, Bool.and_eq_true, decide_eq_true_eq]
          refine ⟨⟨hb, by simp_all⟩, ⟨by omega, h.1.2⟩, h.2⟩

/-- A write keeps the canonical form. -/
theorem Memory.wf_write {m : Memory} (a : Nat) (v : Byte) (h : m.wf = true) : (m.write a v).wf = true := by
  unfold Memory.wf at *
  cases m with
  | nil =>
    unfold Memory.write
    split <;> simp_all [Memory.wfAbove]
  | cons e rest =>
    obtain ⟨k, w⟩ := e
    simp only [Memory.wfAbove, Bool.and_eq_true, Bool.true_and] at h
    unfold Memory.write
    split
    · rename_i hk
      simp only [Memory.wfAbove, Bool.and_eq_true, Bool.true_and]
      exact ⟨h.1, Memory.wfAbove_write hk h.2⟩
    · split
      · rename_i hk
        subst hk
        split
        · cases rest with
          | nil => rfl
          | cons f r =>
            obtain ⟨k2, w2⟩ := f
            simp only [Memory.wfAbove, Bool.and_eq_true, Bool.true_and] at h ⊢
            exact ⟨h.2.1.2, h.2.2⟩
        · simp_all [Memory.wfAbove]
      · rename_i h1 h2
        split
        · simp_all [Memory.wfAbove]
        · simp only [Memory.wfAbove, Bool.and_eq_true, Bool.true_and, decide_eq_true_eq]
          refine ⟨by simp_all, ⟨by omega, h.1⟩, h.2⟩

/-- A word write keeps the canonical form. -/
theorem Memory.wf_writeWord {m : Memory} (a : Nat) (w : Word) (h : m.wf = true) : (m.writeWord a w).wf = true :=
  Memory.wf_write _ _ (Memory.wf_write _ _ h)

/-- Word writes keep the canonical form. -/
theorem Memory.wf_writeWords {m : Memory} (a : Nat) (ws : List Word) (h : m.wf = true) : (m.writeWords a ws).wf = true := by
  induction ws generalizing m a with
  | nil => exact h
  | cons w rest ih => exact ih (a + 2) (Memory.wf_writeWord a w h)

/-- The card write keeps the canonical form. -/
theorem wf_writeCompletion {m : Memory} (p : Nat) (a : Answer) (l : List Word) (sec : DWord) (h : m.wf = true) :
    (writeCompletion m p a l sec).wf = true := by
  unfold writeCompletion
  refine Memory.wf_writeWords _ _ (Memory.wf_writeWords _ _ ?_)
  cases a.condition with
  | none => exact Memory.wf_writeWord _ _ h
  | some w => exact Memory.wf_writeWord _ _ (Memory.wf_writeWord _ _ h)

/-- Below every key of a canonical list a read is blank. -/
theorem Memory.read_below {m : Memory} {b a : Nat} (hab : a ≤ b) (h : Memory.wfAbove (some b) m = true) :
    m.read a = Memory.blank := by
  induction m generalizing b with
  | nil => rfl
  | cons e rest ih =>
    obtain ⟨k, v⟩ := e
    simp only [Memory.wfAbove, Bool.and_eq_true, decide_eq_true_eq] at h
    unfold Memory.read
    rw [if_neg (by omega)]
    exact ih (by omega) h.2

/-- Reading the address written gives the byte written. -/
theorem Memory.read_write_same {m : Memory} (a : Nat) (v : Byte) (h : m.wf = true) : (m.write a v).read a = v := by
  unfold Memory.wf at h
  suffices ∀ (b : Option Nat), Memory.wfAbove b m = true → (m.write a v).read a = v from this none h
  clear h
  induction m with
  | nil =>
    intro b _
    unfold Memory.write
    split <;> simp_all [Memory.read]
  | cons e rest ih =>
    intro b h
    obtain ⟨k, w⟩ := e
    simp only [Memory.wfAbove, Bool.and_eq_true] at h
    unfold Memory.write
    split
    · rename_i hk
      unfold Memory.read
      rw [if_neg (by omega)]
      exact ih (some k) h.2
    · split
      · rename_i hk
        subst hk
        split
        · rename_i hv
          rw [hv]
          exact Memory.read_below (Nat.le_refl _) h.2
        · simp [Memory.read]
      · rename_i h1 h2
        split
        · rename_i hv
          rw [hv]
          unfold Memory.read
          rw [if_neg h2]
          exact Memory.read_below (by omega) h.2
        · simp [Memory.read]

/-- Reading any other address gives what it gave before. -/
theorem Memory.read_write_other {m : Memory} {a c : Nat} (v : Byte) (hne : c ≠ a) : (m.write a v).read c = m.read c := by
  induction m with
  | nil =>
    unfold Memory.write
    split
    · rfl
    · simp [Memory.read, Ne.symm hne]
  | cons e rest ih =>
    obtain ⟨k, w⟩ := e
    unfold Memory.write
    split
    · simp [Memory.read, ih]
    · split
      · rename_i hk
        subst hk
        split <;> simp [Memory.read, Ne.symm hne]
      · split
        · rfl
        · simp [Memory.read, Ne.symm hne]

/-- A word write leaves every byte outside its two. -/
theorem Memory.read_writeWord_other {m : Memory} {a c : Nat} (w : Word) (h1 : c ≠ a) (h2 : c ≠ a + 1) :
    (m.writeWord a w).read c = m.read c := by
  unfold Memory.writeWord
  rw [Memory.read_write_other _ h2, Memory.read_write_other _ h1]

/-- The bytes of a word give the word back. -/
theorem wordOf_lowByte_highByte (w : Word) : wordOf (lowByte w) (highByte w) = w := by
  unfold wordOf lowByte highByte
  ext i hi
  simp
  by_cases h : i < 8
  · simp [h, BitVec.getLsbD_eq_getElem hi]
  · have hs : 8 + (i - 8) = i := by omega
    have hl : i - 8 < 8 := by omega
    simp [h, hs, hl, BitVec.getLsbD_eq_getElem hi]

/-- Reading the word written gives it back. -/
theorem Memory.readWord_writeWord_same {m : Memory} (a : Nat) (w : Word) (h : m.wf = true) :
    (m.writeWord a w).readWord a = w := by
  unfold Memory.readWord Memory.writeWord
  rw [Memory.read_write_same _ _ (Memory.wf_write _ _ h), Memory.read_write_other _ (by omega),
    Memory.read_write_same _ _ h, wordOf_lowByte_highByte]

end Sys2Proof.Machine
end

