-- ==== Sys2Proof/WellFormed.lean ====
section
/-! DEFINITION. Well-formed commands. Object indices and ports are closed types, so two things can be out of form: a reception
without bytes or with more bytes than the longest frame holds, and a register access under the name of a row whose register
its offset does not reach. -/

namespace Sys2Proof

/-- Bytes of the longest frame, an INCIDENT frame (R184). -/
def longestFrame : Nat := 15

/-- The offset reaches the register at this offset of the table of R184: HA1-HA3 choose it. -/
def reachesRegister (o : Offset) (register : Nat) : Bool := o.toNat % 16 / 2 * 2 == register

/-- The offset reaches a register that is only read, or the empty position (R10, R184). -/
def reachesReadOnly (o : Offset) : Bool :=
  reachesRegister o 0x0 || reachesRegister o 0x4 || reachesRegister o 0xA || reachesRegister o 0xC || reachesRegister o 0xE

/-- A command is well formed when a reception carries at least one byte (a frame starts with its first byte, R168) and at most
as many as the longest frame holds (R184), and when a register access reaches the register of its row: SECONDS LOW, ATTENTION,
ATTENTION MASK, CONTROL with SOFT RESET set or clear, or one that is only read. IDENT_READ stands for every read but that of
SECONDS LOW (log entry 27). Every other command is well formed. -/
def Instr.wellFormed (i : Instr) : Bool :=
  match i with
  | .frameReceive _ bytes => !bytes.isEmpty && decide (bytes.length ≤ longestFrame)
  | .identRead o => !reachesRegister o 0xA
  | .secondsLowRead o => reachesRegister o 0xA
  | .start v o => reachesRegister o 0x2 && !v.getLsbD 1
  | .softReset v o => reachesRegister o 0x2 && v.getLsbD 1
  | .attentionClear _ o => reachesRegister o 0x6
  | .attentionMaskWrite _ o => reachesRegister o 0x8
  | .registerWriteDiscarded _ o => reachesReadOnly o
  | _ => true

end Sys2Proof
end

