-- ==== Sys2Proof/Tests/Slice0.lean ====
section
/-! SUPPORT. Checks of our own work: ill-formed commands that the check refuses; for each statement with hypotheses a theorem
`test_hyp_…` with concrete states and operands that meet them, clause by clause at the ends of their ranges; and small steps
with the values the manual gives. -/

namespace Sys2Proof.Tests

open Sys2Proof Sys2Proof.Machine

set_option synthInstance.maxSize 1000
set_option Elab.async false

/-! ## Small states -/

/-- The part in RUNNING at tick 10000, second 10, with the next second due at tick 20000 and no gate counted out. -/
def live : State :=
  { State.reset with
    now := 10000, secondsDue := 20000, regs := { Registers.reset with runState := .running, seconds := 10 }
    gates := Vector.replicate 4 { Gate.reset with remaining := 1 }, link := { LinkUnit.reset with relay := true } }

/-- A card with its first five words. -/
def cardOf (w0 target a0 a1 a2 : Word) : Card := { words := #v[w0, target, a0, a1, a2, 0, 0, 0, 0, 0, 0, 0, 0, 0, 0, 0] }

/-- The take of a card of deck 0, not yet answered. -/
def takeOf (c : Card) : Take := { deck := 0, card := c, answer := none }

/-- The state with a card dispatched. -/
def holding (s : State) (c : Card) : State := { s with executor := some (takeOf c) }

/-- A card held by a part in RUNNING has been dispatched by its kind. -/
theorem held {s : State} {c : Card} {k : CardKind} (hr : s.running = true) (hk : c.kind = some k) :
    (holding s c).dispatched (takeOf c) k := ⟨hr, rfl, rfl, hk⟩

/-- The live part with fan 0 as given. -/
def fanState (e : Fan) : State := { live with fans := { FanUnit.reset with fans := FanUnit.reset.fans.set 0 e } }

/-- The live part with door 0 as given. -/
def doorState (e : Door) : State := { live with doors := { DoorUnit.reset with doors := DoorUnit.reset.doors.set 0 e } }

/-- The live part with channel 0 as given. -/
def channelState (c : Channel) : State := { live with channels := live.channels.set 0 c }

/-- The live part with zone 0 as given. -/
def zoneState (z : Zone) : State := { live with zones := live.zones.set 0 z }

/-- The live part with deck 0 as given. -/
def deckState (d : Deck) : State := { live with decks := live.decks.set 0 d }

/-- The live part with a record in slot 0. -/
def incidentState (r : Incident) : State := { live with incidents := { IncidentUnit.reset with slots := #v[some r, none, none, none] } }

/-- The live part with both ports enabled and the UP port as given. -/
def portState (p : PortState) : State :=
  { live with active := { live.active with link := { upEnabled := true, downEnabled := true } }, link := { live.link with up := p } }

/-- The state with changes of one contact input delivered. -/
def changed (s : State) (i : Fin 36) (level : Bool) : State :=
  { s with mail := { s.mail with contactChanges := s.mail.contactChanges.set i [level] } }

/-- What a command leaves, seen through `f`. -/
def after {α : Type} (c : Instr) (s : State) (f : State → α) : Option α :=
  match exec c s with
  | .next t => some (f t)
  | _ => none

/-- What a step leaves, seen through `f`. -/
def stepped {α : Type} (s : State) (f : State → α) : Option α :=
  match step s with
  | .next t => some (f t)
  | _ => none

/-! ## Well-formed commands -/

/-- A reception without bytes and one longer than the longest frame are refused; so is a register access under the name of a row
whose register its offset does not reach. Their neighbours are well formed. -/
theorem test_wellFormed :
    ([.frameReceive .up [], .frameReceive .down (List.replicate 16 0), .identRead 0x000B, .secondsLowRead 0x0008, .start 2 0x0002,
      .start 1 0x0004, .softReset 1 0x0002, .softReset 2 0x0006, .attentionClear 1 0x0008, .attentionMaskWrite 1 0x0006,
      .registerWriteDiscarded 0 0x0002, .registerWriteDiscarded 0 0x0006] : List Instr).all (fun c => !c.wellFormed) = true ∧
    ([.frameReceive .down (List.replicate 15 0), .frameReceive .up [0x7E], .identRead 0x0000, .identRead 0x7FFF,
      .secondsLowRead 0x001B, .start 0xFFFD 0x0012, .softReset 0xFFFF 0x0003, .attentionClear 1 0x0006, .attentionMaskWrite 1 0x7FF8,
      .registerWriteDiscarded 0 0x000E, .registerWriteDiscarded 0 0x000A, .markCard] : List Instr).all Instr.wellFormed = true := by
  decide

/-- No row of the table gives bits, so no word spells a command. -/
theorem test_decode : decodeTableWord 16 0 = none ∧ State.reset.withFetchWord 16 0 = State.reset := ⟨rfl, rfl⟩

/-! ## The queue and time -/

theorem test_hyp_StepTakesTheFrontCommand : ({ State.reset with pending := [.markCard] } : State).pending = .markCard :: [] := rfl

/-- The live part with samples of its tick still to come: contact 0, a FAST counter with three left and a SLOW one. -/
def sampling : State :=
  { live with
    contacts := live.contacts.set 0 { Contact.reset with pin := true, debounceMs := 0, due := true }
    measured := (live.measured.set 0 { Pulse.reset with filter := .fast, binding := .bound 1, pin := true, left := 3 }).set 1
      { Pulse.reset with filter := .slow, binding := .bound 1, pin := true, left := 8 }
    gates := live.gates.set 0 { Gate.reset with remaining := 2, windowStart := 9000, tick := .ms1 } }

theorem test_hyp_EmptyQueueTakesAReadyEventElseATick :
    live.pending = [] ∧ live.readyEvent = none ∧ live.running = true ∧ live.samplesDue = false ∧
    sampling.pending = [] ∧ sampling.readyEvent = none ∧ sampling.running = true ∧ sampling.contacts[(0 : Fin 36)].due = true ∧
    sampling.measured[(0 : Fin 12)].left = 3 ∧ sampling.measured[(1 : Fin 12)].left = 8 ∧
    State.reset.pending = [] ∧ State.reset.readyEvent = none ∧ State.reset.running = false ∧
    ({ live with secondsDue := 10000 } : State).readyEvent = some .secondsIncrement := by decide +kernel

/-- The same part has a FAST and a SLOW input with a sample to come. -/
theorem test_hyp_sampleDue : sampling.measured[(0 : Fin 12)].SampleDue ∧ sampling.measured[(1 : Fin 12)].SampleDue ∧
    ¬Pulse.reset.SampleDue := by
  unfold Pulse.SampleDue Pulse.SampledAs
  decide

/-- The samples of the tick: the contact is confirmed and delivered, FAST takes the level in three samples, SLOW needs another
tick; only then does the tick pass and the gate fall. -/
theorem test_samples :
    stepped sampling (fun t => (t.now, t.mail.contactChanges[0], t.measured[0].count, t.measured[0].left, t.measured[1].count)) =
      some (10000, [true], 1, 0, 0) ∧
    stepped { live with measured := sampling.measured.set 0 Pulse.reset |>.set 1 { sampling.measured[1] with left := 7 }, gates := sampling.gates }
      (fun t => (t.now, t.contacts[0].due, t.measured[1].left, t.gates[0].remaining, t.periodDue)) = some (10001, true, 8, 1, true) := by
  decide +kernel

theorem test_hyp_EveryCommandHasANextStateAndEarlyEventsChangeNothing : .markCard ∈ ownEvents ∧ State.reset.ready .markCard = false := by decide +kernel

/-- A tick outside RUNNING, and the second that is due in RUNNING. -/
theorem test_step_idle :
    stepped State.reset (fun t => (t.now, t == { State.reset with now := 1 })) = some (1, true) ∧
    stepped { live with secondsDue := 10000 } (fun t => (t.now, t.secondsDue, t.regs.seconds)) = some (10000, 11000, 11) := by
  decide +kernel

/-! ## The common memory and the registers -/

/-- A part whose record latch holds channel record 0. -/
def latched : State :=
  { live with cm := { live.cm with latch := some { record := .channel 0, words := [0, 0x1234] }, bytes := [⟨0x1000, 0x34⟩] } }

theorem test_hyp_HostMemoryReadReturnsTheLiveOrLatchedWord :
    latched.resetAsserted = false ∧
    [0x0000, 0x07FF, 0x0800, 0x083E, 0x0840, 0x084F, 0x1001, 0x7FFF].map (fun n => wordOffset (BitVec.ofNat 15 n)) =
      [0x0000, 0x07FE, 0x0800, 0x083E, 0x0840, 0x084E, 0x1000, 0x7FFE] ∧
    [0x0850, 0x0852, 0x0CDE, 0x0CE0, 0x0FFE].map recordAt =
      [some (.channel 0, 0), some (.channel 0, 1), some (.placement, 31), none, none] ∧
    [0x09CE, 0x0ACE, 0x0B0E, 0x0B8E, 0x0C0E, 0x0C2E, 0x0C4E, 0x0C8E, 0x0C9E].map recordAt =
      [some (.channel 11, 15), some (.fan 7, 15), some (.door 3, 7), some (.zone 7, 7), some (.incident 3, 15), some (.link .up, 15),
        some (.link .down, 15), some (.span, 31), some (.gallery, 7)] ∧
    latched.running = true ∧ State.reset.running = false ∧ latched.cm.latch = some { record := .channel 0, words := [0, 0x1234] } ∧
    recordAt 0x0872 = some (.channel 1, 1) ∧ RecordId.channel 0 ≠ .channel 1 := by decide +kernel

/-- The latched word, a live word of another record, and a general word. -/
theorem test_host_read :
    after (.hostMemoryRead 0x0853) latched (fun t => (t.hd, t.cm.latch.isSome)) = some (0x1234, true) ∧
    after (.hostMemoryRead 0x1000) latched (fun t => (t.hd, t.cm.latch.isSome)) = some (0x0034, false) := by decide +kernel

theorem test_hyp_HostMemoryWriteActsByRegion :
    live.resetAsserted = false ∧ live.cm.bytes.wf = true ∧ live.running = true ∧ State.reset.running = false ∧
    [0x07FF, 0x0800, 0x083F, 0x0840, 0x084F, 0x0850, 0x0FFF, 0x1000].map (fun n => wordOffset (BitVec.ofNat 15 n)) =
      [0x07FE, 0x0800, 0x083E, 0x0840, 0x084E, 0x0850, 0x0FFE, 0x1000] ∧
    [0x0800, 0x0802, 0x0804, 0x0806, 0x0808, 0x080E].map (fun a => (a - 0x0800) % 16 / 2) = [0, 1, 2, 3, 4, 7] ∧
    [0x0800, 0x083E].map headerDeck = [0, 3] ∧ [0x0840, 0x084E].map maskIndex = [0, 7] ∧
    live.decks[(0 : Fin 4)].state = .off ∧ (deckState { Deck.reset with state := .waiting }).decks[(0 : Fin 4)].state ≠ .off := by
  decide +kernel

/-- A general word, the control word of deck 3, a header word that is discarded, and a change mask. -/
theorem test_host_write :
    after (.hostMemoryWrite 0x7FFE 0x1234) live (fun t => t.cm.bytes) = some [⟨0x7FFE, 0x34⟩, ⟨0x7FFF, 0x12⟩] ∧
    after (.hostMemoryWrite 0x0834 1) live (fun t => t.mail.deckEvents[3]) = some [.control 1] ∧
    after (.hostMemoryWrite 0x0808 1) live (fun t => t.regs.attention) = some 0x0020 ∧
    after (.hostMemoryWrite 0x0840 1) { live with cm := { live.cm with masks := Vector.replicate 8 3 } } (fun t => t.cm.masks[0]) =
      some 2 := by decide +kernel

/-- Every register position, at its own offset and at repeats of it (HA4-HA14 are not decoded). -/
theorem test_hyp_RegistersAreReadAndWritten :
    State.reset.resetAsserted = false ∧ ({ State.reset with resetAsserted := true } : State).resetAsserted = true ∧
    ([0x0000, 0x0001, 0x0002, 0x0004, 0x0006, 0x0008, 0x000A, 0x000C, 0x000E, 0x0010, 0x7FFF] : List Offset).map (fun o => o.toNat % 16 / 2) =
      [0, 0, 1, 2, 3, 4, 5, 6, 7, 0, 7] := by decide

/-- IDENT in turn, the other registers as they read, and the empty position; ATTENTION cleared by ones; the mask keeps seven
bits; a write to a register that is only read sets ACCESS. -/
theorem test_registers :
    after (.identRead 0) State.reset (·.hd) = some 0x6A16 ∧
    after (.identRead 0x0010) { State.reset with regs := { Registers.reset with identNext := true } } (fun t => (t.hd, t.regs.identNext)) =
      some (0x0002, false) ∧
    ([0x0002, 0x0004, 0x0006, 0x0008, 0x000C, 0x000E] : List Offset).map (fun o => after (.identRead o) { State.reset with regs := {
      Registers.reset with
      runState := .configFault, failClass := 5, failIndex := 7, failReason := some .reference, attention := 0x41, attentionMask := 0x7F
      secondsHigh := 9 } } (fun t => (t.hd, t.regs.identNext))) =
      [some (0, false), some (0x3753, false), some (0x41, false), some (0x7F, false), some (9, false), some (0, false)] ∧
    after (.attentionClear 5 6) { State.reset with regs := { Registers.reset with attention := 0x7F } } (·.regs.attention) = some 0x7A ∧
    after (.attentionMaskWrite 0xFFFF 8) State.reset (·.regs.attentionMask) = some 0x7F ∧
    after (.registerWriteDiscarded 1 0) State.reset (·.regs.attention) = some 0x20 := by decide +kernel

theorem test_hyp_SecondsCountAndAreReadInOnePiece :
    live.resetAsserted = false ∧ live.running = true ∧ live.now < live.secondsDue ∧
    ({ live with secondsDue := 10000 } : State).secondsDue ≤ ({ live with secondsDue := 10000 } : State).now := by decide

/-- A read of SECONDS LOW holds the high half for SECONDS HIGH. -/
theorem test_seconds :
    after (.secondsLowRead 0xA) { live with regs := { live.regs with seconds := 0x00012345 } } (fun t => (t.hd, t.regs.secondsHigh)) =
      some (0x2345, 1) := by decide +kernel

theorem test_hyp_StartAndResetsMoveTheRunState :
    State.reset.resetAsserted = false ∧ State.reset.regs.runState = .halted ∧ live.regs.runState = .running ∧
    (2 : Offset).toNat % 16 / 2 = 1 ∧ (1 : Word).getLsbD 0 = true ∧ (1 : Word).getLsbD 1 = false ∧ (2 : Word).getLsbD 1 = true ∧
    (4 : Word).getLsbD 0 = false ∧
    ({ State.reset with regs := { Registers.reset with runState := .configFault } } : State).regs.runState = .configFault ∧
    ({ State.reset with regs := { Registers.reset with runState := .starting } } : State).regs.runState = .starting ∧
    (∀ i : Fin 36, State.reset.contacts[i].pin = false) ∧ (∀ i : Fin 12, State.reset.measured[i].pin = false) ∧
    ∀ i : Fin 8, State.reset.tach[i].pin = false := by decide +kernel

/-- START in HALTED and in RUNNING; CONTROL with no bit set, and with both; a soft reset keeps the general area. -/
theorem test_run_state :
    after (.start 1 2) State.reset (·.regs.runState) = some .starting ∧ after (.start 1 2) live (·.regs.runState) = some .running ∧
    after (.start 0 2) State.reset (·.regs.runState) = some .halted ∧ after (.softReset 3 2) live (·.regs.runState) = some .halted ∧
    after (.softReset 2 2) latched (fun t => (t.regs.runState, t.cm.bytes)) = some (.halted, [⟨0x1000, 0x34⟩]) ∧
    after .powerOnReset latched (fun t => (t.resetAsserted, t.cm.bytes)) = some (true, []) := by decide +kernel

/-- The start-up machinery at one item. -/
def startingAt (n : Nat) : State := { State.reset with regs := { Registers.reset with runState := .starting, nextItem := n } }

theorem test_hyp_ItemsAreValidatedAndThePartEntersRunning :
    (∀ n : Fin 47, (startItem n.val).isSome = true) ∧
    (startingAt 0).validating = true ∧ startItem 0 = some .span ∧
    ((itemChecks (startingAt 0).candidate .span (itemField [] .span)).find? fun c => !c.ok).isSome = true ∧
    (startingAt 38).validating = true ∧ startItem 38 = some (.template 0) ∧ 38 + 1 < 47 ∧
    (∀ c ∈ itemChecks (startingAt 38).candidate (.template 0) (itemField [] (.template 0)), c.ok = true) ∧
    (startingAt 46).validating = true ∧ startItem 46 = some .link ∧
    (∀ c ∈ itemChecks (startingAt 46).candidate .link (itemField [] .link), c.ok = true) := by decide +kernel

/-- The span item of zeros fails with RANGE; the last item takes the part to RUNNING. -/
theorem test_item_validation :
    after .itemValidation (startingAt 0) (fun t => (t.regs.runState, t.regs.failReason)) = some (.configFault, some .range) ∧
    after .itemValidation (startingAt 46) (fun t => (t.regs.runState, t.link.relay, t.regs.attention)) =
      some (.running, true, 0x0044) := by decide +kernel

/-- The checks of a zone, a fan and a door whose niche is 8, 7 and 2 in a span of two niches fail RANGE, REFERENCE and
REFERENCE; the zone's second niche below its first fails ORDER too. -/
theorem test_niche_reasons :
    let cfg : ActiveConfig := { live.active with span := { live.active.span with nicheCount := 2 } }
    let reasons (r : ItemRef) (w : Nat → Word) (k : Nat) : List ValReason :=
      ((itemChecks cfg r w).filter fun c => !c.ok && decide (c.field = k)).map (·.reason)
    let words (n m : Word) : Nat → Word := fun k => if k = 0 then n else if k = 1 then m else 0
    [8, 7, 2, 1].map (fun n : Word => reasons (.door 0) (words n 0) 0) = [[.range, .reference], [.reference], [.reference], []] ∧
    [8, 2, 1].map (fun n : Word => reasons (.fan 0) (words 0 n) 1) = [[.range, .reference], [.reference], []] ∧
    reasons (.zone 0) (words 9 8) 1 = [.range, .reference, .order] ∧ reasons (.span) (fun k => if k = 3 then 8 else 1) 3 = [.range, .reference] := by
  decide +kernel

/-- A record whose band changed has its sequence incremented and its bit and CHANGE set; one that stays keeps both. -/
theorem test_publish :
    let t := publish live (channelState { Channel.reset with band := .warn })
    t.cm.sequences[(RecordId.channel 0).place] = 1 ∧ t.cm.sequences[(RecordId.channel 1).place] = 0 ∧ t.cm.masks[0] = 1 ∧
    t.regs.attention = 0x0004 := by decide +kernel

theorem test_hyp_TheImageRecordsShowTheBlocks : State.reset.running = false ∧ live.running = true := by decide

/-! ## Work decks and cards -/

/-- A deck laid out at 0x1000 with four slots, one card posted. -/
def posted : Deck :=
  { Deck.reset with state := .waiting, seenEnable := true, baseWord := 0x1000, lengthWord := 4, base := 0x1000, length := 4, accepted := 1 }

/-- Deck 0 with an event waiting. -/
def deckWith (d : Deck) (e : DeckEvent) : State := { deckState d with mail := { Mail.empty with deckEvents := Mail.empty.deckEvents.set 0 [e] } }

/-- The clauses meet at: enable with a layout that is good (the shortest deck at the start of the general area, and the last
place) or not; disable; suspend and resume; and no change. -/
theorem test_hyp_ControlEventActsOnTheChangeItShows :
    live.running = true ∧ (deckWith posted (.control 1)).mail.deckEvents[(0 : Fin 4)] = .control 1 :: [] ∧ posted.finishing = none ∧
    [((0x1000 : Word), (2 : Word)), (0x7FC0, 2), (0x6000, 256), (0x0FE0, 2), (0x1000, 1), (0x1000, 257), (0x1010, 2), (0x7FE0, 2)].map
      (fun w => (deckWith { Deck.reset with baseWord := w.1, lengthWord := w.2 } (.control 1)).deckValid 0) =
      [true, true, true, false, false, false, false, false] ∧
    (1 : Word).getLsbD 0 = true ∧ (0 : Word).getLsbD 0 = false ∧ (3 : Word).getLsbD 1 = true ∧ (1 : Word).getLsbD 1 = false ∧
    Deck.reset.seenEnable = false ∧ posted.seenEnable = true ∧ posted.seenSuspend = false ∧
    ({ posted with seenSuspend := true } : Deck).seenSuspend = true := by decide +kernel

/-- The first of these layouts, and the first that fails, by the four checks of R22. -/
theorem test_layout : (deckWith { Deck.reset with baseWord := 0x1000, lengthWord := 2 } (.control 1)).layoutValid 0 ∧
    ¬(deckWith { Deck.reset with baseWord := 0x0FE0, lengthWord := 2 } (.control 1)).layoutValid 0 := by
  refine ⟨⟨by decide, by decide, by decide, by decide, by decide, by decide, fun k hk ho => absurd ?_ ho⟩, fun h => absurd h.2.2.1 (by decide)⟩
  revert k
  decide +kernel

/-- A control event: enabled, suspended, disabled, and a bad header. -/
theorem test_control :
    after (.controlEvent 0) (deckWith { Deck.reset with baseWord := 0x1000, lengthWord := 2 } (.control 1)) (fun t => t.decks[0].state) =
      some .waiting ∧
    after (.controlEvent 0) (deckWith posted (.control 3)) (fun t => t.decks[0].state) = some .suspended ∧
    after (.controlEvent 0) (deckWith posted (.control 0)) (fun t => t.decks[0].state) = some .off ∧
    after (.controlEvent 0) (deckWith { Deck.reset with lengthWord := 2 } (.control 1)) (fun t => (t.decks[0].error, t.regs.has .deck)) =
      some (.header, true) := by decide +kernel

/-- A post event: in OFF, at the length, one below it, and back. -/
theorem test_hyp_PostEventIsIgnoredAcceptedOrStopsTheDeck :
    live.running = true ∧ (deckWith posted (.post 4)).mail.deckEvents[(0 : Fin 4)] = .post 4 :: [] ∧ posted.finishing = none ∧
    after (.postEvent 0) (deckWith Deck.reset (.post 1)) (fun t => t.decks[0]) = some Deck.reset ∧
    after (.postEvent 0) (deckWith posted (.post 4)) (fun t => t.decks[0].error) = some .postRange ∧
    after (.postEvent 0) (deckWith posted (.post 3)) (fun t => t.decks[0].accepted) = some 3 ∧
    after (.postEvent 0) (deckWith posted (.post 0)) (fun t => t.decks[0].error) = some .postWithdraw := by decide +kernel

/-- Decks 0 and 2 ready; and decks 1 and 2 ready. -/
def readyDecks (a b : Fin 4) (fair : Bool) : State :=
  { live with
    decks := (live.decks.set a posted).set b { posted with base := 0x2000 }
    active := { live.active with span := { live.active.span with fair := fair } } }

theorem test_hyp_TheDeckInTurnIsGrantedAndItsCardTaken :
    live.running = true ∧ (holding live (cardOf 1 0 0 0 0)).executor.isSome = true ∧
    (∀ d : Fin 4, live.decks[d].ready = false) ∧ (readyDecks 0 2 false).executor = none ∧
    (∃ d : Fin 4, (readyDecks 0 2 false).decks[d].ready = true) ∧
    (readyDecks 0 2 false).inTurn 0 ∧ (readyDecks 1 2 false).inTurn 1 ∧ (readyDecks 1 2 true).inTurn 1 ∧
    ({ readyDecks 1 2 true with lastGranted := 1 } : State).inTurn 2 := by
  refine ⟨by decide, by decide, by decide +kernel, by decide, ⟨0, by decide +kernel⟩, ?_, ?_, ?_, ?_⟩ <;>
    (unfold State.inTurn turnAfter; decide +kernel)

/-- The deck granted, with FAIR set after deck 1; an unknown kind is answered at the take. -/
theorem test_take :
    after .cardTake { readyDecks 1 2 true with lastGranted := 1 } (fun t => (t.decks[2].state, t.decks[2].taken, t.lastGranted)) =
      some (.running, 0x2000, 2) ∧
    after .cardTake (readyDecks 0 2 false) (fun t => t.executor.bind (·.answer)) = some (some (.refuse .badKind)) := by decide +kernel

/-- Deck 0 with a card in flight at slot 0. -/
def flying (c : Card) (deadline : Option Nat) : State :=
  deckState { posted with state := .running, taken := 0x1000, inFlight := some { slot := 0, card := c, deadline := deadline } }

/-- DONE with zeros. -/
def plain : Answer := { outcome := .done, reason := .none, results := .words 0 0 0 0, condition := none }

/-- A card of deck 0 in flight, answered DONE at the executor. -/
def answered (c : Card) : State := { flying c none with executor := some { takeOf c with answer := some plain } }

/-- Deck 0 between the two accesses of a completion that freed no executor, with a control and a post event behind it. -/
def between : Deck := { posted with state := .suspendPending, taken := 0x1000, finishing := some { slot := 3, notify := true, immediate := false } }

theorem test_hyp_CompletionsAndDeadlinesWriteTheCardAndTheHeader :
    live.running = true ∧ live.cm.bytes.wf = true ∧ (flying (cardOf 1 0 0 0 0) none).decks[(0 : Fin 4)].finishing = none ∧
    (answered (cardOf 1 0 0 0 0)).immediateFor 0 plain ∧ { live with executor := (answered (cardOf 1 0 0 0 0)).executor }.immediateFor 0 plain ∧
    { live with mail := { Mail.empty with completions := Mail.empty.completions.set 0 (some plain) } }.sentFor 0 plain ∧
    live.decks[(0 : Fin 4)].inFlight = none ∧
    (deckState between).decks[(0 : Fin 4)].finishing = some { slot := 3, notify := true, immediate := false } ∧ between.inFlight = none ∧
    (∀ due ∈ [10000, 10001], (flying (cardOf 7 0 0 0 0) (some due)).decks[(0 : Fin 4)].inFlight =
      some { slot := 0, card := cardOf 7 0 0 0 0, deadline := some due }) ∧
    live.now = 10000 ∧ (cardOf 0x0207 7 0 0 0).kind = some .fanRequest ∧ (cardOf 0x0207 7 0 0 0).target = BitVec.ofNat 16 (7 : Fin 8).val ∧
    (cardOf 4 0 0 0 0).kind ≠ some .fanRequest := by
  refine ⟨rfl, rfl, rfl, ⟨_, rfl, rfl, rfl⟩, ⟨_, rfl, rfl, rfl⟩, ⟨nofun, rfl⟩, ?_⟩
  decide +kernel

/-- The card write of a completion and then its header write, with NOTIFY; a control event waits between them; and a deadline in
its tick and one tick before it. -/
theorem test_completion :
    after (.cardCompletion 0) (answered (cardOf 0x0101 0 0 0 0))
      (fun t => (t.cm.bytes.readWord 0x100E, t.cm.bytes.readWord 0x101C, t.decks[0].done, t.regs.has .notify, t.executor.isSome)) =
      some (0x0001, 10, 0, false, true) ∧
    (after (.cardCompletion 0) (answered (cardOf 0x0101 0 0 0 0)) id).bind (fun t => after (.cardCompletion 0) t
      (fun t => (t.decks[0].done, t.decks[0].state, t.decks[0].finishing, t.regs.has .notify, t.executor))) =
      some (1, .waiting, none, true, none) ∧
    after (.controlEvent 0) (deckWith between (.control 0)) (fun t => t.decks[0].state) = some .suspendPending ∧
    after (.cardCompletion 0) (deckWith between (.control 0)) (fun t => (t.decks[0].state, t.decks[0].done)) = some (.suspended, 0) ∧
    after (.deadlineExpiry 0) (flying (cardOf 0x0204 0 0 0 0) (some 10000)) (fun t => t.cm.bytes.readWord 0x100E) = some 0x0005 ∧
    after (.deadlineExpiry 0) (flying (cardOf 0x0204 0 0 0 0) (some 10001)) (fun t => t.decks[0].inFlight.isSome) = some true := by
  decide +kernel

theorem test_hyp_MarkIsAnsweredDoneAtOnce : (holding live (cardOf 0x0601 9 9 9 9)).dispatched (takeOf (cardOf 0x0601 9 9 9 9)) .mark :=
  held rfl rfl

/-- A LOAD of an item with these staged words. -/
def loading (s : State) (r : ItemRef) (words : List Word) : State :=
  { holding s (cardOf 2 (packed r.classNo r.index) 0 0 0) with cm := { s.cm with bytes := s.cm.bytes.writeWords r.address words } }

theorem test_hyp_LoadIsDecidedInOrder :
    (loading live (.gate 3) [3, 1]).dispatched (takeOf (cardOf 2 0x0301 0 0 0)) .load ∧
    (∀ r : ItemRef, ¬(r.classNo = 9 ∧ r.index = 0)) ∧ (∀ r : ItemRef, ¬(r.classNo = 1 ∧ r.index = 4)) ∧
    ItemRef.span.classNo = 0 ∧ (ItemRef.gate 3).classNo = 1 ∧ (ItemRef.gate 3).index = 3 ∧
    (∀ z : Fin 8, live.mail.requests[z] = none) ∧
    (zoneState { Zone.reset with state := .held }).loadAllowed (.zone 0) = false ∧ live.loadAllowed (.zone 0) = true ∧
    ((itemChecks live.active (.gate 3) (itemField [] (.gate 3))).find? fun c => !c.ok).isSome = true ∧
    (∀ c ∈ itemChecks live.active (.gate 3) (itemField (loading live (.gate 3) [3, 1]).cm.bytes (.gate 3)) ++
      namedByChecks live.active (.gate 3) (itemField (loading live (.gate 3) [3, 1]).cm.bytes (.gate 3)), c.ok = true) := by
  refine ⟨⟨rfl, rfl, rfl, rfl⟩, ?_, ?_, ?_⟩
  · intro r; cases r <;> simp [ItemRef.classNo]
  · intro r; cases r <;> simp [ItemRef.classNo, ItemRef.index]; omega
  · decide +kernel

/-- MARK; LOAD of no item, of the span item, of a gate with a reload of 0, and of a good gate. -/
theorem test_mark_and_load :
    after .markCard (holding live (cardOf 0x0601 9 9 9 9)) (fun t => t.executor.bind (·.answer)) = some (some plain) ∧
    after .loadCard (holding live (cardOf 2 0x0401 0 0 0)) (fun t => t.executor.bind (·.answer)) = some (some (.refuse .badTarget)) ∧
    after .loadCard (loading live .span []) (fun t => t.executor.bind (·.answer)) = some (some (.refuse .notPermitted)) ∧
    after .loadCard (loading live (.gate 3) []) (fun t => t.executor.bind (·.answer.map (·.results))) =
      some (some (.words 1 1 0xFFFF 0xFFFF)) ∧
    after .loadCard (loading live (.gate 3) [3, 1]) (fun t => (t.gates[3].pending, t.executor.bind (·.answer.map (·.results)))) =
      some (some { tick := .s1, reload := 1 }, some (.words 1 3 0 0)) := by decide +kernel

/-! ## Inputs, counters and gate timers -/

/-- Contact 0 with a debounce time of 16 ms, its candidate as given; and with none. -/
def contactState (c : Contact) : State := { live with contacts := live.contacts.set 0 c }

/-- The sample of the tick to come or taken; level kept; a first sample with and without a debounce time; the sample at the
debounce time and the one before it. -/
theorem test_hyp_ContactChangesAreConfirmedAfterTheDebounceTime :
    State.reset.running = false ∧ live.running = true ∧ Contact.reset.due = false ∧
    (false != false) = Contact.reset.level ∧ (true != false) ≠ Contact.reset.level ∧ Contact.reset.candidate = none ∧
    ({ Contact.reset with debounceMs := 0, due := true } : Contact).due = true ∧
    ({ Contact.reset with debounceMs := 0 } : Contact).debounceMs = 0 ∧ Contact.reset.debounceMs ≠ 0 ∧ 9984 + 16 ≤ live.now ∧
    live.now < 9985 + 16 ∧
    [true, false].map (fun due => after (.contactConfirm 0 true) (contactState { Contact.reset with debounceMs := 0, due := due })
      (fun t => (t.mail.contactChanges[0], t.contacts[0].pin))) = [some ([true], true), some ([], true)] ∧
    ([(true, none), (true, some 9984), (true, some 9985), (false, some 9985)] : List (Bool × Option Nat)).map (fun x =>
      after (.contactConfirm 0 x.1) (contactState { Contact.reset with candidate := x.2, due := true })
        (fun t => (t.contacts[0].level, t.contacts[0].candidate))) =
      [some (false, some 10000), some (true, none), some (false, some 9985), some (false, none)] := by decide +kernel

/-- Counter 0 as given. -/
def pulseState (p : Pulse) : State := { live with measured := live.measured.set 0 p }

/-- A rise with filter OFF, on a counter at its limit and on one bound to no gate; FAST with one sample to come that is the first
or the second at the level; SLOW before and after the sample of its tick. -/
theorem test_hyp_PulsesAreFilteredAndCounted :
    live.running = true ∧ State.reset.running = false ∧ ({ Pulse.reset with filter := .off } : Pulse).filter = .off ∧ Pulse.reset.filter ≠ .off ∧
    Pulse.reset.level = some false ∧ ({ Pulse.reset with level := none } : Pulse).level = none ∧
    [(Binding.bound 0, 0), (.bound 0, 65535), (.none, 0)].map (fun x => after (.pulseCount (.mp 0) true)
      (pulseState { Pulse.reset with filter := .off, binding := x.1, count := x.2 }) (fun t => t.measured[0].count)) =
      [some 1, some 65535, some 0] ∧
    [false, true].map (fun last => after (.pulseCount (.mp 0) true)
      (pulseState { Pulse.reset with filter := .fast, binding := .pending 1, lastSample := last, left := 1 })
      (fun t => (t.measured[0].count, t.measured[0].lastSample, t.measured[0].left))) = [some (0, true, 0), some (1, true, 0)] ∧
    [8, 7].map (fun left => after (.pulseCount (.mp 0) true)
      (pulseState { Pulse.reset with filter := .slow, binding := .bound 1, lastSample := true, left := left })
      (fun t => (t.measured[0].count, t.measured[0].left))) = [some (1, 7), some (0, 7)] ∧
    after (.pulseCount (.tp 7) true) live (fun t => (t.tach[7].pin, t.tach[7].lastSample)) = some (true, false) := by decide +kernel

/-- A FAST and a SLOW input with a sample to come, and one with none. -/
theorem test_hyp_PulsesAreFilteredAndCounted_due :
    ({ Pulse.reset with filter := .fast, left := 1 } : Pulse).SampleDue ∧ ({ Pulse.reset with filter := .slow, left := 8 } : Pulse).SampleDue ∧
    ¬({ Pulse.reset with filter := .slow, left := 7 } : Pulse).SampleDue ∧ ¬({ Pulse.reset with filter := .fast, left := 0 } : Pulse).SampleDue := by
  unfold Pulse.SampleDue Pulse.SampledAs
  decide

/-- To OFF a rise before the next sample is no pulse and a rise after it is one; from OFF a rise before it is one and a rise after
it, at the level that it took, is none (log 56). -/
theorem test_filter_change :
    let rise (p : Pulse) : Nat := ((p.drive true).drive false).count
    let bound (k : FilterKind) : Pulse := { Pulse.reset with filter := k, binding := .bound 1, level := none }
    rise ((bound .slow).setFilter .off) = 0 ∧ rise (({ (bound .slow).setFilter .off with left := 8 } : Pulse).sample) = 1 ∧
    rise ((bound .off).setFilter .slow) = 1 ∧ rise (({ (bound .off).setFilter .slow with left := 8 } : Pulse).sample) = 0 ∧
    ((bound .off).setFilter .slow).setFilter .off = bound .off ∧
    (({ (bound .fast).setFilter .off with left := 8, pin := true } : Pulse).takeDue).filter = .off := by decide

/-- The four ways in which a LOAD's filter setting meets the one in force. -/
theorem test_hyp_LoadedGatesChannelsZonesAndTemplatesAct_filter :
    ({ Pulse.reset with filter := .off } : Pulse).TakesFilter { Pulse.reset with filter := .off, next := some .slow } .slow ∧
    Pulse.reset.TakesFilter { Pulse.reset with next := some .off } .off ∧
    Pulse.reset.TakesFilter { Pulse.reset with filter := .slow } .slow ∧ Pulse.reset.TakesFilter Pulse.reset .fast := by
  unfold Pulse.TakesFilter
  decide

/-- From OFF the sample at the tick that stands is past: SLOW takes none in this tick, FAST at most seven, and neither takes any once
the samples of the tick have been taken; outside RUNNING only the pin moves. -/
theorem test_filter_from_off :
    [FilterKind.slow, .fast, .off].map (fun k => (({ Pulse.reset with filter := .off, left := 8 } : Pulse).setFilter k).due) = [0, 7, 0] ∧
    [FilterKind.slow, .fast].map (fun k => (({ Pulse.reset with filter := .off, left := 8 } : Pulse).takeDue.setFilter k).due) = [0, 0] ∧
    (({ Pulse.reset with filter := .slow, left := 8 } : Pulse).takeDue.setFilter .fast).due = 0 ∧
    after (.pulseCount (.mp 3) true) State.reset (fun t => (t.measured[3].pin, t.measured[3].lastSample)) = some (true, false) := by
  decide +kernel

/-- Gate 0 counted out, counter 0 bound to it. -/
def windowOver (b : Binding) (g : Gate) : State :=
  { pulseState { Pulse.reset with binding := b, count := 7 } with gates := live.gates.set 0 g }

theorem test_hyp_WindowEndHandsOverTheBoundCounters :
    live.running = true ∧ live.gates[(0 : Fin 4)].remaining ≠ 0 ∧ (windowOver (.bound 0) Gate.reset).gates[(0 : Fin 4)].remaining = 0 ∧
    after (.gateWindowEnd 0) (windowOver (.bound 0) { Gate.reset with reload := 5, tick := .ms10 })
      (fun t => (t.measured[0].count, t.mail.windows[0], t.gates[0].remaining)) =
      some (0, [{ count := 7, saturated := false, lengthMs := 50 }], 5) ∧
    after (.gateWindowEnd 0) (windowOver (.pending 0) { Gate.reset with pending := some { tick := .s1, reload := 9 } })
      (fun t => (t.measured[0].binding, t.mail.windows[0], t.gates[0].remaining)) = some (.bound 0, [], 9) ∧
    after (.gateWindowEnd 0) (windowOver (.bound 1) Gate.reset) (fun t => t.measured[0].count) = some 7 := by decide +kernel

theorem test_hyp_SpeedReferencesTakeTheDutyAtThePeriodStart :
    live.running = true ∧ ({ live with periodDue := true } : State).periodDue = true ∧
    after .speedReferencePeriodStart { fanState { Fan.reset with state := .running, target := .run .fwd 60 } with periodDue := true }
      (fun t => (t.sref[0], t.sref[1], t.periodDue)) = some (60, 0, false) := by decide +kernel

/-! ## Air measurement and zones -/

/-- Channel 0 at floor 10, ceiling 100, depth 2, with this kind, and one window of this count. -/
def measuring (k : ChannelKind) (count : Nat) (c : Channel) : State :=
  { channelState c with
    active := { live.active with channels := live.active.channels.set 0 {
        kind := k, zone := some 7, gate := 0, filter := .off, zeroCount := 10, gain := 256, floor := 10, ceiling := 100, fullScale := 500,
        depth := 2, warnOn := 20, warnOff := 10, alarmOn := 40, alarmOff := 30, trigger := true } }
    mail := { Mail.empty with windows := Mail.empty.windows.set 0 [{ count := count, saturated := false, lengthMs := 5 }] } }

/-- A channel out of service with a zero pending, its card at deck 1. -/
def zeroing : Channel := { Channel.reset with out := true, zero := some { card := some 1 } }

/-- Below the floor, at it, at the ceiling and above it; no zero pending, and one that the window does not take. -/
theorem test_hyp_WindowHandoverJudgesTheCount :
    (measuring .co 9 Channel.reset).running = true ∧
    (∀ n ∈ [9, 10, 100, 101], ¬TakesZero (measuring .co n Channel.reset).active.channels[(0 : Fin 12)] Channel.reset
      { count := n, saturated := false, lengthMs := 5 }) ∧
    ¬TakesZero (measuring .co 9 zeroing).active.channels[(0 : Fin 12)] zeroing { count := 9, saturated := false, lengthMs := 5 } ∧
    after (.windowHandover 0) (measuring .co 9 Channel.reset) (fun t => (t.channels[0].status, t.channels[0].history)) = some (.fault, []) ∧
    after (.windowHandover 0) (measuring .co 10 Channel.reset) (fun t => (t.channels[0].status, t.channels[0].history)) = some (.ok, [0]) ∧
    after (.windowHandover 0) (measuring .co 100 Channel.reset) (fun t => (t.channels[0].history, t.mail.reevaluations[7])) =
      some ([90], 1) ∧
    after (.windowHandover 0) (measuring .co 101 { Channel.reset with history := [1, 2] })
      (fun t => (t.channels[0].status, t.channels[0].history)) = some (.over, [2, 500]) := by
  unfold TakesZero
  decide +kernel

/-- The table of R64 at its limits: 20 gives WARN, 40 gives ALARM with SUMMARY, 30 keeps ALARM and 29 leaves it. -/
theorem test_hyp_BandFollowsTheHysteresisTable :
    (measuring .co 10 Channel.reset).running = true ∧ (measuring .co 10 Channel.reset).active.channels[(0 : Fin 12)].floor ≤ 10 ∧
    ¬TakesZero (measuring .co 10 Channel.reset).active.channels[(0 : Fin 12)] Channel.reset { count := 10, saturated := false, lengthMs := 5 } ∧
    after (.windowHandover 0) (measuring .co 30 Channel.reset) (fun t => t.channels[0].band) = some .warn ∧
    after (.windowHandover 0) (measuring .co 50 Channel.reset) (fun t => (t.channels[0].band, t.channels[0].summary)) = some (.alarm, true) ∧
    after (.windowHandover 0) (measuring .velocity 40 { Channel.reset with band := .alarm }) (fun t => t.channels[0].band) = some .alarm ∧
    after (.windowHandover 0) (measuring .co 39 { Channel.reset with band := .alarm }) (fun t => t.channels[0].band) = some .warn ∧
    after (.windowHandover 0) (measuring .pressure 50 Channel.reset) (fun t => t.channels[0].band) = some .normal := by
  unfold TakesZero
  decide +kernel

theorem test_hyp_AGoodWindowTakesThePendingZero :
    (measuring .co 10 zeroing).running = true ∧ (measuring .co 10 zeroing).cm.bytes.wf = true ∧
    (∀ n ∈ [10, 100], TakesZero (measuring .co n zeroing).active.channels[(0 : Fin 12)] zeroing
      { count := n, saturated := false, lengthMs := 5 }) ∧
    after (.windowHandover 0) (measuring .co 12 zeroing)
      (fun t => (t.channels[0].zero, t.active.channels[0].zeroCount, t.cm.bytes.readWord 0x0048, t.mail.completions[1].map (·.results))) =
      some (none, 12, 12, some (.words 12 0 0 0)) := by
  unfold TakesZero
  decide +kernel

theorem test_hyp_ReadAndClearSummaryAnswerForTheChannel :
    (holding live (cardOf 3 12 0 0 0)).dispatched (takeOf (cardOf 3 12 0 0 0)) .read ∧
    (holding live (cardOf 3 11 0 0 0)).dispatched (takeOf (cardOf 3 11 0 0 0)) .read ∧
    (holding live (cardOf 5 12 0 0 0)).dispatched (takeOf (cardOf 5 12 0 0 0)) .clearSummary ∧
    (holding (channelState { Channel.reset with band := .alarm }) (cardOf 5 0 0 0 0)).dispatched (takeOf (cardOf 5 0 0 0 0)) .clearSummary ∧
    (cardOf 3 12 0 0 0).target.toNat = 12 ∧ (cardOf 3 11 0 0 0).target = BitVec.ofNat 16 (11 : Fin 12).val ∧
    (channelState { Channel.reset with band := .alarm }).channels[(0 : Fin 12)].band = .alarm ∧ Channel.reset.band ≠ .alarm :=
  ⟨held rfl rfl, held rfl rfl, held rfl rfl, held rfl rfl, by decide, by decide, by decide, by decide⟩

/-- READ of a history averaging below, at and above a0, and CLEAR_SUMMARY in ALARM and in NORMAL. -/
theorem test_read_and_clear_summary :
    ([3, 2, 1] : List Word).map (fun a0 => after .readCard (holding (channelState { Channel.reset with history := [1, 3] }) (cardOf 0x0403 0 a0 0 0))
      (fun t => t.executor.bind (·.answer.map fun a => (a.results, a.condition)))) =
      [1, 2, 3].map (fun c => some (some (Results.words 3 2 0 0x0200, some c))) ∧
    after .clearSummaryCard (holding (channelState { Channel.reset with band := .alarm, summary := true }) (cardOf 5 0 0 0 0))
      (fun t => t.channels[0].summary) = some true ∧
    after .clearSummaryCard (holding (channelState { Channel.reset with summary := true }) (cardOf 5 0 0 0 0))
      (fun t => t.channels[0].summary) = some false := by decide +kernel

theorem test_hyp_ChannelServiceAndZeroWorkOnTheChannel :
    (holding live (cardOf 6 12 0 0 0)).dispatched (takeOf (cardOf 6 12 0 0 0)) .channelService ∧
    (holding live (cardOf 6 11 2 0 0)).dispatched (takeOf (cardOf 6 11 2 0 0)) .channelService ∧
    (holding live (cardOf 6 11 1 0 0)).dispatched (takeOf (cardOf 6 11 1 0 0)) .channelService ∧
    (holding live (cardOf 4 12 0 0 0)).dispatched (takeOf (cardOf 4 12 0 0 0)) .zero ∧
    (holding (channelState zeroing) (cardOf 0x0204 0 0 0 0)).dispatched (takeOf (cardOf 0x0204 0 0 0 0)) .zero ∧
    (cardOf 6 12 0 0 0).target.toNat = 12 ∧ (cardOf 6 11 2 0 0).target = BitVec.ofNat 16 (11 : Fin 12).val ∧
    (cardOf 6 11 2 0 0).a0.toNat = 2 ∧ (cardOf 6 11 1 0 0).a0 = 1 ∧ (cardOf 0x0204 0 0 0 0).wait = true ∧
    (cardOf 4 0 0 0 0).wait = false ∧ zeroing.out = true ∧ zeroing.zero.isSome = true ∧ Channel.reset.out = false ∧
    ({ Channel.reset with out := true } : Channel).zero = none :=
  ⟨held rfl rfl, held rfl rfl, held rfl rfl, held rfl rfl, held rfl rfl, by decide⟩

/-- CHANNEL_SERVICE out and back with a zero pending; ZERO in service, at once and with WAIT. -/
theorem test_service_and_zero :
    after .channelServiceCard (holding live (cardOf 6 0 1 0 0)) (fun t => t.channels[0].out) = some true ∧
    after .channelServiceCard (holding (channelState zeroing) (cardOf 6 0 0 0 0))
      (fun t => (t.channels[0].zero, t.mail.completions[1].map (·.outcome))) = some (none, some .overtaken) ∧
    after .zeroCard (holding live (cardOf 4 0 0 0 0)) (fun t => t.executor.bind (·.answer.map (·.reason))) = some (some .notPermitted) ∧
    after .zeroCard (holding (channelState { Channel.reset with out := true }) (cardOf 4 0 0 0 0)) (fun t => t.channels[0].zero) =
      some (some { card := none }) ∧
    after .zeroCard (holding (channelState zeroing) (cardOf 4 0 0 0 0)) (fun t => t.executor.bind (·.answer.map (·.reason))) =
      some (some .busy) := by decide +kernel

/-- Zone 7 with its channel 0 in ALARM and a confirm time. -/
def alarmed (confirm : Nat) (z : Zone) (c : Channel) : State :=
  let s := measuring .co 10 c
  { s with
    active := { s.active with zones := s.active.zones.set 7 { first := 0, last := 7, centre := 3, confirmTime := confirm, template := 1, mirror := false } }
    zones := live.zones.set 7 z, mail := { Mail.empty with reevaluations := Mail.empty.reevaluations.set 7 1 } }

/-- A channel in ALARM with a good window. -/
def alarming : Channel := { Channel.reset with status := .ok, band := .alarm, summary := true }

/-- Evidence that comes with and without a confirm time, and that goes in each state. -/
theorem test_hyp_ZonesFollowTheirEvidence :
    (alarmed 120 Zone.reset alarming).running = true ∧ 0 < (alarmed 120 Zone.reset alarming).mail.reevaluations[(7 : Fin 8)] ∧
    (∀ z : Fin 8, (alarmed 120 Zone.reset alarming).mail.requests[z] = none) ∧
    after (.zoneReevaluation 7) (alarmed 120 Zone.reset alarming) (fun t => (t.zones[7].state, t.zones[7].confirm, t.mail.demandLevels[7])) =
      some (.confirming, some { since := 10, due := 130000 }, [2]) ∧
    after (.zoneReevaluation 7) (alarmed 0 Zone.reset alarming) (fun t => t.mail.requests[7]) =
      some (some { position := 3, template := 1, mirror := false, evidence := [0] }) ∧
    [ZoneState.confirming, .blocked, .held, .triggered].map (fun st =>
      after (.zoneReevaluation 7) (alarmed 120 { Zone.reset with state := st, evidence := true } Channel.reset) (fun t => t.zones[7].state)) =
      [some .quiet, some .quiet, some .quiet, some .triggered] := by decide +kernel

/-- A zone that confirms, with its timer due at a tick. -/
def confirming (due : Nat) : Zone := { Zone.reset with state := .confirming, evidence := true, confirm := some { since := 0, due := due } }

/-- The timer in its tick and before it; slot freed in BLOCKED and elsewhere; incident freed for the zone's identity and another. -/
theorem test_hyp_ZonesFollowTheirEvidence_asking :
    (zoneState (confirming 10000)).zones[(0 : Fin 8)].state = .confirming ∧
    (zoneState (confirming 10001)).zones[(0 : Fin 8)].confirm = some { since := 0, due := 10001 } ∧
    after (.confirmTimerExpiry 0) (zoneState (confirming 10000)) (fun t => t.mail.requests[0].isSome) = some true ∧
    after (.confirmTimerExpiry 0) (zoneState (confirming 10001)) (fun t => t.mail.requests[0].isSome) = some false ∧
    [ZoneState.blocked, .held].map (fun st => after (.slotFreed 0)
      { zoneState { Zone.reset with state := st, evidence := true } with mail := { Mail.empty with slotFreed := Mail.empty.slotFreed.set 0 1 } }
      (fun t => (t.mail.requests[0].isSome, t.mail.slotFreed[0]))) = [some (true, 0), some (false, 0)] ∧
    [true, false].map (fun e => after (.incidentFreed 0)
      { zoneState { Zone.reset with state := .triggered, evidence := e, ident := some ⟨12, 3⟩ } with
        mail := { Mail.empty with incidentFreed := Mail.empty.incidentFreed.set 0 [⟨12, 3⟩] } } (fun t => (t.zones[0].state, t.zones[0].ident))) =
      [some (.held, none), some (.quiet, none)] ∧
    after (.incidentFreed 0) { zoneState { Zone.reset with state := .triggered, ident := some ⟨12, 4⟩ } with
        mail := { Mail.empty with incidentFreed := Mail.empty.incidentFreed.set 0 [⟨12, 3⟩] } } (fun t => t.zones[0].state) =
      some .triggered := by decide +kernel

/-! ## Fan drives -/

/-- A fan item with a rundown of 5 s, one pulse a revolution, 1000 rpm rated and an underspeed limit of half of it. -/
def fanItem : FanItem :=
  { role := .jet, niche := 0, tachGate := some 0, pulsesPerRev := 1, ratedRpm := 1000, underspeedPercent := 50, settleTime := 2,
    startLimit := 5, rundownTime := 5, flyingRestart := false, normalDirection := .fwd, speedL1 := 30, speedL2 := 60,
    running := { activeLow := false, debounceMs := 16 }, fault := { activeLow := false, debounceMs := 16 },
    localSwitch := { activeLow := false, debounceMs := 16 } }

/-- The live part with one start slot, fan 0 with this item and as given, and the start queue as given. -/
def driving (e : Fan) (queue : List (Fin 8)) : State :=
  { fanState e with
    active := { live.active with span := { live.active.span with startSlots := 1, nicheCount := 8 }, fans := live.active.fans.set 0 fanItem }
    fans := { (fanState e).fans with queue := queue } }

/-- Fan 0 after a command: its state and its fault cause. -/
def fanAfter (c : Instr) (s : State) : Option (FanState × FanFault) := after c s fun t => (t.fans.fans[0].state, t.fans.fans[0].cause)

/-- A fan whose target is to run forward at 60 %. -/
def forward (st : FanState) : Fan := { Fan.reset with state := st, target := .run .fwd 60, request := .manual .fwd 60, rundownFrom := 5001 }

/-- RUNNING becoming active in STOPPED, QUEUED (with and without FAULT) and STARTING, and inactive in RUNNING and, before and at
the end of the rundown, in STOPPING; elsewhere it is recorded. -/
theorem test_hyp_RunningContactMovesTheFan :
    (changed (driving Fan.reset []) (fanInput 0 0) true).running = true ∧
    (changed (driving Fan.reset []) (fanInput 0 0) true).mail.contactChanges[fanInput 0 0] = true :: [] ∧
    (0 : Fin 8) ∉ (driving Fan.reset []).fans.queue ∧
    fanAfter (.fanRunningContact 0) (changed (driving Fan.reset []) (fanInput 0 0) true) = some (.stopping, .none) ∧
    fanAfter (.fanRunningContact 0) (changed (driving (forward .queued) [0]) (fanInput 0 0) true) = some (.stopping, .none) ∧
    fanAfter (.fanRunningContact 0) (changed (driving { forward .queued with fault := true } [0]) (fanInput 0 0) true) =
      some (.faulted, .driveFault) ∧
    fanAfter (.fanRunningContact 0) (changed (driving (forward .starting) []) (fanInput 0 0) true) = some (.running, .none) ∧
    fanAfter (.fanRunningContact 0) (changed (driving { forward .running with running := true } []) (fanInput 0 0) false) =
      some (.faulted, .feedbackLost) ∧
    fanAfter (.fanRunningContact 0) (changed (driving { forward .stopping with running := true } []) (fanInput 0 0) false) =
      some (.stopping, .none) ∧
    fanAfter (.fanRunningContact 0)
      (changed (driving { forward .stopping with running := true, rundownFrom := 5000 } []) (fanInput 0 0) false) = some (.starting, .none) ∧
    fanAfter (.fanRunningContact 0) (changed (driving { Fan.reset with state := .service, out := true } []) (fanInput 0 0) true) =
      some (.service, .none) := by decide +kernel

/-- FAULT in the four driven states and in STOPPED; LOCAL on and off, on in SERVICE. -/
theorem test_hyp_FaultAndLocalContactsMoveTheFan :
    (changed (driving Fan.reset []) (fanInput 0 1) true).mail.contactChanges[fanInput 0 1] = true :: [] ∧
    (changed (driving Fan.reset []) (fanInput 0 2) false).mail.contactChanges[fanInput 0 2] = false :: [] ∧
    (changed (driving Fan.reset []) (fanInput 0 2) false).running = true ∧ FanState.stopped ≠ .service ∧
    [FanState.starting, .running, .stopping].map (fun st =>
      fanAfter (.fanFaultContact 0) (changed (driving (forward st) []) (fanInput 0 1) true)) =
      List.replicate 3 (some (.faulted, .driveFault)) ∧
    fanAfter (.fanFaultContact 0) (changed (driving (forward .queued) [0]) (fanInput 0 1) true) = some (.faulted, .driveFault) ∧
    fanAfter (.fanFaultContact 0) (changed (driving Fan.reset []) (fanInput 0 1) true) = some (.stopped, .none) ∧
    fanAfter (.fanLocalContact 0) (changed (driving (forward .running) []) (fanInput 0 2) true) = some (.localPanel, .none) ∧
    fanAfter (.fanLocalContact 0) (changed (driving { Fan.reset with state := .localPanel, localSwitch := true } []) (fanInput 0 2) false) =
      some (.stopping, .none) ∧
    fanAfter (.fanLocalContact 0)
      (changed (driving { Fan.reset with state := .localPanel, localSwitch := true, fault := true } []) (fanInput 0 2) false) =
      some (.faulted, .driveFault) ∧
    fanAfter (.fanLocalContact 0) (changed (driving { Fan.reset with state := .service, out := true } []) (fanInput 0 2) true) =
      some (.service, .none) := by decide +kernel

/-- The timers in their tick and one tick before it. -/
theorem test_hyp_FanTimersAndTachHandoversAct :
    (driving Fan.reset []).running = true ∧ live.now = 10000 ∧
    [10000, 10001].map (fun due => fanAfter (.startLimitExpiry 0) (driving { forward .starting with startLimitDue := some due } [])) =
      [some (.faulted, .startFailed), some (.starting, .none)] ∧
    [10000, 10001].map (fun due => after (.settleExpiry 0) (driving { forward .running with settleDue := some due } [])
      (fun t => t.fans.fans[0].supervised)) = [some true, some false] ∧
    [5000, 5001].map (fun n => fanAfter (.rundownExpiry 0) (driving { Fan.reset with state := .stopping, rundownFrom := n } [])) =
      [some (.stopped, .none), some (.stopping, .none)] ∧
    fanAfter (.rundownExpiry 0) (driving { forward .stopping with rundownFrom := 5000 } [0]) = some (.starting, .none) := by decide +kernel

/-- The rundown is over at 5000 ticks and not at 5001, and a fan in the queue without FAULT meets the other clause. -/
theorem test_hyp_FanTimersAndTachHandoversAct_rundown :
    ({ Fan.reset with state := .stopping, rundownFrom := 5000 } : Fan).atRest fanItem 10000 ∧
    ¬({ Fan.reset with state := .stopping, rundownFrom := 5001 } : Fan).atRest fanItem 10000 ∧
    (0 : Fin 8) ∈ (driving { forward .stopping with rundownFrom := 5000 } [0]).fans.queue ∧ (forward .stopping).fault = false := by
  unfold Fan.atRest
  decide

/-- A tach window of this count over a minute, for a fan in RUNNING under supervision at 60 %: the limit is 300 rpm. -/
def turning (count : Nat) (e : Fan) : State :=
  { driving e [] with mail := { Mail.empty with tachWindows := Mail.empty.tachWindows.set 0 [{ count := count, saturated := false, lengthMs := 60000 }] } }

theorem test_hyp_FanTimersAndTachHandoversAct_tach :
    (turning 299 (forward .running)).running = true ∧
    (turning 299 (forward .running)).mail.tachWindows[(0 : Fin 8)] = { count := 299, saturated := false, lengthMs := 60000 } :: [] ∧
    (0 : Fin 8) ∉ (turning 299 (forward .running)).fans.queue ∧ fanItem.tachGate.isSome = true ∧ ({ fanItem with tachGate := none } : FanItem).tachGate = none ∧
    [299, 300].map (fun n => after (.tachHandover 0) (turning n { forward .running with supervised := true })
      (fun t => (t.fans.fans[0].lastRpm, t.fans.fans[0].underspeed))) = [some (299, true), some (300, false)] ∧
    after (.tachHandover 0) (turning 299 (forward .running)) (fun t => (t.fans.fans[0].lastRpm, t.fans.fans[0].underspeed)) =
      some (299, false) := by decide +kernel

/-- A fan in the start queue takes a tach window, and the end of its rundown, in its place ahead of fan 1. -/
theorem test_hyp_FanTimersAndTachHandoversAct_queued :
    let full (s : State) : State := { s with active := { s.active with span := { s.active.span with startSlots := 0 } } }
    let waiting : State := full { turning 299 (forward .stopping) with fans := (driving { forward .stopping with rundownFrom := 5000 } [0, 1]).fans }
    (0 : Fin 8) ∈ waiting.fans.queue ∧
    after (.tachHandover 0) waiting (fun t => (t.fans.queue, t.fans.fans[0].lastRpm)) = some ([0, 1], 299) ∧
    after (.rundownExpiry 0) waiting (fun t => (t.fans.queue, t.fans.fans[0].state)) = some ([0, 1], .queued) := by decide +kernel

/-- Fan 1 keeps its place behind nothing; fan 0, acted on, keeps its own while its target does not turn, and joins its class again
once it does. -/
theorem test_hyp_QueueInOrder :
    let u := (driving (forward .queued) [0, 1]).fans
    let turned := (driving { forward .queued with reverse := true } [1, 0]).fans
    u.queue.Nodup ∧ ClassesInOrder u ∧ KeepsPlace u turned (· = 0) 1 ∧ KeepsPlace u u (· = 0) 0 ∧ JoinsBack u turned 0 ∧
    SameClass turned.fans[(1 : Fin 8)] turned.fans[(0 : Fin 8)] ∧ [(0 : Fin 8), 1].Sublist u.queue ∧ [(1 : Fin 8), 0].Sublist turned.queue := by
  unfold ClassesInOrder KeepsPlace JoinsBack SameClass
  decide

/-- Zone 0 covers niche 0, where every fan but fan 0's item leaves it too. -/
theorem test_hyp_DemandLevelsReachTheFans :
    live.running = true ∧
    ({ live with mail := { Mail.empty with demandLevels := Mail.empty.demandLevels.set 0 [2] } } : State).mail.demandLevels[(0 : Fin 8)] =
      2 :: [] ∧
    ({ live with mail := { Mail.empty with zoneCommits := [0] } } : State).mail.zoneCommits = 0 :: [] ∧
    after (.demandLevelChange 0) { driving { Fan.reset with request := .auto } [] with
      mail := { Mail.empty with demandLevels := Mail.empty.demandLevels.set 0 [2] } }
      (fun t => (t.fans.fans[0].demand, t.fans.fans[0].target, t.fans.fans[0].state)) = some (2, .run .fwd 60, .starting) ∧
    after .zoneLoadCommit { zoneState { Zone.reset with worst := .warn } with mail := { Mail.empty with zoneCommits := [0] } }
      (fun t => (t.fans.zoneDemand[0], t.fans.fans[0].demand)) = some (1, 1) := by decide +kernel

/-- A list that names fan 0, one that names none, and a gallery demand. -/
theorem test_hyp_PlacementAndGalleryDemandsClaimFans :
    live.running = true ∧
    ([{ fan := 0, action := .run .rev 40, standsFor := none }] : List ListEntry).find? (fun e => decide (e.fan = (0 : Fin 8))) =
      some { fan := 0, action := .run .rev 40, standsFor := none } ∧
    (∀ e ∈ ([] : List ListEntry), e.fan ≠ (0 : Fin 8)) ∧
    ({ live with mail := { Mail.empty with placements := [[]] } } : State).mail.placements = [] :: [] ∧
    ({ live with mail := { Mail.empty with galleryDemands := [.relief] } } : State).mail.galleryDemands = .relief :: [] ∧
    after .placementChange { driving Fan.reset [] with
      mail := { Mail.empty with placements := [[{ fan := 0, action := .run .rev 40, standsFor := none }]] } }
      (fun t => (t.fans.fans[0].owner, t.fans.fans[0].target, t.fans.fans[0].entryTarget, t.fans.fans[0].reverse)) =
      some (.incident, .run .rev 40, some .stop, true) ∧
    after .galleryDemandChange { live with mail := { Mail.empty with galleryDemands := [.relief] } } (·.fans.galleryDemand) =
      some .relief := by decide +kernel

/-- A fan at its target is DONE, one that is not is ACCEPTED, one owned by the local panel DEFERRED; speeds 100 and 101 and
target 7 and 8 are at the ends. -/
theorem test_hyp_FanRequestIsAnsweredByTheOwnerItFinds :
    (holding live (cardOf 7 8 0 0 0)).dispatched (takeOf (cardOf 7 8 0 0 0)) .fanRequest ∧
    (holding live (cardOf 0x0207 7 0 1 100)).dispatched (takeOf (cardOf 0x0207 7 0 1 100)) .fanRequest ∧
    (cardOf 7 8 0 0 0).target.toNat = 8 ∧ (cardOf 0x0207 7 0 1 100).target = BitVec.ofNat 16 (7 : Fin 8).val ∧
    (cardOf 7 0 2 0 0).a0.toNat = 2 ∧ (cardOf 7 0 0 2 0).a1.toNat = 2 ∧ (cardOf 7 0 0 0 101).a2.toNat = 101 ∧
    (cardOf 0x0207 7 0 1 100).a2.toNat = 100 ∧ (cardOf 0x0207 7 0 1 100).wait = true ∧ (cardOf 7 0 1 0 0).a0 = 1 :=
  ⟨held rfl rfl, held rfl rfl, by decide⟩

/-- The answers of FAN_REQUEST. -/
theorem test_fan_request :
    ([cardOf 7 0 0 0 101, cardOf 7 0 0 0 0, cardOf 7 0 0 0 60] : List Card).map (fun c => after .fanRequestCard (holding (driving Fan.reset []) c)
      (fun t => t.executor.bind (·.answer.map (·.outcome)))) = [some (some .refused), some (some .done), some (some .accepted)] ∧
    after .fanRequestCard (holding (driving { Fan.reset with state := .localPanel, localSwitch := true } []) (cardOf 7 0 0 0 60))
      (fun t => t.executor.bind (·.answer.map (·.outcome))) = some (some .deferred) ∧
    after .fanRequestCard (holding { driving Fan.reset [] with decks := (flying (cardOf 0x0207 0 0 0 60) none).decks } (cardOf 0x0207 0 0 0 60))
      (fun t => (t.executor, t.fans.fans[0].attached)) = some (none, [0]) := by decide +kernel

/-- A fan in a state that runs or last ran forward, its RUNNING contact as given, with a target of STOP. -/
def idleFan (st : FanState) (running : Bool) : Fan := { Fan.reset with state := st, running := running, rundownFrom := 9000, settleDue := some 1 }

/-- What a request to run forward, in reverse and to stop makes of fan 0 in each state, after a request to run forward at 60 %;
with `fly` set the item asks for a flying restart. -/
def pursued (fly : Bool) (e : Fan) (queue : List (Fin 8)) : List (Option (FanState × Bool × List (Fin 8) × Option Nat)) :=
  let s := driving e queue
  let t := { s with active := { s.active with fans := s.active.fans.set 0 { fanItem with flyingRestart := fly }
                                              span := { s.active.span with startSlots := 0 } } }
  [cardOf 7 0 0 0 70, cardOf 7 0 0 1 70, cardOf 7 0 0 0 0].map fun c => after .fanRequestCard (holding t c)
    fun a => (a.fans.fans[0].state, a.fans.fans[0].reverse, a.fans.queue, a.fans.fans[0].settleDue)

/-- R93 to R97: from STOPPED the fan queues, REVERSE set to the target; QUEUED keeps its place for the same direction and queues
again for the other; STARTING and RUNNING stay, the settle timer of RUNNING restarted, or stop; STOPPING joins the queue for a
flying restart, leaves it for another direction, and else waits; a FAULTED fan keeps its state. -/
theorem test_pursues :
    pursued false Fan.reset [] =
      [some (.queued, false, [0], none), some (.queued, true, [0], none), some (.stopped, false, [], none)] ∧
    pursued false (forward .queued) [0, 1] =
      [some (.queued, false, [0, 1], none), some (.queued, true, [1, 0], none), some (.stopped, false, [1], none)] ∧
    pursued false (forward .starting) [] =
      [some (.starting, false, [], none), some (.stopping, false, [], none), some (.stopping, false, [], none)] ∧
    pursued false { forward .running with running := true } [] =
      [some (.running, false, [], some 12000), some (.stopping, false, [], none), some (.stopping, false, [], none)] ∧
    pursued true (idleFan .stopping true) [] =
      [some (.stopping, false, [0], some 1), some (.stopping, false, [], some 1), some (.stopping, false, [], some 1)] ∧
    pursued false (idleFan .stopping true) [] =
      [some (.stopping, false, [], some 1), some (.stopping, false, [], some 1), some (.stopping, false, [], some 1)] ∧
    pursued true { forward .stopping with running := true } [0, 1] =
      [some (.stopping, false, [0, 1], none), some (.stopping, false, [1], none), some (.stopping, false, [1], none)] ∧
    (pursued false { Fan.reset with state := .faulted, cause := .driveFault } []).head? = some (some (.faulted, false, [], none)) := by
  decide +kernel

/-- A GALLERY fan that joins the queue stands behind INCIDENT and GALLERY fans and ahead of the others (R102); a fan granted
with its RUNNING contact active runs at once, and with its FAULT contact active is FAULTED (R95, R98, R103). -/
theorem test_queue_and_grants :
    let u : FanUnit := { FanUnit.reset with
      fans := (FanUnit.reset.fans.set 1 { Fan.reset with owner := .incident }).set 2 { Fan.reset with owner := .gallery }
      queue := [1, 3] }
    (u.joinQueue 2).queue = [1, 2, 3] ∧ (u.joinQueue 4).queue = [1, 3, 4] ∧ (u.joinQueue 3).queue = [1, 3] ∧
    [(false, false), (true, false), (false, true)].map (fun x => after (.fanRequestCard) (holding (driving
      { Fan.reset with running := x.1, fault := x.2, state := .stopped } []) (cardOf 7 0 0 0 60)) (fun t => t.fans.fans[0].state)) =
      [some .starting, some .running, some .faulted] := by decide +kernel

/-- A fan in FAULTED. -/
def faulted (n : Nat) : Fan := { Fan.reset with state := .faulted, cause := .driveFault, rundownFrom := n }

theorem test_hyp_FanServiceAndFanResetAct :
    (holding live (cardOf 8 8 0 0 0)).dispatched (takeOf (cardOf 8 8 0 0 0)) .fanService ∧
    (holding live (cardOf 8 7 1 0 0)).dispatched (takeOf (cardOf 8 7 1 0 0)) .fanService ∧
    (holding live (cardOf 8 7 2 0 0)).dispatched (takeOf (cardOf 8 7 2 0 0)) .fanService ∧
    (holding (driving (faulted 5000) []) (cardOf 9 0 0 0 0)).dispatched (takeOf (cardOf 9 0 0 0 0)) .fanReset ∧
    (holding (driving (faulted 5001) []) (cardOf 9 0 0 0 0)).dispatched (takeOf (cardOf 9 0 0 0 0)) .fanReset ∧
    (cardOf 8 8 0 0 0).target.toNat = 8 ∧ (cardOf 8 7 1 0 0).target = BitVec.ofNat 16 (7 : Fin 8).val ∧
    (cardOf 8 7 2 0 0).a0.toNat = 2 ∧ (cardOf 8 7 1 0 0).a0 = 1 ∧ (cardOf 9 0 0 0 0).target = BitVec.ofNat 16 (0 : Fin 8).val ∧
    (faulted 5000).state = .faulted ∧ 5000 + 1000 * fanItem.rundownTime ≤ live.now ∧ live.now < 5001 + 1000 * fanItem.rundownTime ∧
    Fan.reset.state ≠ .faulted :=
  ⟨held rfl rfl, held rfl rfl, held rfl rfl, held rfl rfl, held rfl rfl, by decide⟩

/-- Out to SERVICE, back to STOPPING, LOCAL or FAULTED; FAN_RESET refused twice and taken. -/
theorem test_fan_service_and_reset :
    fanAfter .fanServiceCard (holding (driving (forward .running) []) (cardOf 8 0 1 0 0)) = some (.service, .none) ∧
    [(false, false), (true, false), (false, true)].map (fun x => fanAfter .fanServiceCard (holding (driving
      { Fan.reset with state := .service, out := true, localSwitch := x.1, fault := x.2 } []) (cardOf 8 0 0 0 0))) =
      [some (.stopping, .none), some (.localPanel, .none), some (.faulted, .driveFault)] ∧
    [Fan.reset, faulted 5001, faulted 5000].map (fun e => after .fanResetCard (holding (driving e []) (cardOf 9 0 0 0 0))
      (fun t => (t.fans.fans[0].state, t.executor.bind (·.answer.map fun a => (a.reason, a.results))))) =
      [some (.stopped, some (.notPermitted, .words 0 0 0 0)), some (.faulted, some (.busy, .words 0 0 0 0)),
       some (.stopped, some (.none, .words 2 0 0 0))] := by decide +kernel

/-- A FAULTED gallery fan whose target is left over from an older gallery item: FAN_RESET recomputes the target before the fan
pursues it. -/
theorem test_fan_reset_recomputes :
    let s := holding (driving { faulted 5000 with owner := .gallery, target := .run .fwd 30 } []) (cardOf 9 0 0 0 0)
    let t := { s with
      fans := { s.fans with galleryDemand := .relief }
      active := { s.active with
        fans := s.active.fans.set 0 { fanItem with role := .gallery }
        gallery := { s.active.gallery with reliefSpeed := 70 } } }
    after .fanResetCard t (fun a => (a.fans.fans[0].state, a.fans.fans[0].target)) = some (.starting, .run .fwd 70) := by decide +kernel

/-! ## Escape doors and the gallery -/

/-- Door 0 with bolt time 3 s, held-open time 60 s, relief time 5 s and assist time 20 s. -/
def passage (e : Door) : State :=
  { doorState e with active := { live.active with
      gallery := { live.active.gallery with pressureChannel := some 4, openLimit := 200 }
      doors := live.active.doors.set 0 { live.active.doors[0] with boltTime := 3, heldOpenTime := 60, reliefTime := 5, assistTime := 20 } } }

/-- A door in a state, closed, with secure wanted as given. -/
def door (st : DoorState) (secure : Bool) : Door := { Door.reset with state := st, closed := true, secureMode := secure, secureWanted := secure }

/-- The state of door 0 after a command. -/
def doorAfter (c : Instr) (s : State) : Option DoorState := after c s fun t => t.doors.doors[0].state

theorem test_hyp_ClosedAndBoltedContactsMoveTheDoor :
    (changed (passage (door .secured true)) (doorInput 0 0) false).running = true ∧
    (changed (passage (door .secured true)) (doorInput 0 0) false).mail.contactChanges[doorInput 0 0] = false :: [] ∧
    (changed (passage (door .secured true)) (doorInput 0 1) false).mail.contactChanges[doorInput 0 1] = false :: [] ∧
    [door .released false, door .bolting true, door .opening true, door .secured true, { door .secured true with push := true }, door .fault true].map
      (fun e => doorAfter (.doorClosedContact 0) (changed (passage e) (doorInput 0 0) false)) =
      [some .openLeaf, some .openLeaf, some .openLeaf, some .forced, some .openLeaf, some .fault] ∧
    [door .forced true, door .openLeaf true, door .heldOpen false, door .service true].map
      (fun e => doorAfter (.doorClosedContact 0) (changed (passage { e with closed := false }) (doorInput 0 0) true)) =
      [some .bolting, some .bolting, some .released, some .service] ∧
    [door .bolting true, door .released false].map (fun e => doorAfter (.doorBoltedContact 0) (changed (passage e) (doorInput 0 1) true)) =
      [some .secured, some .released] ∧
    [door .secured true, door .released false].map (fun e => doorAfter (.doorBoltedContact 0) (changed (passage e) (doorInput 0 1) false)) =
      [some .bolting, some .released] := by decide +kernel

/-- A door in OPENING with its timers. -/
def pushed (assist : Bool) (due : Nat) : Door :=
  { door .opening true with assist := assist, reliefDue := some due, assistDue := if assist then some due else none }

/-- A pressure at the open limit passes and one above it does not. -/
theorem test_hyp_PressurePasses :
    PressurePasses (passage Door.reset).active { status := .ok, average := some 200 } ∧
    ¬PressurePasses (passage Door.reset).active { status := .ok, average := some 201 } ∧
    ¬PressurePasses (passage Door.reset).active .absent := by
  refine ⟨⟨by decide, .inl rfl, 200, rfl, by decide⟩, fun h => ?_, fun h => ?_⟩
  · obtain ⟨-, -, a, ha, hl⟩ := h
    cases ha
    revert hl
    decide
  · obtain ⟨-, -, a, ha, -⟩ := h
    cases ha

theorem test_hyp_ThePushSequenceAndTheDoorTimersRun :
    (changed (passage (door .secured true)) (doorInput 0 2) true).running = true ∧
    (changed (passage (door .secured true)) (doorInput 0 2) true).mail.contactChanges[doorInput 0 2] = true :: [] ∧
    [door .released false, door .bolting true, door .secured true, door .forced true, door .fault true].map
      (fun e => doorAfter (.doorPushContact 0) (changed (passage e) (doorInput 0 2) true)) =
      [some .opening, some .opening, some .opening, some .openLeaf, some .fault] := by decide +kernel

/-- The push sequence with the pressure at the open limit and above it, and its clocks. -/
theorem test_push_sequence :
    [200, 201].map (fun a => after (.doorPushContact 0)
      { changed (passage (door .secured true)) (doorInput 0 2) true with
        doors := { (passage (door .secured true)).doors with pressure := { status := .ok, average := some a } } }
      (fun t => (t.doors.doors[0].assist, t.doors.doors[0].path, t.doors.doors[0].reliefDue, t.doors.doors[0].assistDue))) =
      [some (true, .pressure, some 15000, some 30000), some (false, .none, some 15000, none)] ∧
    [pushed false 10000, pushed true 10000, pushed false 10001].map (fun e => after (.reliefClockExpiry 0) (passage e)
      (fun t => (t.doors.doors[0].assist, t.doors.doors[0].path, t.doors.doors[0].reliefDue))) =
      [some (true, .time, none), some (true, .none, none), some (false, .none, some 10001)] := by decide +kernel

/-- The door timers in their tick and one tick before it. -/
theorem test_door_timers :
    [10000, 10001].map (fun due => doorAfter (.assistTimerExpiry 0) (passage (pushed true due))) = [some .bolting, some .opening] ∧
    [10000, 10001].map (fun due => doorAfter (.boltTimerExpiry 0) (passage { door .bolting true with boltDue := some due })) =
      [some .fault, some .bolting] ∧
    [10000, 10001].map (fun due => doorAfter (.heldOpenExpiry 0) (passage { door .openLeaf true with heldOpenDue := some due })) =
      [some .heldOpen, some .openLeaf] := by decide +kernel

/-- A delivery of a new record, of a known one and of one that ends; and a pressure reading. -/
theorem test_hyp_DoorsFollowIncidentsAndPressure :
    ({ live with mail := { Mail.empty with incidents := [{ ident := ⟨12, 3⟩, position := 0, state := some .active }] } } : State).mail.incidents =
      { ident := ⟨12, 3⟩, position := 0, state := some .active } :: [] ∧
    ({ live with mail := { Mail.empty with readings := [{ status := .ok, average := some 200 }] } } : State).mail.readings =
      { status := .ok, average := some 200 } :: [] ∧
    [some IncidentState.active, some .clearing, none].map (fun st => after .incidentDelivery
      { passage (door .secured true) with mail := { Mail.empty with incidents := [{ ident := ⟨12, 3⟩, position := 0, state := st }] } }
      (fun t => (t.doors.doors[0].state, t.doors.reach.length, t.doors.demand))) =
      [some (.released, 1, .pressurise), some (.secured, 0, .idle), some (.secured, 0, .idle)] ∧
    [some IncidentState.active, some .clearing, none].map (fun st => after .incidentDelivery
      { passage (door .released true) with
        doors := { (passage { door .released true with secureWanted := false }).doors with reach := [{ ident := ⟨12, 3⟩, position := 0 }] }
        mail := { Mail.empty with incidents := [{ ident := ⟨12, 3⟩, position := 0, state := st }] } }
      (fun t => (t.doors.doors[0].state, t.doors.reach.length))) = [some (.released, 1), some (.bolting, 0), some (.bolting, 0)] ∧
    [200, 201].map (fun a => after .pressureReading
      { passage (pushed false 15000) with mail := { Mail.empty with readings := [{ status := .over, average := some a }] } }
      (fun t => (t.doors.doors[0].assist, t.doors.doors[0].reliefDue))) = [some (true, some 15000), some (false, some 15000)] := by
  decide +kernel

theorem test_hyp_DoorCardsAct :
    (holding live (cardOf 10 4 0 0 0)).dispatched (takeOf (cardOf 10 4 0 0 0)) .doorMode ∧
    (holding live (cardOf 10 3 1 0 0)).dispatched (takeOf (cardOf 10 3 1 0 0)) .doorMode ∧
    (holding live (cardOf 10 3 2 0 0)).dispatched (takeOf (cardOf 10 3 2 0 0)) .doorMode ∧
    (holding live (cardOf 11 4 0 0 0)).dispatched (takeOf (cardOf 11 4 0 0 0)) .doorService ∧
    (holding live (cardOf 11 3 1 0 0)).dispatched (takeOf (cardOf 11 3 1 0 0)) .doorService ∧
    (holding live (cardOf 12 4 0 0 0)).dispatched (takeOf (cardOf 12 4 0 0 0)) .doorReset ∧
    (holding live (cardOf 12 3 0 0 0)).dispatched (takeOf (cardOf 12 3 0 0 0)) .doorReset ∧
    (cardOf 10 4 0 0 0).target.toNat = 4 ∧ (cardOf 10 3 1 0 0).target = BitVec.ofNat 16 (3 : Fin 4).val ∧
    (cardOf 10 3 2 0 0).a0.toNat = 2 ∧ (cardOf 10 3 1 0 0).a0 = BitVec.ofNat 16 (if true then 1 else 0) ∧
    (cardOf 10 3 0 0 0).a0 = BitVec.ofNat 16 (if false then 1 else 0) :=
  ⟨held rfl rfl, held rfl rfl, held rfl rfl, held rfl rfl, held rfl rfl, held rfl rfl, held rfl rfl, by decide⟩

/-- SECURE bolts a released door; out to SERVICE and back; a reset of FAULT and of a flag while its state stands. -/
theorem test_door_cards :
    doorAfter .doorModeCard (holding (passage (door .released false)) (cardOf 10 0 1 0 0)) = some .bolting ∧
    doorAfter .doorModeCard (holding (passage (door .fault false)) (cardOf 10 0 1 0 0)) = some .fault ∧
    doorAfter .doorServiceCard (holding (passage (door .openLeaf true)) (cardOf 11 0 1 0 0)) = some .service ∧
    doorAfter .doorServiceCard (holding (passage (door .service true)) (cardOf 11 0 0 0 0)) = some .bolting ∧
    after .doorResetCard (holding (passage { door .fault true with boltFault := true, forcedFlag := true }) (cardOf 12 0 0 0 0))
      (fun t => (t.doors.doors[0].state, t.executor.bind (·.answer.map (·.results)))) = some (.bolting, some (.words 0 1 0 0)) ∧
    after .doorResetCard (holding (passage { door .forced true with forcedFlag := true, heldOpenFlag := true }) (cardOf 12 0 0 0 0))
      (fun t => (t.doors.doors[0].state, t.executor.bind (·.answer.map (·.results)))) = some (.forced, some (.words 1 0 0 0)) := by
  decide +kernel

/-! ## Incidents -/

/-- A record with this identity and state. -/
def record (o : Origin) (i : Ident) (st : IncidentState) : Incident :=
  { ident := i, origin := o, state := st, resumeAcknowledged := false, position := 5, zone := none, template := 0, mirror := false
    start := 3, lastRefresh := 3, evidence := [], deficit := 0, governing := st != .clearing, clearLeft := 2, refreshDue := some 10000
    staleDue := some 10000, clearingDue := some 10000, entered := 3 }

/-- The span is 12. -/
def span12 (s : State) : State :=
  { s with active := { s.active with span := { s.active.span with spanId := 12, nicheCount := 8, noticeReach := 4 } } }

/-- A full table: three records that may not be displaced, and a fourth as given. -/
def full (r : Incident) : State :=
  span12 { live with incidents := { IncidentUnit.reset with slots :=
    #v[some (record .detected ⟨12, 0⟩ .active), some (record .declared ⟨12, 1⟩ .active), some (record .notice ⟨13, 0⟩ .clearing), some r] } }

/-- A creation request waiting from zone 7. -/
def asking (s : State) : State :=
  let q : CreationRequest := { position := 105, template := 1, mirror := false, evidence := [3] }
  { s with mail := { Mail.empty with requests := Mail.empty.requests.set 7 (some q) } }

/-- A request with room, with a record to displace and without; the cleared-identity list may be full. -/
theorem test_hyp_CreationRequestsAreAnsweredCreatedOrFull :
    (asking (span12 live)).running = true ∧
    (asking (span12 live)).mail.requests[(7 : Fin 8)] = some { position := 105, template := 1, mirror := false, evidence := [3] } ∧
    (List.replicate 8 ({ ident := ⟨13, 0⟩, joined := 0, due := 0 } : ClearedEntry)).length ≤ 8 ∧
    after (.creationRequest 7) (asking (span12 live)) (fun t => (t.zones[7].ident, t.incidents.slots[0].map (·.position), t.incidents.localSeq)) =
      some (some ⟨12, 0⟩, some 105, 1) ∧
    after (.creationRequest 7) (asking (full (record .notice ⟨14, 0⟩ .active)))
      (fun t => (t.zones[7].ident, t.incidents.slots[3].map (·.ident), t.incidents.overflow)) = some (some ⟨12, 2⟩, some ⟨12, 2⟩, true) ∧
    after (.creationRequest 7) (asking (full (record .detected ⟨12, 7⟩ .active)))
      (fun t => (t.zones[7].state, t.incidents.overflow, t.incidents.overflowCount)) = some (.blocked, true, 1) := by decide +kernel

theorem test_hyp_DeclareCreatesAnIncident :
    (holding live (cardOf 13 8 0 0 0)).dispatched (takeOf (cardOf 13 8 0 0 0)) .declare ∧
    (holding live (cardOf 13 7 0 7 1)).dispatched (takeOf (cardOf 13 7 0 7 1)) .declare ∧
    (holding live (cardOf 13 255 1023 7 1)).dispatched (takeOf (cardOf 13 255 1023 7 1)) .declare ∧
    live.incidents.cleared.length ≤ 8 ∧ (cardOf 13 8 0 0 0).target.toNat = 8 ∧ (cardOf 13 256 0 0 0).target ≠ 255 ∧
    (cardOf 13 7 0 7 1).target = BitVec.ofNat 16 (7 : Fin 8).val ∧ (cardOf 13 7 0 7 1).a1 = BitVec.ofNat 16 (7 : Fin 8).val ∧
    (cardOf 13 7 0 8 0).a1.toNat = 8 ∧ (cardOf 13 7 0 0 2).a2.toNat = 2 ∧ (cardOf 13 255 1024 0 0).a0.toNat = 1024 ∧
    (cardOf 13 255 1023 7 1).a0.toNat = 1023 ∧ (cardOf 13 255 0 0 0).target = 255 ∧ live.zones[(7 : Fin 8)].state ≠ .triggered ∧
    (zoneState { Zone.reset with state := .triggered }).zones[(0 : Fin 8)].state = .triggered ∧ ∀ z : Fin 8, live.mail.requests[z] = none :=
  ⟨held rfl rfl, held rfl rfl, held rfl rfl, by decide⟩

/-- The answers of DECLARE: target 8; template 8; niche 1024; a triggered zone; created for a zone and for a niche; full. -/
theorem test_declare :
    [cardOf 13 8 0 0 0, cardOf 13 0 0 8 0, cardOf 13 255 1024 0 0, cardOf 13 0 0 0 0].map (fun c => after .declareCard
      (holding (span12 (zoneState { Zone.reset with state := .triggered, ident := some ⟨12, 9⟩ })) c)
      (fun t => t.executor.bind (·.answer.map fun a => (a.reason, a.results)))) =
      [some (some (.badTarget, .words 0 0 0 0)), some (some (.badArgument, .words 0 0 0 0)), some (some (.badArgument, .words 0 0 0 0)),
       some (some (.busy, .words 0x0C09 0 0 0))] ∧
    [cardOf 13 7 0 7 1, cardOf 13 255 1023 7 1].map (fun c => after .declareCard (holding (span12 live) c)
      (fun t => (t.zones[7].ident, t.incidents.slots[0].map (·.position), t.executor.bind (·.answer.map (·.results))))) =
      [some (some ⟨12, 0⟩, some 0, some (.words 0x0C00 0 0 0)), some (none, some 1023, some (.words 0x0C00 0 0 0))] ∧
    after .declareCard (holding (full (record .detected ⟨12, 7⟩ .active)) (cardOf 13 255 0 0 0))
      (fun t => t.executor.bind (·.answer.map fun a => (a.reason, a.results))) = some (some (.tableFull, .words 0xFFFF 0 0 0)) := by
  decide +kernel

/-- A notice of another span, at the ends of its ranges. -/
def noticeOf (i : Ident) (st : NoticeState) : Notice :=
  { ident := i, state := st, position := 1023, template := 7, mirror := 1, age := 4, hops := 15 }

/-- A notice delivered to the incident unit. -/
def told (s : State) (n : Notice) : State := { s with mail := { Mail.empty with notices := [n] } }

/-- The record of slot 0 after a notice, by its state and resume state. -/
def slotAfter (s : State) (n : Notice) : Option (Option (IncidentState × Bool)) :=
  after .notice (told s n) fun t => t.incidents.slots[0].map fun r => (r.state, r.resumeAcknowledged)

/-- Put aside for span 12, 0 or 255, for position 1024, template 8 or mirror 2; and new. -/
theorem test_hyp_NoticesAreTakenByTheTable :
    (told (span12 live) (noticeOf ⟨13, 0⟩ .active)).running = true ∧
    (told (span12 live) (noticeOf ⟨13, 0⟩ .active)).mail.notices = noticeOf ⟨13, 0⟩ .active :: [] ∧
    [noticeOf ⟨12, 0⟩ .active, noticeOf ⟨0, 0⟩ .active, noticeOf ⟨255, 0⟩ .active, { noticeOf ⟨13, 0⟩ .active with position := 1024 },
      { noticeOf ⟨13, 0⟩ .active with template := 8 }, { noticeOf ⟨13, 0⟩ .active with mirror := 2 }].map (slotAfter (span12 live)) =
      List.replicate 6 (some none) ∧
    [NoticeState.active, .acknowledged].map (fun st => slotAfter (span12 live) (noticeOf ⟨13, 0⟩ st)) =
      [some (some (.active, false)), some (some (.acknowledged, true))] := by decide +kernel

/-- The states of a known record, for each state that a notice carries. -/
theorem test_known_identity :
    [IncidentState.active, .acknowledged, .stale, .clearing].map (fun st =>
      slotAfter (span12 (incidentState (record .notice ⟨13, 0⟩ st))) (noticeOf ⟨13, 0⟩ .clear)) =
      List.replicate 4 (some (some (.clearing, false))) ∧
    [IncidentState.active, .acknowledged, .stale, .clearing].map (fun st =>
      slotAfter (span12 (incidentState (record .notice ⟨13, 0⟩ st))) (noticeOf ⟨13, 0⟩ .active)) =
      [some (some (.active, false)), some (some (.acknowledged, false)), some (some (.active, false)), some (some (.clearing, false))] ∧
    [IncidentState.active, .acknowledged, .stale, .clearing].map (fun st =>
      slotAfter (span12 (incidentState (record .notice ⟨13, 0⟩ st))) (noticeOf ⟨13, 0⟩ .acknowledged)) =
      [some (some (.acknowledged, true)), some (some (.acknowledged, true)), some (some (.acknowledged, true)), some (some (.clearing, false))] := by
  decide +kernel

/-- An unknown identity: cleared, new to a full table, and held by the cleared-identity list. -/
theorem test_unknown_identity :
    (span12 live).incidents.Unknown ⟨13, 0⟩ ∧ LowestEmpty (span12 live).incidents 0 ∧
    after .notice (told (span12 live) (noticeOf ⟨13, 0⟩ .clear)) (fun t => (t.incidents.cleared.map (·.due), t.incidents.slots[0])) =
      some ([40000], none) ∧
    after .notice (told (full (record .notice ⟨14, 0⟩ .active)) (noticeOf ⟨13, 9⟩ .active))
      (fun t => (t.incidents.overflow, t.incidents.slots[3].map (·.ident))) = some (true, some ⟨14, 0⟩) ∧
    after .notice (told (span12 { live with incidents := { IncidentUnit.reset with cleared := [{ ident := ⟨13, 0⟩, joined := 0, due := 20000 }] } })
      (noticeOf ⟨13, 0⟩ .active)) (fun t => t.incidents.slots[0]) = some none := by
  refine ⟨⟨?_, nofun⟩, ⟨rfl, fun j hj => absurd hj (by simp)⟩, by decide +kernel⟩
  intro k r h
  have hn : ∀ j : Fin 4, (span12 live).incidents.slots[j] = none := by decide +kernel
  rw [hn k] at h
  cases h

/-- Slot 0 with its timers due. -/
def aged (st : IncidentState) (left due : Nat) : State :=
  span12 (incidentState { record .notice ⟨13, 0⟩ st with clearLeft := left, refreshDue := some due, staleDue := some due, clearingDue := some due })

theorem test_hyp_IncidentTimersExpireAndDeficitsAreWritten :
    (aged .active 2 10000).running = true ∧ (aged .active 2 10000).incidents.slots[(0 : Fin 4)].isSome = true ∧
    ({ live with mail := { Mail.empty with deficits := [3] } } : State).mail.deficits = 3 :: [] ∧
    [10000, 10001].map (fun due => after (.refreshTimerExpiry 0) (aged .acknowledged 0 due)
      (fun t => (t.mail.up.own.map (·.notice.state), t.incidents.slots[0].map (·.refreshDue)))) =
      [some ([.acknowledged], some (some 12000)), some ([], some (some 10001))] ∧
    [10000, 10001].map (fun due => after (.staleTimerExpiry 0) (aged .acknowledged 0 due)
      (fun t => t.incidents.slots[0].map fun r => (r.state, r.resumeAcknowledged))) =
      [some (some (.stale, true)), some (some (.acknowledged, false))] ∧
    [1, 0].map (fun left => after (.clearingTimerExpiry 0) (aged .clearing left 10000)
      (fun t => (t.incidents.slots[0].map (·.clearLeft), t.incidents.cleared.map (·.ident), t.mail.up.own.length))) =
      [some (some 0, [], 1), some (none, [⟨13, 0⟩], 0)] := by decide +kernel

/-- An entry of the cleared-identity list in its tick and before it; a deficit written into the governing record. -/
theorem test_cleared_and_deficit :
    [10000, 10001].map (fun due => after .clearedEntryExpiry
      { live with incidents := { IncidentUnit.reset with cleared := [{ ident := ⟨13, 0⟩, joined := 0, due := due }] } }
      (fun t => t.incidents.cleared.length)) = [some 0, some 1] ∧
    after .deficitDelivery { incidentState (record .detected ⟨12, 0⟩ .active) with mail := { Mail.empty with deficits := [3] } }
      (fun t => t.incidents.slots[0].map (·.deficit)) = some (some 3) ∧
    after .deficitDelivery { incidentState (record .detected ⟨12, 0⟩ .clearing) with mail := { Mail.empty with deficits := [3] } }
      (fun t => t.incidents.slots[0].map (·.deficit)) = some (some 0) := by decide +kernel

theorem test_hyp_AcknowledgeAndClearActOnTheRecord :
    (holding live (cardOf 14 0 0 0 0)).dispatched (takeOf (cardOf 14 0 0 0 0)) .acknowledge ∧
    (holding live (cardOf 14 0xFF00 0 0 0)).dispatched (takeOf (cardOf 14 0xFF00 0 0 0)) .acknowledge ∧
    (holding (aged .active 0 10000) (cardOf 14 0x0D00 0 0 0)).dispatched (takeOf (cardOf 14 0x0D00 0 0 0)) .acknowledge ∧
    (holding (aged .active 0 10000) (cardOf 15 0x0D00 0 0 0)).dispatched (takeOf (cardOf 15 0x0D00 0 0 0)) .clear ∧
    highByte (cardOf 14 0xFF00 0 0 0).target = 255 ∧ highByte (cardOf 14 0xFE00 0 0 0).target = 254 ∧
    highByte (cardOf 14 0x0100 0 0 0).target = 1 ∧ highByte (cardOf 14 0x0D00 0 0 0).target = 13 ∧
    (aged .active 0 10000).incidents.slots[(0 : Fin 4)].map (·.ident) = some ⟨13, 0⟩ ∧
    (∀ j : Fin 4, j ≠ 0 → (aged .active 0 10000).incidents.slots[j] = none) :=
  ⟨held rfl rfl, held rfl rfl, held rfl rfl, held rfl rfl, by decide⟩

/-- ACKNOWLEDGE of a local and of a NOTICE record, of no record and of span 0; CLEAR, and CLEAR of a CLEARING record. -/
theorem test_acknowledge_and_clear :
    [Origin.detected, .notice].map (fun o => after .acknowledgeCard
      (holding (span12 (incidentState (record o ⟨13, 0⟩ .active))) (cardOf 14 0x0D00 0 0 0))
      (fun t => (t.incidents.slots[0].map (·.state), t.mail.up.own.length))) = [some (some .acknowledged, 1), some (some .acknowledged, 0)] ∧
    [0x0D01, 0x0001].map (fun w => after .acknowledgeCard (holding (aged .active 0 10000) (cardOf 14 w 0 0 0))
      (fun t => t.executor.bind (·.answer.map (·.reason)))) = [some (some .unknownId), some (some .badTarget)] ∧
    [IncidentState.stale, .clearing].map (fun st => after .clearCard (holding (aged st 0 10000) (cardOf 15 0x0D00 0 0 0))
      (fun t => (t.incidents.slots[0].map (fun r => (r.state, r.clearLeft)), t.mail.up.own.length))) =
      [some (some (.clearing, 2), 1), some (some (.clearing, 0), 0)] := by decide +kernel

/-! ## Pattern placement -/

/-- Template 0 runs forward at 50 % at offset 0 and substitutes; fans 0 and 1 stand at niche 0, the others are gallery fans. -/
def placing (governing : Option Governing) : State :=
  { live with
    active := { live.active with
      span := { live.active.span with nicheCount := 8 }
      templates := live.active.templates.set 0
        { entries := (Vector.replicate 15 { action := .none, speed := 0 }).set 7 { action := .fwd, speed := 50 }, substitute := true, minRunning := 3 }
      fans := ((Vector.replicate 8 { fanItem with role := .gallery }).set 0 fanItem).set 1 { fanItem with niche := 1 } }
    placement := { PlacementUnit.reset with governing := governing } }

/-- The governing record at niche 0. -/
def governor : Governing := { ident := ⟨12, 0⟩, position := 0, template := 0, mirror := false }

/-- Placed for a governing record and for none; fan 0 lost, so fan 1 stands in; a fan item changed; a gallery fan lost. -/
theorem test_hyp_PlacementLaysThePatternOverTheSpan :
    (placing none).running = true ∧ (placing (some governor)).active.fans[(7 : Fin 8)].role = .gallery ∧
    (placing (some governor)).active.fans[(0 : Fin 8)].role = .jet ∧ (placing (some governor)).placement.governing ≠ none ∧
    [some governor, none].map (fun g => after .governingChange { placing none with mail := { Mail.empty with governing := [g] } }
      (fun t => (t.placement.record.list, t.placement.record.deficit))) =
      [some ([{ fan := 0, action := .run .fwd 50, standsFor := none }], 2), some ([], 0)] ∧
    [0, 7].map (fun f : Fin 8 => after (.availabilityChange f)
      { placing (some governor) with mail := { Mail.empty with availability := Mail.empty.availability.set f [false] } }
      (fun t => (t.placement.record.list, t.placement.record.unmet, t.placement.available[f]))) =
      [some ([{ fan := 1, action := .run .fwd 50, standsFor := some 0 }], 0, false), some ([], 0, false)] ∧
    after (.fanItemChange 0) { placing (some governor) with mail := { Mail.empty with fanItems := Mail.empty.fanItems.set 0 1 } }
      (fun t => (t.placement.record.running, t.mail.fanItems[0])) = some (1, 0) := by decide +kernel

/-! ## The span link -/

/-- A neighbour. -/
def hello13 : Hello := { spanId := 13, firstNiche := 8, nicheCount := 8, governing := none }

/-- A port that is UP. -/
def upPort : PortState :=
  { PortState.reset with neighbour := some { hello := hello13, lastHeard := 3, migrated := false, previous := 255 }, agingDue := some 10000 }

/-- The line idle and not; bytes being received, none, and ignored; good frames of each kind, a HELLO with and without a
governing identity, and bytes that fail at each check of R168. -/
theorem test_hyp_ReceivedBytesMakeGoodOrRejectedFrames :
    (portState upPort).running = true ∧ portEnabled (portState upPort).active .up = true ∧ portEnabled live.active .up = false ∧
    upPort.ignoring = false ∧ upPort.receiving = [] ∧ 9998 + 2 ≤ live.now ∧ ¬9999 + 2 ≤ live.now ∧ ([0x7E] : List Byte) ≠ [] ∧
    Spells (hello13.frame) (.queued (.hello hello13)) ∧
    Spells ({ hello13 with governing := some ⟨254, 7⟩ } : Hello).frame (.queued (.hello { hello13 with governing := some ⟨254, 7⟩ })) ∧
    Spells (noticeOf ⟨13, 0⟩ .active).frame (.queued (.incident (noticeOf ⟨13, 0⟩ .active))) ∧
    Spells (holdFrame 255) (.hold 255) ∧ BeginsFrame [0x7E] ∧ BeginsFrame [0x7E, 2] ∧ BeginsFrame [0x7E, 3, 1, 0, 0] ∧
    FailsCheck [0x7F] ∧ FailsCheck [0x7E, 4] ∧ FailsCheck [0x7E, 3, 2] ∧ FailsCheck [0x7E, 3, 1, 0, 0, 0] ∧
    FailsCheck (Notice.frame { noticeOf ⟨13, 0⟩ .active with hops := 16 }) ∧ FailsCheck (Hello.frame { hello13 with spanId := 255 }) := by
  refine ⟨rfl, rfl, rfl, rfl, rfl, by decide, by decide, by decide,
    .inl ⟨13, 8, 8, 0xFFFF, by decide, by decide, by decide +kernel, by decide⟩,
    .inl ⟨13, 8, 8, 0xFE07, by decide, by decide, by decide +kernel, by decide⟩, .inr (.inl ⟨_, by decide, rfl, rfl⟩),
    .inr (.inr ⟨255, rfl, rfl⟩), .inl rfl, .inr ⟨2, 10, by decide, .inl rfl⟩,
    .inr ⟨3, 1, by decide, .inr ⟨[0, 0], by decide, rfl⟩⟩, ?_⟩
  unfold FailsCheck
  refine ⟨.inl ⟨_, rfl, by decide⟩, .inr (.inl ⟨4, rfl, by decide⟩), .inr (.inr (.inl ⟨3, 2, rfl, by decide⟩)),
    .inr (.inr (.inr (.inl ⟨3, [0], 0, 0, .inr (.inr ⟨rfl, rfl⟩), rfl, by decide +kernel⟩))), .inr (.inr (.inr (.inr ⟨2, _, .inr (.inl ⟨rfl, rfl⟩), rfl, ?_⟩))),
    .inr (.inr (.inr (.inr ⟨1, _, .inl ⟨rfl, rfl⟩, rfl, ?_⟩)))⟩
  · exact .inl ⟨rfl, .inr ⟨16, rfl, by decide⟩⟩
  · exact .inr ⟨rfl, .inr (.inl rfl)⟩

/-- A frame in two pieces, a bad CRC, a broken frame, the end of an ignored run, and HOLD; the third and the fifth frame queued. -/
theorem test_reception :
    after (.frameReceive .up (hello13.frame.drop 5)) (portState { upPort with receiving := hello13.frame.take 5, idleSince := 9999 })
      (fun t => (t.link.up.receiveQueue, t.link.up.receiving)) = some ([.hello hello13], []) ∧
    after (.frameReceive .up [0x7E, 3, 1, 0, 0, 0]) (portState upPort) (fun t => (t.link.up.rejected, t.link.up.ignoring)) = some (1, true) ∧
    after (.incompleteFrame .up) (portState { upPort with receiving := [0x7E], idleSince := 9998 }) (fun t => t.link.up.rejected) = some 1 ∧
    after (.lineIdleAfterReject .up) (portState { upPort with ignoring := true, idleSince := 9998 }) (fun t => t.link.up.ignoring) = some false ∧
    [255, 0].map (fun n => after (.hold .up n) (portState upPort) (fun t => (t.link.up.holdDue, t.link.up.holdShown))) =
      [some (some 12550, 255), some (none, 0)] ∧
    [2, 4].map (fun n => after (.frameReceive .up hello13.frame) (portState { upPort with receiveQueue := List.replicate n (.hello hello13) })
      (fun t => (t.link.up.receiveQueue.length, t.link.up.pendingHold, t.link.up.overrun))) =
      [some (3, some 255, 0), some (4, none, 1)] := by decide +kernel

/-- A frame without an idle line before it is ignored, and so is one right after a good frame; after an idle line a frame begun
before it is given up, and a HOLD needs an idle line too. -/
theorem test_reception_idle :
    [9999, 9998].map (fun n => after (.frameReceive .up hello13.frame) (portState { upPort with idleSince := n })
      (fun t => (t.link.up.receiveQueue.length, t.link.up.rejected, t.link.up.idleSince))) = [some (0, 0, 10000), some (1, 0, 10000)] ∧
    after (.frameReceive .up (holdFrame 7 ++ holdFrame 9)) (portState upPort) (fun t => (t.link.up.holdShown, t.link.up.rejected)) =
      some (7, 0) ∧
    after (.frameReceive .up hello13.frame) (portState { upPort with receiving := [0x7E], idleSince := 9998 })
      (fun t => (t.link.up.receiveQueue.length, t.link.up.rejected)) = some (1, 1) ∧
    after (.hold .up 255) (portState { upPort with idleSince := 9999 }) (fun t => t.link.up.holdShown) = some 0 := by decide +kernel

/-- A HELLO that fills, refreshes and migrates the entry; an INCIDENT with and without hops left; the hold released at one frame. -/
theorem test_hyp_FramesAreTakenFromTheReceiveQueue :
    (portState { upPort with receiveQueue := [.hello hello13] }).running = true ∧
    ((portState { upPort with receiveQueue := [.hello hello13] }).link.get .up).receiveQueue = .hello hello13 :: [] ∧
    ((portState { upPort with receiveQueue := [.incident (noticeOf ⟨13, 0⟩ .active)] }).link.get .up).receiveQueue =
      .incident (noticeOf ⟨13, 0⟩ .active) :: [] ∧ PortState.reset.neighbour = none ∧ upPort.neighbour.map (·.hello.spanId) = some 13 := by decide +kernel

/-- What taking a frame leaves, in those cases. -/
theorem test_frames_taken :
    [PortState.reset, upPort, { upPort with neighbour := some { hello := { hello13 with spanId := 9 }, lastHeard := 3, migrated := false, previous := 255 } }].map
      (fun p => after (.helloTaken .up) (portState { p with receiveQueue := [.hello hello13] })
        (fun t => (t.link.up.neighbour.map fun e => (e.hello.spanId, e.migrated, e.previous), t.regs.has .link))) =
      [some (some (13, false, 255), true), some (some (13, false, 255), false), some (some (13, true, 9), true)] ∧
    [15, 0].map (fun h => after (.incidentFrameTaken .up)
      (portState { upPort with receiveQueue := [.incident { noticeOf ⟨13, 0⟩ .active with hops := h }] })
      (fun t => (t.mail.down.forwarded.map (·.notice.hops), t.mail.up.forwarded.length, t.mail.notices.length))) =
      [some ([14], 0, 1), some ([], 0, 1)] ∧
    [2, 3].map (fun n => after (.helloTaken .up) (portState { upPort with receiveQueue := List.replicate n (.hello hello13), holdMark := true })
      (fun t => (t.link.up.holdMark, t.link.up.pendingHold))) = [some (false, some 0), some (true, none)] := by decide +kernel

/-- A notice waiting to be queued. -/
def queued (o : NoticeOrigin) (n : Nat) : QueuedNotice := { notice := noticeOf ⟨14, BitVec.ofNat 8 n⟩ .active, origin := o, joined := 3 }

/-- The UP port with a transmit queue, and a notice of this origin handed to it. -/
def handed (o : NoticeOrigin) (n : Nat) (l : List TxEntry) : State :=
  { portState { upPort with transmitQueue := l } with
    mail := { Mail.empty with up := { own := if o = .own then [queued o n] else [], forwarded := if o = .own then [] else [queued o n] } } }

/-- What the transmit queue holds after the notice, by sequence (none for the HELLO), and the dropped count. -/
def queueAfter (o : NoticeOrigin) (n : Nat) (l : List TxEntry) : Option (List (Option Byte) × Nat) :=
  after (.noticeEnqueue .up o) (handed o n l) fun t => (t.link.up.transmitQueue.map fun e =>
    match e with
    | .notice q => some q.notice.ident.seq
    | .hello => none, t.link.up.dropped)

/-- Seven notices of one origin. -/
def seven (o : NoticeOrigin) : List TxEntry := [1, 2, 3, 4, 5, 6, 7].map fun n => .notice (queued o n)

/-- Empty, with room beside a HELLO, the identity queued, and full in each way of R177; a port that is DOWN. -/
theorem test_hyp_NoticesAreEnqueuedByClass :
    (handed .own 9 []).running = true ∧ ((handed .own 9 []).mail.port .up).of .own = queued .own 9 :: [] ∧
    ((handed .forwarded 9 []).mail.port .up).of .forwarded = queued .forwarded 9 :: [] ∧ TransmitWf ([] : List TxEntry) :=
  ⟨rfl, rfl, rfl, by decide, .nil⟩

/-- Where the notice stands, by the cases of that theorem. -/
theorem test_enqueue :
    queueAfter .own 9 [] = some ([some 9], 0) ∧ queueAfter .own 9 [.notice (queued .forwarded 1), .hello] = some ([some 9, some 1, none], 0) ∧
    queueAfter .own 1 (seven .forwarded) = some ([some 1, some 2, some 3, some 4, some 5, some 6, some 7], 0) ∧
    queueAfter .forwarded 9 (seven .own ++ [.hello]) = some ([some 1, some 2, some 3, some 4, some 5, some 6, some 7, some 9], 1) ∧
    queueAfter .own 9 (seven .own ++ [.notice (queued .forwarded 8)]) = some ([some 1, some 2, some 3, some 4, some 5, some 6, some 7, some 9], 1) ∧
    queueAfter .own 9 (seven .own ++ [.notice (queued .own 8)]) = some ([some 2, some 3, some 4, some 5, some 6, some 7, some 8, some 9], 1) ∧
    queueAfter .forwarded 9 (seven .own ++ [.notice (queued .own 8)]) =
      some ([some 1, some 2, some 3, some 4, some 5, some 6, some 7, some 8], 1) ∧
    after (.noticeEnqueue .up .own) { handed .own 9 [] with link := live.link }
      (fun t => (t.link.up.transmitQueue.length, t.link.up.dropped, t.mail.up.own.length)) = some (0, 0, 0) := by decide +kernel

/-- The full queues of that theorem stand as R175 says. -/
theorem test_full_queue : TransmitWf (seven .own ++ [.hello]) ∧ TransmitWf (seven .own ++ [.notice (queued .forwarded 8)]) ∧
    (seven .own ++ [TxEntry.hello]).length = 8 := by
  refine ⟨?_, ?_, rfl⟩ <;> simp [TransmitWf, seven, queued, noticeOf, TxEntry.place, TxEntry.Holds]

theorem test_hyp_LinkTimersExpire :
    (portState upPort).running = true ∧ 10000 ≤ live.now ∧ ((portState upPort).link.get .up).agingDue = some 10000 ∧
    after (.helloTimerExpiry .up) (portState { upPort with helloDue := some 10000 }) (fun t => (t.link.up.transmitQueue, t.link.up.helloDue)) =
      some ([.hello], some 11000) ∧
    after (.agingTimerExpiry .up) (portState { upPort with transmitQueue := [.notice (queued .own 1), .hello] })
      (fun t => (t.link.up.neighbour, t.link.up.transmitQueue, t.regs.has .link)) = some (none, [.hello], true) ∧
    after (.holdTimerExpiry .up) (portState { upPort with holdDue := some 10000, holdShown := 255 }) (fun t => (t.link.up.holdDue, t.link.up.holdShown)) =
      some (none, 0) ∧
    after (.holdRepeatExpiry .up) (portState { upPort with holdRepeatDue := some 10000, holdMark := true })
      (fun t => (t.link.up.pendingHold, t.link.up.holdRepeatDue)) = some (some 255, some 12000) := by decide +kernel

/-- The gap in its tick and before it (UP 3 ms, 7 ms after an own frame), a HOLD first, held, and the end of a frame. -/
theorem test_hyp_FramesAreChosenAndSent :
    (portState upPort).running = true ∧ portEnabled (portState upPort).active .up = true ∧ upPort.transmission = none ∧
    9997 + 3 ≤ live.now ∧ upPort.pendingHold = none ∧ upPort.holdDue = none ∧
    [9997, 9998].map (fun n => after (.frameBegin .up) (portState { upPort with transmitQueue := [.hello], idleSince := n })
      (fun t => (t.link.up.transmission.isSome, t.link.up.transmitQueue))) = [some (true, []), some (false, [.hello])] ∧
    [9993, 9994].map (fun n => after (.frameBegin .up) (portState { upPort with transmitQueue := [.hello], idleSince := n, ownLast := true })
      (fun t => t.link.up.transmission.isSome)) = [some true, some false] ∧
    after (.frameBegin .up) (portState { upPort with transmitQueue := [.hello], pendingHold := some 0, holdDue := some 10500 })
      (fun t => (t.link.up.transmission.map (·.bytes.length), t.link.up.transmitQueue)) = some (some 6, [.hello]) ∧
    after (.frameBegin .up) (portState { upPort with transmitQueue := [.hello], holdDue := some 10500 }) (fun t => t.link.up.transmission) =
      some none ∧
    after (.frameBegin .up) (portState { upPort with transmitQueue := [.notice { queued .own 1 with joined := 5 }] })
      (fun t => t.link.up.transmission.map fun f => (f.bytes.length, f.bytes[10]?, f.bytes[11]?)) = some (some (15, some 0, some 9)) ∧
    [9998, 9999].map (fun n => after (.frameEnd .up) (portState { upPort with transmission := some { bytes := holdFrame 0, began := n } })
      (fun t => (t.link.up.transmission.isNone, t.link.up.ownLast))) = [some (true, true), some (false, false)] := by decide +kernel

/-! ## What the commit of an item does -/

/-- A part whose span holds 8 niches. -/
def roomy : State := { live with active := { live.active with span := { live.active.span with nicheCount := 8 } } }

/-- The words of an item at the upper ends of its ranges. -/
def topWords (r : ItemRef) : List Word :=
  match r with
  | .gate _ => [3, 0xFFFF]
  | .channel _ => [5, 255, 3, 2, 0, 1, 0xFFFE, 0xFFFF, 0, 16, 1, 0, 1, 0, 1]
  | .zone _ => [0, 7, 7, 120, 7, 1]
  | .fan _ => [1, 7, 255, 8, 1, 100, 120, 60, 600, 1, 1, 100, 100, 0x0301, 0x0301, 0x0301]
  | .gallery => [100, 100, 100, 255, 0]
  | .door _ => [7, 1, 10, 3600, 30, 60, 0x0301, 0x0301, 0x0301]
  | .template _ => List.replicate 15 0x6404 ++ [1, 8]
  | _ => [1, 1]

/-- The take of a LOAD of the item. -/
def loadTake (r : ItemRef) : Take := takeOf (cardOf 2 (packed r.classNo r.index) 0 0 0)

theorem no_requests : ∀ z : Fin 8, Mail.empty.requests[z] = none := by decide

/-- Every class of item may be loaded by its last item, at the upper ends of the ranges. -/
theorem may_load : ∀ r ∈ [ItemRef.gate 3, .channel 11, .zone 7, .fan 7, .gallery, .door 3, .template 7, .link],
    (loading roomy r (topWords r)).MayLoad (loadTake r) r ∧ ∀ f : Fin 8, f ∉ (loading roomy r (topWords r)).fans.queue := by
  intro r hr
  refine ⟨⟨⟨rfl, rfl, rfl, ?_⟩, ?_, ?_, ?_, ?_, fun z _ => ?_, ?_⟩, fun f => ?_⟩
  · revert r; decide +kernel
  · revert r; decide +kernel
  · revert r; decide +kernel
  · revert r; decide +kernel
  · revert r; decide +kernel
  · exact no_requests z
  · revert r; decide +kernel
  · exact List.not_mem_nil

theorem test_hyp_LoadedGatesChannelsZonesAndTemplatesAct : ∀ r ∈ [ItemRef.gate 3, .channel 11, .zone 7, .template 7],
    (loading roomy r (topWords r)).MayLoad (loadTake r) r := fun r hr => (may_load r (by revert r; decide)).1

theorem test_hyp_LoadedFansDoorsGalleryAndLinkAct : ∀ r ∈ [ItemRef.fan 7, .door 3, .gallery, .link],
    (loading roomy r (topWords r)).MayLoad (loadTake r) r ∧ ∀ f : Fin 8, f ∉ (loading roomy r (topWords r)).fans.queue :=
  fun r hr => may_load r (by revert r; decide)

/-- The commits of a channel, a zone, a door, the gallery and the link. -/
theorem test_loads :
    after .loadCard (loading roomy (.channel 11) (topWords (.channel 11))) (fun t => (t.measured[11].binding, t.mail.reevaluations[0])) =
      some (.pending 3, 1) ∧
    after .loadCard (loading roomy (.zone 7) (topWords (.zone 7))) (fun t => (t.mail.zoneCommits, t.mail.reevaluations[7])) = some ([7], 1) ∧
    after .loadCard (loading roomy (.door 3) (topWords (.door 3))) (fun t => (t.contacts[9].activeLow, t.contacts[9].candidate)) =
      some (true, none) ∧
    after .loadCard (loading roomy .gallery (topWords .gallery)) (fun t => (t.active.gallery.pressureChannel, t.doors.pressure)) =
      some (none, .absent) ∧
    after .loadCard (loading roomy .link (topWords .link)) (fun t => (t.link.up.transmitQueue, t.link.down.helloDue)) =
      some ([.hello], some 11000) ∧
    after .loadCard (loading roomy (.fan 7) (topWords (.fan 7))) (fun t => (t.contacts[35].activeLow, t.tach[7].binding, t.mail.fanItems[7])) =
      some (true, .none, 1) := by decide +kernel

/-! ## What every step keeps -/

theorem steps_of {s : State} (h : (stepped s (·.now)).isSome = true) : ∃ t, step s = .next t := by
  unfold stepped at h
  split at h
  · exact ⟨_, by assumption⟩
  · cases h

/-- The live part takes a step. -/
theorem live_steps : ∃ t, step live = .next t := steps_of (by decide +kernel)

theorem test_hyp_EveryStepKeepsTheMemoryCanonical : MemoryWf live ∧ ∃ t, step live = .next t := by
  refine ⟨⟨rfl, fun w n h => ?_, fun n _ => ?_⟩, live_steps⟩
  · revert h; simp [live, State.reset]
  · simp [live, Registers.reset]

/-- A live part whose deck 0 has its card in flight. -/
theorem test_hyp_EveryStepKeepsTheDecksInOrder :
    let s := flying (cardOf 1 0 0 0 0) none
    DecksWf s ∧ ∃ t, step s = .next t := by
  have others : ∀ k : Fin 4, k ≠ 0 → (flying (cardOf 1 0 0 0 0) none).decks[k] = Deck.reset := by decide +kernel
  have first : (flying (cardOf 1 0 0 0 0) none).decks[(0 : Fin 4)] =
      { posted with state := .running, taken := 0x1000, inFlight := some { slot := 0, card := cardOf 1 0 0 0 0, deadline := none } } := rfl
  have idle : ¬Deck.reset.InUse := fun h => h.1 rfl
  refine ⟨⟨fun d => ?_, fun j k hjk hj hk => ?_⟩, steps_of (by decide +kernel)⟩
  · by_cases h : d = 0
    · subst h; rw [first]; simp [posted, Deck.reset, Deck.InUse, Deck.LaidOut]
    · rw [others d h]; simp [Deck.reset, Deck.InUse]
  · by_cases h : j = 0
    · exact absurd ((others k fun e => hjk (h.trans e.symm)) ▸ hk) idle
    · exact absurd (others j h ▸ hj) idle

theorem test_hyp_EveryStepKeepsChannelsAndZonesInOrder : ChannelsWf live ∧ ZonesWf live ∧ ∃ t, step live = .next t := by
  refine ⟨?_, ?_, live_steps⟩
  · simp [ChannelsWf, Pulse.FilterWf, live, State.reset, Pulse.reset, Channel.reset]
  · simp [ZonesWf, live, State.reset, Zone.reset, Mail.empty]

theorem test_hyp_EveryStepKeepsTheStartQueueAndSlots : FansWf live ∧ ∃ t, step live = .next t := by
  refine ⟨⟨by decide, by simp [ClassesInOrder, live, State.reset, FanUnit.reset], by simp [live, State.reset, FanUnit.reset], by decide,
    .inl rfl, ?_⟩, live_steps⟩
  intro f
  simp [live, State.reset, FanUnit.reset, Fan.reset, OwnedByHighest]

theorem test_hyp_EveryStepKeepsTheDoorsInOrder : DoorsWf live ∧ ∃ t, step live = .next t := by
  refine ⟨?_, live_steps⟩
  simp [DoorsWf, DemandFollowsDoors, live, State.reset, DoorUnit.reset, Door.reset, GalleryIncident, SecureWanted]

/-- A live part with one governing record. -/
theorem test_hyp_EveryStepKeepsIdentitiesUnique :
    let s := incidentState (record .detected ⟨12, 0⟩ .active)
    IncidentsWf s ∧ ∃ t, step s = .next t := by
  refine ⟨?_, steps_of (by decide +kernel)⟩
  have others : ∀ k : Fin 4, k ≠ 0 → (incidentState (record .detected ⟨12, 0⟩ .active)).incidents.slots[k] = none := by decide +kernel
  have only : ∀ (k : Fin 4) (r : Incident), (incidentState (record .detected ⟨12, 0⟩ .active)).incidents.slots[k] = some r →
      k = 0 ∧ r = record .detected ⟨12, 0⟩ .active := by
    intro k r h
    by_cases hk : k = 0
    · subst hk; cases h; exact ⟨rfl, rfl⟩
    · rw [others k hk] at h; cases h
  refine ⟨fun j k q r hq hr _ => (only j q hq).1.trans (only k r hr).1.symm, fun _ _ _ => nofun, List.nodup_nil, by decide, ?_⟩
  refine ⟨fun k r hr hg => ⟨?_, fun j q hq _ => ?_⟩, fun j k q r hq hr _ _ => (only j q hq).1.trans (only k r hr).1.symm,
    fun _ => ⟨0, _, rfl, rfl⟩, fun k r hr hg => ?_⟩
  · rw [(only k r hr).2]; decide
  · rw [(only k r hr).2, (only j q hq).2]; simp [Incident.Earlier]
  · rw [(only k r hr).2] at hg; cases hg

/-- A live part with the UP port UP. -/
theorem test_hyp_EveryStepKeepsThePortsInOrder :
    LinkWf (portState upPort) ∧ ∃ t, step (portState upPort) = .next t := by
  refine ⟨⟨by decide, fun p => ?_⟩, steps_of (by decide +kernel)⟩
  cases p <;> simp [portState, upPort, live, LinkUnit.reset, PortState.reset, LinkUnit.get, TransmitWf, portEnabled]

end Sys2Proof.Tests
end

/-! Commands that answer a card: what a dispatched card makes of an event, and that an answer alone publishes nothing. -/

namespace Sys2Proof.Machine

/-! ## Nothing to publish (R6, R7) -/

/-- A word with no bit chosen is zero. -/
theorem bitsOf_false (n : Nat) : bitsOf n (fun _ => false) = 0 := by
  unfold bitsOf
  induction List.range n with
  | nil => rfl
  | cons k ks ih => simp [flagBit]

/-- A test that fails at every index in range fails everywhere. -/
theorem below_false (n : Nat) : below n (fun _ => false) = fun _ => false := by
  funext k
  simp [below]

/-- Where every record shows the same, none has changed. -/
theorem recordChanged_eq_false {b a : State} (hrecords : ∀ r, a.recordBody r = b.recordBody r) (r : RecordId) :
    recordChanged b a r = false := by
  simp [recordChanged, hrecords]

/-- Where every record shows the same and the decks stay, no change mask bit is to be set. -/
theorem changedBits_eq_zero {b a : State} (hrecords : ∀ r, a.recordBody r = b.recordBody r) (hdecks : a.decks = b.decks)
    (w : Fin 8) : changedBits b a w = 0 := by
  have hrecord := recordChanged_eq_false hrecords
  have hdeck (d : Fin 4) : deckChanged b a d = false := by simp [deckChanged, hdecks]
  unfold changedBits
  split <;> simp [hrecord, hdeck, below_false, bitsOf_false, flagBit]

/-- Where every record shows the same and the decks stay, publishing changes nothing. -/
theorem publish_eq_self {b a : State} (hrecords : ∀ r, a.recordBody r = b.recordBody r) (hdecks : a.decks = b.decks) :
    publish b a = a := by
  have hrecord := recordChanged_eq_false hrecords
  simp [publish, changedBits_eq_zero hrecords hdecks, hrecord, Registers.raiseIf]

/-! ## Answers to a dispatched card (R28) -/

/-- No record shows what stands at the executor. -/
@[simp] theorem reply_recordBody (t : Take) (a : Answer) (s : State) (r : RecordId) :
    (s.reply t a).recordBody r = s.recordBody r := by
  cases r <;> rfl

/-- An answer has nothing to publish. -/
theorem publish_reply (t : Take) (a : Answer) (s : State) : publish s (s.reply t a) = s.reply t a :=
  publish_eq_self (reply_recordBody t a s) (reply_decks t a s)

/-- The event of a dispatched card's kind hands the card to its owning block, and what that makes of it is published. -/
theorem internal_dispatched {s : State} {t : Take} {k : CardKind} (h : s.dispatched t k) (act : Take → State → State) :
    internal s (s.cardWaiting k) (State.dispatch act) = .next (publish s (act t s)) := by
  obtain ⟨hrunning, hexecutor, hanswer, hkind⟩ := h
  have hwaiting : s.cardWaiting k = true := cardWaiting_iff.mpr ⟨t, hexecutor, hanswer, hkind⟩
  rw [internal_acts hrunning hwaiting, dispatch_some act hexecutor]

/-- A block that only gives an answer changes nothing else in the part. -/
theorem answersAlone_of_reply {c : Instr} {s : State} {t : Take} {k : CardKind} {act : Take → State → State} {a : Answer}
    (h : s.dispatched t k) (hexec : exec c s = internal s (s.cardWaiting k) (State.dispatch act))
    (hact : act t s = s.reply t a) : AnswersAlone c s t a := by
  unfold AnswersAlone
  rw [hexec, internal_dispatched h, hact, publish_reply]
  rfl

/-- Settles O17: the block of a MARK looks at nothing of the card and only answers. -/
theorem markIsAnsweredDoneAtOnce : Obligations.MarkIsAnsweredDoneAtOnce :=
  fun _ _ h => answersAlone_of_reply h rfl rfl

end Sys2Proof.Machine

/-! Control events at a deck (R21 to R26): the layout checks, what an event at a deck processor can do, and the change it shows. -/

namespace Sys2Proof.Machine

/-! ## The checks of R22 -/

/-- The decks whose card area counts. -/
theorem holdsArea_iff (d : Deck) :
    d.holdsArea = true ↔ d.state ≠ .off ∧ ¬(d.state = .stopped ∧ d.error = .header) := by
  unfold Deck.holdsArea
  cases d.state <;> simp

/-- The check against another deck: it holds no area, or its area lies above or below. -/
theorem clearOf_iff (d other : Deck) :
    d.clearOf other = true ↔ (other.state ≠ .off → ¬(other.state = .stopped ∧ other.error = .header) →
      d.baseWord.toNat + 32 * d.lengthWord.toNat ≤ other.base ∨ other.base + 32 * other.length ≤ d.baseWord.toNat) := by
  rw [← and_imp, ← holdsArea_iff]
  cases h : other.holdsArea <;> simp [Deck.clearOf, h]

/-- The checks that the processor makes are the four of R22. -/
theorem deckValid_iff (s : State) (d : Fin 4) : s.deckValid d = true ↔ s.layoutValid d := by
  simp only [State.deckValid, Deck.headerOk, State.layoutValid, Bool.and_eq_true, decide_eq_true_eq, List.all_eq_true,
    List.mem_finRange, true_implies, Bool.or_eq_true, clearOf_iff, or_iff_not_imp_left (a := _ = d), and_assoc, ne_eq]

/-! ## One event at a deck processor (R23, R26) -/

/-- A conditional raise on a decidable condition. -/
theorem raiseIf_decide (r : Registers) (p : Prop) [Decidable p] (c : Cause) :
    r.raiseIf (decide p) c = if p then r.raise c else r := by
  simp [Registers.raiseIf]

/-- The oldest event leaves the deliveries. -/
theorem popDeckEvent_eq {s : State} {d : Fin 4} {e : DeckEvent} {rest : List DeckEvent}
    (h : s.mail.deckEvents[d] = e :: rest) :
    s.popDeckEvent d = { s with mail := { s.mail with deckEvents := s.mail.deckEvents.set d rest } } := by
  simp [State.popDeckEvent, modify, h]

/-- The event at deck d puts what it makes of that deck in its place. -/
theorem deckEvent_decks (d : Fin 4) (act : Deck → Deck) (s : State) :
    (s.deckEvent d act).decks = s.decks.set d (act s.decks[d]) := by
  simp only [State.deckEvent]
  split <;> rfl

/-- The deck that the event is taken at. -/
theorem deckEvent_deck_same (d : Fin 4) (act : Deck → Deck) (s : State) :
    (s.deckEvent d act).decks[d] = act s.decks[d] := by
  simp [deckEvent_decks]

/-- Every other deck stays. -/
theorem deckEvent_deck_other {d k : Fin 4} (act : Deck → Deck) (s : State) (h : k ≠ d) :
    (s.deckEvent d act).decks[k] = s.decks[k] := by
  rw [deckEvent_decks]
  exact set_get_other _ _ h

/-- DECK is set on entry to STOPPED. -/
theorem deckEvent_regs (d : Fin 4) (act : Deck → Deck) (s : State) :
    (s.deckEvent d act).regs =
      if (act s.decks[d]).state = .stopped ∧ s.decks[d].state ≠ .stopped then s.regs.raise .deck else s.regs := by
  rw [← raiseIf_decide, Bool.decide_and]
  simp only [State.deckEvent]
  split <;> rfl

/-- A card in flight that the event abandons is detached. -/
theorem deckEvent_of_abandoned {d : Fin 4} {act : Deck → Deck} {s : State}
    (hflight : s.decks[d].inFlight.isSome = true) (hnone : (act s.decks[d]).inFlight = none) :
    s.deckEvent d act = { s.detach d with decks := (s.deckEvent d act).decks, regs := (s.deckEvent d act).regs } := by
  simp only [State.deckEvent, hflight, hnone, Option.isNone_none, Bool.and_self, if_true]

/-- An event that abandons no card changes the decks and ATTENTION alone. -/
theorem deckEvent_of_not_abandoned {d : Fin 4} {act : Deck → Deck} {s : State}
    (h : s.decks[d].inFlight = none ∨ (act s.decks[d]).inFlight.isSome = true) :
    s.deckEvent d act = { s with decks := (s.deckEvent d act).decks, regs := (s.deckEvent d act).regs } := by
  have hkept : (s.decks[d].inFlight.isSome && (act s.decks[d]).inFlight.isNone) = false := by
    rw [Bool.and_eq_false_iff]
    exact h.imp (by simp +contextual) (by simp +contextual)
  simp only [State.deckEvent, hkept, Bool.false_eq_true, if_false]

/-- A pending zero loses the deck's card and goes on. -/
theorem detach_channel (d : Fin 4) (s : State) (c : Fin 12) :
    (s.detach d).channels[c] =
      if s.channels[c].zeroCard = some d then { s.channels[c] with zero := some { card := none } } else s.channels[c] := by
  simp only [State.detach]
  exact mapTable_get s.channels _ c

/-- A fan loses the deck's card. -/
theorem detach_fan (d : Fin 4) (s : State) (f : Fin 8) :
    (s.detach d).fans.fans[f] =
      { s.fans.fans[f] with attached := s.fans.fans[f].attached.filter fun k => decide (k ≠ d) } := by
  simp only [State.detach]
  exact mapTable_get s.fans.fans _ f

/-- Detaching removes every attachment of the deck's card, and no operation. -/
theorem detach_detached (d : Fin 4) (s : State) : Detached s (s.detach d) d := by
  refine ⟨fun c => ?_, detach_fan d s, rfl, rfl⟩
  rw [detach_channel]
  split
  next hcard =>
    obtain ⟨z, hzero, -⟩ := Option.bind_eq_some_iff.mp hcard
    exact ⟨rfl, by rw [hzero]; rfl, nofun, fun hother => absurd hcard hother⟩
  next hother => exact ⟨rfl, rfl, hother, fun _ => rfl⟩

/-- Whatever the processor does with its deck, an event at it keeps to the frame of a deck event. -/
theorem deckEvent_deckEventFrame (d : Fin 4) (act : Deck → Deck) (s : State) :
    DeckEventFrame s (s.deckEvent d act) d := by
  refine ⟨fun k hk => deckEvent_deck_other act s hk, ?_, fun hflight hnone => ?_, fun hkept => ?_, ?_⟩
  · rw [deckEvent_deck_same]
    exact deckEvent_regs d act s
  · rw [deckEvent_deck_same] at hnone
    rw [deckEvent_of_abandoned hflight hnone]
    exact detach_detached d s
  · rw [deckEvent_deck_same] at hkept
    exact deckEvent_of_not_abandoned hkept
  · simp only [State.deckEvent]
    split <;> rfl

/-! ## The change that a control value shows (R21) -/

/-- The deck with a control value as the last seen. -/
def Deck.seeing (v : Word) (d : Deck) : Deck := { d with seenEnable := v.getLsbD 0, seenSuspend := v.getLsbD 1 }

section
variable {d : Deck} {v : Word} (valid : Bool)

/-- ENABLE 0 → 1. -/
theorem control_enable (hv : v.getLsbD 0 = true) (hd : d.seenEnable = false) :
    d.control valid v = (d.enable valid (v.getLsbD 1)).seeing v := by
  simp [Deck.control, Deck.seeing, -BitVec.getLsbD_eq_getElem, hv, hd]

/-- ENABLE 1 → 0, whatever the SUSPEND bit. -/
theorem control_disable (hv : v.getLsbD 0 = false) (hd : d.seenEnable = true) :
    d.control valid v = d.disable.seeing v := by
  simp [Deck.control, Deck.seeing, -BitVec.getLsbD_eq_getElem, hv, hd]

/-- ENABLE stays 1, SUSPEND 0 → 1. -/
theorem control_suspend (hv : v.getLsbD 0 = true) (hd : d.seenEnable = true) (hs : v.getLsbD 1 = true)
    (ho : d.seenSuspend = false) : d.control valid v = d.suspend.seeing v := by
  simp [Deck.control, Deck.seeing, -BitVec.getLsbD_eq_getElem, hv, hd, hs, ho]

/-- ENABLE stays 1, SUSPEND 1 → 0. -/
theorem control_resume (hv : v.getLsbD 0 = true) (hd : d.seenEnable = true) (hs : v.getLsbD 1 = false)
    (ho : d.seenSuspend = true) : d.control valid v = d.resume.seeing v := by
  simp [Deck.control, Deck.seeing, -BitVec.getLsbD_eq_getElem, hv, hd, hs, ho]

/-- ENABLE stays 0, or neither bit changes. -/
theorem control_recorded (hd : v.getLsbD 0 = d.seenEnable) (hs : v.getLsbD 0 = false ∨ v.getLsbD 1 = d.seenSuspend) :
    d.control valid v = d.seeing v := by
  rcases hs with hs | hs
  · simp [Deck.control, Deck.seeing, -BitVec.getLsbD_eq_getElem, ← hd, hs]
  · cases ho : d.seenSuspend <;> simp [Deck.control, Deck.seeing, -BitVec.getLsbD_eq_getElem, ← hd, hs, ho]

end

/-- SUSPEND set, by state (R25). -/
theorem suspend_eq (d : Deck) : d.suspend = { d with state :=
    if d.state = .waiting then .suspended else if d.state = .running then .suspendPending else d.state } := by
  obtain ⟨_, _, _, _, state⟩ := d
  cases state <;> rfl

/-- SUSPEND cleared, by state (R25). -/
theorem resume_eq (d : Deck) : d.resume = { d with state :=
    if d.state = .suspended then .waiting else if d.state = .suspendPending then .running else d.state } := by
  obtain ⟨_, _, _, _, state⟩ := d
  cases state <;> rfl

/-! ## CONTROL_EVENT -/

/-- A control event that has come about is taken at its deck, and the layout it may need is checked in the state before it. -/
theorem controlEvent_acts {s : State} {d : Fin 4} {v : Word} {rest : List DeckEvent} {post : State → Prop}
    (hrunning : s.running = true) (hsettled : s.decks[d].finishing = none)
    (hevent : s.mail.deckEvents[d] = .control v :: rest)
    (hpost : post (({ s with mail := { s.mail with deckEvents := s.mail.deckEvents.set d rest } } : State).deckEvent d
      (Deck.control (s.deckValid d) v))) :
    Acts (.controlEvent d) s post := by
  have hwaiting : s.controlWaiting d = true := by
    simp only [State.controlWaiting, Deck.settled, hsettled, hevent, Option.isNone_none, Bool.and_self]
  refine ⟨_, ?_, hpost⟩
  change execControlEvent d s = _
  simp only [execControlEvent, internal_acts hrunning hwaiting, hevent, popDeckEvent_eq hevent]

/-- Settles O13: the frame is that of every deck event, and the deck is the one of R21's table for the change shown. -/
theorem controlEventActsOnTheChangeItShows : Obligations.ControlEventActsOnTheChangeItShows := by
  intro d v rest s hrunning hsettled hevent
  refine controlEvent_acts hrunning hsettled hevent ⟨fun hv hseen hlayout => ?enabled, fun hv hseen hlayout => ?refused,
    fun hv hseen => ?disabled, fun hv hseen hs ho => ?suspended, fun hv hseen hs ho => ?resumed,
    fun hseen hs => ?recorded, deckEvent_deckEventFrame d _ _⟩
  all_goals rw [deckEvent_deck_same]
  case enabled =>
    rw [control_enable _ hv hseen, (deckValid_iff s d).mpr hlayout]
    rfl
  case refused =>
    rw [control_enable _ hv hseen, Bool.eq_false_iff.mpr (mt (deckValid_iff s d).mp hlayout)]
    rfl
  case disabled =>
    rw [control_disable _ hv hseen]
    rfl
  case suspended =>
    rw [control_suspend _ hv hseen hs ho, suspend_eq]
    rfl
  case resumed =>
    rw [control_resume _ hv hseen hs ho, resume_eq]
    rfl
  case recorded =>
    rw [control_recorded _ hseen hs]
    rfl

end Sys2Proof.Machine

/-! READ and CLEAR_SUMMARY (R68, R69): how a target names its object, and what the two blocks answer. -/

namespace Sys2Proof.Machine

/-! ## Targets (R32) -/

/-- The word of an index names its object. -/
theorem targetIndex_ofNat {n : Nat} (i : Fin n) (hn : n ≤ 65536) : targetIndex n (BitVec.ofNat 16 i.val) = some i := by
  have hword : (BitVec.ofNat 16 i.val).toNat = i.val := by
    rw [BitVec.toNat_ofNat]
    omega
  simp [targetIndex, hword]

/-- A word past the last index names no object. -/
theorem targetIndex_of_le {n : Nat} {w : Word} (h : n ≤ w.toNat) : targetIndex n w = none := by
  simp [targetIndex, Nat.not_lt.mpr h]

/-- A card on an object of a class is refused BAD_TARGET, and does nothing else, where its target names none. -/
theorem refuses_badTarget {c : Instr} {s : State} {t : Take} {k : CardKind} {n : Nat} {act : Fin n → Take → State → State}
    (h : s.dispatched t k) (hexec : exec c s = internal s (s.cardWaiting k) (State.dispatch (State.onTarget n act)))
    (htarget : n ≤ t.card.target.toNat) : Refuses c s t .badTarget :=
  answersAlone_of_reply h hexec (onTarget_none act s (targetIndex_of_le htarget))

/-- A card whose target names an object acts on that object. -/
theorem onTarget_ofNat {n : Nat} {i : Fin n} {t : Take} (act : Fin n → Take → State → State) (s : State)
    (hn : n ≤ 65536) (htarget : t.card.target = BitVec.ofNat 16 i.val) : State.onTarget n act t s = act i t s :=
  onTarget_some act s (htarget ▸ targetIndex_ofNat i hn)

/-- A dispatched card acts as its owning block makes of it. -/
theorem acts_dispatched {c : Instr} {s : State} {t : Take} {k : CardKind} {act : Take → State → State} {post : State → Prop}
    (h : s.dispatched t k) (hexec : exec c s = internal s (s.cardWaiting k) (State.dispatch act)) (hpost : post (act t s)) :
    Acts c s post :=
  ⟨act t s, hexec.trans (internal_dispatched h act), hpost⟩

/-! ## READ (R68, R37) -/

/-- The average in a result word, 0 where there is none (R63). -/
theorem wordInt_average (h : List Int) :
    wordInt ((average h).getD 0) = if h = [] then 0 else BitVec.ofInt 16 (averageOf h) := by
  cases h <;> rfl

/-- The comparison code of a history with a0 (R37). -/
theorem comparison_average (h : List Int) (a0 : Int) :
    comparison (average h) a0 =
      if h = [] then 0 else if averageOf h < a0 then 1 else if averageOf h = a0 then 2 else 3 := by
  cases h <;> rfl

/-- The flags of a channel, NO_DATA where the history is empty (R59). -/
theorem flagsAndCount_eq (c : Channel) :
    c.flagsAndCount = (flagBit 0 (decide (c.history = [])) ||| flagBit 1 c.summary ||| flagBit 2 c.out |||
      flagBit 3 c.zero.isSome ||| wordOf 0 (BitVec.ofNat 8 c.history.length)) := by
  have hempty : c.history.isEmpty = decide (c.history = []) := by cases c.history <;> rfl
  rw [Channel.flagsAndCount, Channel.flagWord, hempty]

/-- A READ of a channel only answers, with the channel's values. -/
theorem read_answersAlone {t : Take} {s : State} {c : Fin 12} (h : s.dispatched t .read)
    (htarget : t.card.target = BitVec.ofNat 16 c.val) :
    AnswersAlone .readCard s t (readAnswer s.channels[c] t.card) :=
  answersAlone_of_reply h rfl (onTarget_ofNat _ s (by decide) htarget)

/-! ## CLEAR_SUMMARY (R69) -/

/-- In ALARM the SUMMARY stays and the answer is 1. -/
theorem clearSummary_alarm {c : Fin 12} {s : State} (t : Take) (h : s.channels[c].band = .alarm) :
    s.clearSummary c t = s.reply t (.plain .done 1 0) := by
  simp only [State.clearSummary, h, if_true]

/-- Outside ALARM the SUMMARY is cleared and the answer is 0. -/
theorem clearSummary_of_not_alarm {c : Fin 12} {s : State} (t : Take) (h : s.channels[c].band ≠ .alarm) :
    s.clearSummary c t = State.reply t (.plain .done 0 0)
      { s with channels := s.channels.set c { s.channels[c] with summary := false } } := by
  simp only [State.clearSummary, h, if_false]

/-! ## The obligation -/

/-- Settles O26: an answer of READ depends on the channel and the card alone, and CLEAR_SUMMARY turns on the band. -/
theorem readAndClearSummaryAnswerForTheChannel : Obligations.ReadAndClearSummaryAnswerForTheChannel := by
  refine ⟨fun t s h => ⟨refuses_badTarget h rfl, fun c htarget => ?read⟩,
    fun t s h => ⟨refuses_badTarget h rfl, fun c htarget => ?clear⟩⟩
  case read =>
    have hread := read_answersAlone h htarget
    rw [readAnswer, wordInt_average, comparison_average, flagsAndCount_eq] at hread
    exact hread
  case clear =>
    have honChannel := onTarget_ofNat State.clearSummary s (by decide) htarget
    refine ⟨fun halarm => ?alarm, fun hband => ?cleared⟩
    case alarm =>
      exact answersAlone_of_reply h rfl (honChannel.trans (clearSummary_alarm t halarm))
    case cleared =>
      refine acts_dispatched h rfl ?_
      rw [honChannel, clearSummary_of_not_alarm t hband]
      exact ⟨rfl, rfl⟩

end Sys2Proof.Machine

/-! The door cards (R125 to R127): each changes the one door that it names, in an event of the door controller, and answers DONE. -/

namespace Sys2Proof.Machine

/-! ## Arguments -/

/-- A card on an object whose block refuses its arguments does nothing else. -/
theorem refuses_badArgument {c : Instr} {s : State} {t : Take} {k : CardKind} {n : Nat} {i : Fin n}
    {act : Fin n → Take → State → State} (h : s.dispatched t k)
    (hexec : exec c s = internal s (s.cardWaiting k) (State.dispatch (State.onTarget n act))) (hn : n ≤ 65536)
    (htarget : t.card.target = BitVec.ofNat 16 i.val) (hact : act i t s = s.reply t (.refuse .badArgument)) :
    Refuses c s t .badArgument :=
  answersAlone_of_reply h hexec ((onTarget_ofNat act s hn htarget).trans hact)

/-- An argument that spells a choice of two is in range, and is 1 for the second of them. -/
theorem choice_of_ofNat {w : Word} {b : Bool} (h : w = BitVec.ofNat 16 (if b then 1 else 0)) :
    ¬1 < w.toNat ∧ (w == 1) = b := by
  subst h
  cases b <;> decide

/-- A flag in a result word. -/
theorem wordNat_boolNat (b : Bool) : wordNat (boolNat b) = if b then 1 else 0 := by
  cases b <;> rfl

/-! ## One door changes (R110, R123) -/

/-- The door that changes. -/
theorem change_door_same (x : Ctx) (d : Fin 4) (f : DoorItem → Door → Door) (u : DoorUnit) :
    (u.change x d f).doors[d] = f x.cfg.doors[d] u.doors[d] :=
  modify_get_same u.doors d _

/-- Every other door stays. -/
theorem change_door_other (x : Ctx) {d k : Fin 4} (f : DoorItem → Door → Door) (u : DoorUnit) (h : k ≠ d) :
    (u.change x d f).doors[k] = u.doors[k] :=
  modify_get_other u.doors _ h

/-- The door after an event of the controller that changes it. -/
theorem doorEvent_change_door (s : State) (d : Fin 4) (f : DoorItem → Door → Door) :
    (s.doorEvent fun u => u.change s.ctx d f).doors.doors[d] = f s.active.doors[d] s.doors.doors[d] := by
  obtain ⟨-, -, hdoors⟩ := doorEvent_reach s fun u => u.change s.ctx d f
  rw [hdoors]
  exact change_door_same s.ctx d f s.doors

/-- An event of the controller that changes one door is for that door alone. -/
theorem doorEvent_change_frame (s : State) (d : Fin 4) (f : DoorItem → Door → Door) :
    DoorEventFrame s (s.doorEvent fun u => u.change s.ctx d f) (· = d) :=
  doorEvent_frame s _ _ (fun _ hk => change_door_other s.ctx f s.doors hk) rfl rfl

/-- An answer that follows an event of the door controller keeps to the event's frame, with the answer at the executor. -/
theorem doorEventFrame_reply {s a : State} {acted : Fin 4 → Prop} (h : DoorEventFrame s a acted) (t : Take) (r : Answer) :
    DoorEventFrame { s with executor := (a.reply t r).executor } (a.reply t r) acted := by
  obtain ⟨hothers, hdemand, hsame, hchanged, hrest⟩ := h
  exact ⟨hothers, hdemand, hsame, hchanged, congrArg (State.reply t r) hrest⟩

/-- A dispatched card that changes the door it names and answers DONE: what may be said of the state after it. -/
theorem acts_doorCard {c : Instr} {s : State} {t : Take} {k : CardKind} {d : Fin 4}
    {act : Fin 4 → Take → State → State} {f : DoorItem → Door → Door} {r0 r1 : Word} {post : State → Prop}
    (h : s.dispatched t k) (hexec : exec c s = internal s (s.cardWaiting k) (State.dispatch (State.onTarget 4 act)))
    (htarget : t.card.target = BitVec.ofNat 16 d.val)
    (hact : act d t s = (s.doorEvent fun u => u.change s.ctx d f).reply t (.plain .done r0 r1))
    (hpost : ∀ a : State, a.doors.doors[d] = f s.active.doors[d] s.doors.doors[d] → DoneWith a t r0 r1 →
      (a.doors.reach = s.doors.reach ∧ a.doors.pressure = s.doors.pressure ∧
        DoorEventFrame { s with executor := a.executor } a (· = d)) → post a) :
    Acts c s post := by
  refine acts_dispatched h hexec ?_
  rw [onTarget_ofNat act s (by decide) htarget, hact]
  obtain ⟨hreach, hpressure, -⟩ := doorEvent_reach s fun u => u.change s.ctx d f
  exact hpost _ (doorEvent_change_door s d f) rfl
    ⟨hreach, hpressure, doorEventFrame_reply (doorEvent_change_frame s d f) t _⟩

/-! ## DOOR_MODE (R125) -/

/-- What DOOR_MODE does to its door: the mode is stored, and a change of secure wanted under it is taken. -/
def Door.takeMode (x : Ctx) (reach : List ReachEntry) (d : Fin 4) (secure : Bool) (item : DoorItem) (e : Door) : Door :=
  let m := { e with secureMode := secure }
  m.takeSecure x item (wantsSecure x.cfg reach d m)

/-- DOOR_MODE at the controller changes its door so. -/
theorem mode_eq_change (x : Ctx) (d : Fin 4) (secure : Bool) (u : DoorUnit) :
    u.mode x d secure = u.change x d (Door.takeMode x u.reach d secure) := by
  simp [DoorUnit.mode, DoorUnit.recomputeSecure, DoorUnit.change, modify, Door.takeMode]

/-- DOOR_MODE past its range of modes is refused. -/
theorem doorMode_badArgument {t : Take} (d : Fin 4) (s : State) (h : 2 ≤ t.card.a0.toNat) :
    s.doorMode d t = s.reply t (.refuse .badArgument) :=
  if_pos h

/-- DOOR_MODE with a mode. -/
theorem doorMode_eq {t : Take} {secure : Bool} (d : Fin 4) (s : State)
    (h : t.card.a0 = BitVec.ofNat 16 (if secure then 1 else 0)) :
    s.doorMode d t =
      (s.doorEvent fun u => u.change s.ctx d (Door.takeMode s.ctx s.doors.reach d secure)).reply t
        (.plain .done (if s.doors.doors[d].secureMode then 1 else 0) 0) := by
  obtain ⟨hrange, hsecure⟩ := choice_of_ofNat h
  rw [State.doorMode, if_neg hrange, hsecure, wordNat_boolNat, State.doorEvent, State.doorEvent, mode_eq_change]

/-! ## DOOR_SERVICE (R126) -/

/-- DOOR_SERVICE past its range of actions is refused. -/
theorem doorService_badArgument {t : Take} (d : Fin 4) (s : State) (h : 2 ≤ t.card.a0.toNat) :
    s.doorService d t = s.reply t (.refuse .badArgument) :=
  if_pos h

/-- DOOR_SERVICE with an action. -/
theorem doorService_eq {t : Take} {out : Bool} (d : Fin 4) (s : State)
    (h : t.card.a0 = BitVec.ofNat 16 (if out then 1 else 0)) :
    s.doorService d t =
      (s.doorEvent fun u => u.change s.ctx d fun item e => e.service s.ctx item out).reply t
        (.plain .done (if s.doors.doors[d].state = .service then 1 else 0) 0) := by
  obtain ⟨hrange, hout⟩ := choice_of_ofNat h
  simp only [State.doorService, if_neg hrange, hout, wordNat_boolNat, decide_eq_true_eq]

/-- The service that a door has already changes nothing. -/
theorem service_same (x : Ctx) (item : DoorItem) {out : Bool} {e : Door} (h : out = decide (e.state = .service)) :
    e.service x item out = e :=
  if_pos h

/-- Out of service, from every other state. -/
theorem service_out (x : Ctx) (item : DoorItem) {e : Door} (h : e.state ≠ .service) :
    e.service x item true = e.enter x .service := by
  simp [Door.service, h]

/-- Back from SERVICE. -/
theorem service_in (x : Ctx) (item : DoorItem) {e : Door} (h : e.state = .service) :
    e.service x item false = (e.enter x .released).takeUp x item := by
  simp [Door.service, h]

/-- A door enters SERVICE with its latched flags kept. -/
theorem enter_service_enters (x : Ctx) (e : Door) : e.Enters (e.enter x .service) x.sec .service none none := by
  simp [Door.Enters, Door.enter]

/-! ## DOOR_RESET (R127) -/

/-- The latched flags that a DOOR_RESET leaves: FORCED and HELD_OPEN in the state that holds them. -/
def Door.clearFlags (e : Door) : Door :=
  { e with
    assistTimeoutFlag := false
    forcedFlag := e.forcedFlag && decide (e.state = .forced)
    heldOpenFlag := e.heldOpenFlag && decide (e.state = .heldOpen) }

/-- A reset outside FAULT clears the flags alone. -/
theorem resetFlags_of_not_fault (x : Ctx) (item : DoorItem) {e : Door} (h : e.state ≠ .fault) :
    e.resetFlags x item = e.clearFlags :=
  if_neg h

/-- A reset of FAULT also takes the door to RELEASED, from where it takes up its contacts. -/
theorem resetFlags_of_fault (x : Ctx) (item : DoorItem) {e : Door} (h : e.state = .fault) :
    e.resetFlags x item = (e.clearFlags.enter x .released).takeUp x item :=
  if_pos h

/-- Taking up the contacts leaves ASSIST_TIMEOUT. -/
theorem takeUp_assistTimeoutFlag (x : Ctx) (item : DoorItem) (e : Door) :
    (e.takeUp x item).assistTimeoutFlag = e.assistTimeoutFlag := by
  unfold Door.takeUp
  split
  case isTrue => rfl
  case isFalse =>
    split
    case isTrue =>
      unfold Door.throwBolt
      split <;> rfl
    case isFalse => rfl

/-- DOOR_RESET answers the flags that the door has after it, and the fault cause that it had. -/
theorem doorReset_eq (d : Fin 4) (t : Take) (s : State) :
    s.doorReset d t =
      (s.doorEvent fun u => u.change s.ctx d fun item e => e.resetFlags s.ctx item).reply t
        (.plain .done (s.doors.doors[d].resetFlags s.ctx s.active.doors[d]).flagWord
          (if s.doors.doors[d].boltFault then 1 else 0)) := by
  rw [State.doorReset, doorEvent_change_door, wordNat_boolNat]

/-! ## The obligation -/

/-- Settles O39: each card is an event of the door controller that changes its own door, and what it makes of that door is read
off by the door's state. -/
theorem doorCardsAct : Obligations.DoorCardsAct := by
  refine ⟨fun t s h => ⟨refuses_badTarget h rfl, fun d htarget => ⟨fun hrange => ?badMode, fun secure hsecure => ?mode⟩⟩,
    fun t s h => ⟨refuses_badTarget h rfl, fun d htarget => ⟨fun hrange => ?badAction, fun out hout => ?service⟩⟩,
    fun t s h => ⟨refuses_badTarget h rfl, fun d htarget => ?reset⟩⟩
  case badMode => exact refuses_badArgument h rfl (by decide) htarget (doorMode_badArgument d s hrange)
  case mode =>
    refine acts_doorCard h rfl htarget (doorMode_eq d s hsecure) fun a hdoor hdone hrest => ⟨hdone, ?_, hrest⟩
    rw [hdoor]
    exact ⟨_, wantsSecure_iff _ _ d _, takeSecure_spec s.ctx _ _ _⟩
  case badAction => exact refuses_badArgument h rfl (by decide) htarget (doorService_badArgument d s hrange)
  case service =>
    refine acts_doorCard h rfl htarget (doorService_eq d s hout) fun a hdoor hdone hrest =>
      ⟨hdone, fun htrue hstate => ?out, fun hfalse hstate => ?back, fun hsame => ?same, hrest⟩
    all_goals rw [hdoor]
    case out =>
      rw [htrue, service_out s.ctx _ hstate]
      exact ⟨enter_service_enters s.ctx _, rfl⟩
    case back =>
      rw [hfalse, service_in s.ctx _ hstate]
      exact ⟨takeUp_spec s.ctx _ _, takeUp_assistTimeoutFlag s.ctx _ _⟩
    case same => exact service_same s.ctx _ hsame
  case reset =>
    refine acts_doorCard h rfl htarget (doorReset_eq d t s) fun a hdoor hdone hrest =>
      ⟨fun hstate => ?flags, fun hstate => ?fault, ?answer, hrest⟩
    all_goals rw [hdoor]
    case flags => exact resetFlags_of_not_fault s.ctx _ hstate
    case fault =>
      rw [resetFlags_of_fault s.ctx _ hstate]
      exact ⟨takeUp_spec s.ctx _ _, takeUp_assistTimeoutFlag s.ctx _ _⟩
    case answer => exact hdone

end Sys2Proof.Machine

/-! NOTICE_ENQUEUE (R175 to R177): the queued entry of an identity, what each case of R176 makes of a port, and the hand-over. -/

namespace Sys2Proof.Machine

/-! ## Entries of an identity (R175) -/

/-- A notice is for its identity. -/
@[simp] theorem isFor_notice (i : Ident) (q : QueuedNotice) : (TxEntry.notice q).isFor i = decide (q.notice.ident = i) := rfl

/-- A notice is of its origin. -/
@[simp] theorem isOrigin_notice (o : NoticeOrigin) (q : QueuedNotice) :
    (TxEntry.notice q).isOrigin o = decide (q.origin = o) := rfl

/-- The test that the queue makes for an identity. -/
theorem isFor_iff {i : Ident} {e : TxEntry} : e.isFor i = true ↔ e.Holds i := by
  cases e <;> simp [TxEntry.isFor, TxEntry.Holds]

/-- A queue holds an identity where one of its entries does. -/
theorem any_isFor_iff {i : Ident} {l : List TxEntry} : l.any (TxEntry.isFor i) = true ↔ ∃ e ∈ l, e.Holds i := by
  simp only [List.any_eq_true, isFor_iff]

/-- The classes of a queue stand in their order, and still do where entries have left. -/
theorem TransmitWf.pairwise_place {l k : List TxEntry} (h : TransmitWf l) (hk : k.Sublist l) :
    k.Pairwise fun a b => a.place ≤ b.place :=
  (h.2.imp And.left).sublist hk

/-- No entry but the one holds its identity. -/
theorem TransmitWf.isFor_eq_false {x y : List TxEntry} {old : QueuedNotice} {i : Ident}
    (h : TransmitWf (x ++ .notice old :: y)) (hident : old.notice.ident = i) : ∀ e ∈ x ++ y, e.isFor i = false := by
  obtain ⟨-, hafter, hbefore⟩ := List.pairwise_append.mp h.2
  have hold : (TxEntry.notice old).Holds i := ⟨old, rfl, hident⟩
  intro e he
  rw [← Bool.not_eq_true, isFor_iff]
  intro hholds
  rcases List.mem_append.mp he with hx | hy
  · exact (hbefore e hx _ List.mem_cons_self).2.2 _ ⟨hholds, hold⟩
  · exact ((List.pairwise_cons.mp hafter).1 e hy).2.2 _ ⟨hold, hholds⟩

/-! ## Replacing the queued notice of an identity (R176 case 2) -/

section
variable {x y : List TxEntry} {old q : QueuedNotice}

/-- The queued notice of the identity decides whether the origin changes. -/
theorem any_isFor_isOrigin_iff (hident : old.notice.ident = q.notice.ident) (h : TransmitWf (x ++ .notice old :: y)) :
    ((x ++ .notice old :: y).any fun e => e.isFor q.notice.ident && e.isOrigin q.origin) = true ↔ old.origin = q.origin := by
  have hothers := h.isFor_eq_false hident
  simp only [List.any_eq_true, Bool.and_eq_true]
  constructor
  · rintro ⟨e, he, hfor, horigin⟩
    rcases List.mem_cons.mp (List.perm_middle.mem_iff.mp he) with rfl | he
    · simpa using horigin
    · simp [hothers e he] at hfor
  · intro horigin
    exact ⟨.notice old, by simp, by simp [hident], by simp [horigin]⟩

/-- With its origin kept, the notice takes the place of the queued one. -/
theorem replaceNotice_same_origin (hident : old.notice.ident = q.notice.ident) (h : TransmitWf (x ++ .notice old :: y))
    (horigin : old.origin = q.origin) : replaceNotice (x ++ .notice old :: y) q = x ++ .notice q :: y := by
  have hothers := h.isFor_eq_false hident
  have hkept : ∀ k : List TxEntry, (∀ e ∈ k, e ∈ x ++ y) →
      k.map (fun e => if e.isFor q.notice.ident then .notice q else e) = k := fun k hk =>
    (List.map_congr_left fun e he => by simp [hothers e (hk e he)]).trans k.map_id
  rw [replaceNotice, if_pos ((any_isFor_isOrigin_iff hident h).mpr horigin)]
  simp [hkept x (by simp +contextual), hkept y (by simp +contextual), hident]

/-- With a new origin, the queued notice leaves and the new one goes to the back of its class. -/
theorem replaceNotice_new_origin (hident : old.notice.ident = q.notice.ident) (h : TransmitWf (x ++ .notice old :: y))
    (horigin : old.origin ≠ q.origin) : replaceNotice (x ++ .notice old :: y) q = joinClass (x ++ y) q := by
  have hothers := h.isFor_eq_false hident
  have hleft : (x ++ y).filter (fun e => !e.isFor q.notice.ident) = x ++ y :=
    List.filter_eq_self.mpr fun e he => by simp [hothers e he]
  rw [replaceNotice, if_neg (mt (any_isFor_isOrigin_iff hident h).mp horigin), ← hleft]
  simp [hident]

end

/-! ## One notice at a port (R176, R177) -/

section
variable {p : PortState} {q : QueuedNotice}

/-- A port that is DOWN or not enabled discards the notice. -/
theorem enqueue_discards {enabled : Bool} (h : p.neighbour = none ∨ enabled = false) : p.enqueue enabled q = p := by
  rw [PortState.enqueue, if_pos (by simpa using h)]

/-- An enabled port that is UP takes up the notice by the three remaining cases of R176. -/
theorem enqueue_up (h : p.neighbour ≠ none) : p.enqueue true q =
    if p.transmitQueue.any (TxEntry.isFor q.notice.ident) then { p with transmitQueue := replaceNotice p.transmitQueue q }
    else if p.transmitQueue.length < 8 then { p with transmitQueue := joinClass p.transmitQueue q }
    else { p with transmitQueue := overfull p.transmitQueue q, dropped := satSucc p.dropped } := by
  rw [PortState.enqueue, if_neg (by simpa using h)]
  rfl

/-- The identity is queued. -/
theorem enqueue_replaces (h : p.neighbour ≠ none) (hheld : ∃ e ∈ p.transmitQueue, e.Holds q.notice.ident) :
    p.enqueue true q = { p with transmitQueue := replaceNotice p.transmitQueue q } := by
  rw [enqueue_up h, if_pos (any_isFor_iff.mpr hheld)]

/-- The identity is not queued and the queue has room. -/
theorem enqueue_joins (h : p.neighbour ≠ none) (hnone : ∀ e ∈ p.transmitQueue, ¬e.Holds q.notice.ident)
    (hroom : p.transmitQueue.length < 8) :
    p.enqueue true q = { p with transmitQueue := joinClass p.transmitQueue q } := by
  rw [enqueue_up h, if_neg (mt any_isFor_iff.mp fun ⟨e, he, hholds⟩ => hnone e he hholds), if_pos hroom]

/-- The identity is not queued and the queue is full. -/
theorem enqueue_overfull (h : p.neighbour ≠ none) (hnone : ∀ e ∈ p.transmitQueue, ¬e.Holds q.notice.ident)
    (hfull : p.transmitQueue.length = 8) :
    p.enqueue true q = { p with transmitQueue := overfull p.transmitQueue q, dropped := satSucc p.dropped } := by
  rw [enqueue_up h, if_neg (mt any_isFor_iff.mp fun ⟨e, he, hholds⟩ => hnone e he hholds), if_neg (by omega)]

end

/-- A notice changes the transmit queue and the dropped count of a port at most. -/
theorem enqueue_frame (enabled : Bool) (q : QueuedNotice) (p : PortState) : p.enqueue enabled q =
    { p with transmitQueue := (p.enqueue enabled q).transmitQueue, dropped := (p.enqueue enabled q).dropped } := by
  unfold PortState.enqueue
  repeat' split
  all_goals rfl

/-- A notice leaves the neighbour entry, so that LINK is not set (R182). -/
theorem linkChanged_enqueue (enabled : Bool) (q : QueuedNotice) (p : PortState) :
    linkChanged p (p.enqueue enabled q) = false := by
  rw [enqueue_frame]
  simp [linkChanged]

/-! ## NOTICE_ENQUEUE -/

/-- The oldest notice of the origin leaves the deliveries handed to the port. -/
theorem pop_eq {m : PortMail} {origin : NoticeOrigin} {q : QueuedNotice} {rest : List QueuedNotice}
    (h : m.of origin = q :: rest) : m.pop origin = { m with
      own := if origin = .own then rest else m.own
      forwarded := if origin = .own then m.forwarded else rest } := by
  cases origin <;> simp_all [PortMail.of, PortMail.pop]

/-- A notice that waits is taken at its port, which becomes what enqueueing the notice makes of it. -/
theorem noticeEnqueue_acts {port : Port} {origin : NoticeOrigin} {q : QueuedNotice} {rest : List QueuedNotice} {s : State}
    {post : State → Prop} (hrunning : s.running = true) (hmail : (s.mail.port port).of origin = q :: rest)
    (hpost : post (State.portEvent port (PortState.enqueue (portEnabled s.active port) q)
      { s with mail := s.mail.setPort port ((s.mail.port port).pop origin) })) :
    Acts (.noticeEnqueue port origin) s post := by
  have hwaiting : (!((s.mail.port port).of origin).isEmpty) = true := by simp [hmail]
  refine ⟨_, ?_, hpost⟩
  change execNoticeEnqueue port origin s = _
  rw [execNoticeEnqueue, internal_acts hrunning hwaiting]
  simp only [hmail]

/-- Settles O48: the port's part of the event is one enqueueing, and an entry of the identity, room or a full queue decides which
case of R176 it is. -/
theorem noticesAreEnqueuedByClass : Obligations.NoticesAreEnqueuedByClass := by
  intro port origin q rest s hrunning hmail hwf
  refine noticeEnqueue_acts hrunning hmail
    ⟨(s.link.get port).enqueue (portEnabled s.active port) q, ?becomes, enqueue_frame _ q _, enqueue_discards,
      fun hup henabled => ⟨fun x y old hqueue hident => ?replaced,
        fun hnone => ⟨fun hroom => ?joined, fun hfull => ?full⟩⟩⟩
  case becomes =>
    rw [← pop_eq hmail, ← linkChanged_enqueue (portEnabled s.active port) q (s.link.get port)]
    exact portEvent_becomes port _ _
  all_goals rw [henabled]
  case replaced =>
    have hheld : ∃ e ∈ (s.link.get port).transmitQueue, e.Holds q.notice.ident :=
      ⟨.notice old, by simp [hqueue], old, rfl, hident⟩
    rw [enqueue_replaces hup hheld]
    rw [hqueue] at hwf
    refine ⟨rfl, fun horigin => ?_, fun horigin => ?_⟩
    · rw [hqueue]
      exact replaceNotice_same_origin hident hwf horigin
    · have hclassed := hwf.pairwise_place ((List.sublist_cons_self _ y).append_left x)
      rw [hqueue, replaceNotice_new_origin hident hwf horigin]
      exact joinClass_joins _ q hclassed
  case joined =>
    rw [enqueue_joins hup hnone hroom]
    exact ⟨joinClass_joins _ q (hwf.pairwise_place (List.Sublist.refl _)), rfl⟩
  case full =>
    rw [enqueue_overfull hup hnone hfull]
    exact ⟨overfull_givesWay _ q hwf, satSucc_eq _⟩

end Sys2Proof.Machine

/-! What a step can do: every event of the part belongs to one block and changes that block's state and what it delivers, and
every other command is a host access, a reset, a validation, a level on a pin or a tick. -/

namespace Sys2Proof.Machine

/-! ## The blocks -/

/-- The blocks of the part, as their events are told apart here: `air` is the measurement unit with its cards, `request` the
decision of a creation request, `load` the LOAD card. -/
inductive Block where
  | time | input | deck | air | zone | request | fan | door | incident | placement | port | load

/-- The block that an event belongs to; a host access, a reset, a validation or a level on a pin belongs to none. -/
def blockOf (c : Instr) : Option Block :=
  match c with
  | .secondsIncrement | .speedReferencePeriodStart => some .time
  | .gateWindowEnd _ => some .input
  | .controlEvent _ | .postEvent _ | .cardTake | .cardCompletion _ | .deadlineExpiry _ => some .deck
  | .windowHandover _ | .markCard | .readCard | .zeroCard | .clearSummaryCard | .channelServiceCard => some .air
  | .zoneReevaluation _ | .confirmTimerExpiry _ | .slotFreed _ | .incidentFreed _ => some .zone
  | .creationRequest _ => some .request
  | .fanRunningContact _ | .fanFaultContact _ | .fanLocalContact _ | .demandLevelChange _ | .zoneLoadCommit
  | .placementChange | .galleryDemandChange | .startLimitExpiry _ | .settleExpiry _ | .rundownExpiry _ | .tachHandover _
  | .fanRequestCard | .fanServiceCard | .fanResetCard => some .fan
  | .doorClosedContact _ | .doorBoltedContact _ | .doorPushContact _ | .incidentDelivery | .pressureReading
  | .boltTimerExpiry _ | .reliefClockExpiry _ | .assistTimerExpiry _ | .heldOpenExpiry _ | .doorModeCard
  | .doorServiceCard | .doorResetCard => some .door
  | .declareCard | .acknowledgeCard | .clearCard | .notice | .refreshTimerExpiry _ | .staleTimerExpiry _
  | .clearingTimerExpiry _ | .clearedEntryExpiry | .deficitDelivery => some .incident
  | .governingChange | .availabilityChange _ | .fanItemChange _ => some .placement
  | .noticeEnqueue .. | .frameReceive .. | .incompleteFrame _ | .hold .. | .helloTaken _ | .incidentFrameTaken _
  | .helloTimerExpiry _ | .agingTimerExpiry _ | .holdTimerExpiry _ | .holdRepeatExpiry _ | .frameBegin _ | .frameEnd _
  | .lineIdleAfterReject _ => some .port
  | .loadCard => some .load
  | _ => none

/-! ## What every event leaves -/

/-- What no event changes of the registers and of the memory: the run state, the mask, the unused bits of ATTENTION, and that the
memory is canonical. -/
structure EventKeeps (s a : State) : Prop where
  runState : a.regs.runState = s.regs.runState
  attentionMask : a.regs.attentionMask = s.regs.attentionMask
  attention : ∀ n, 7 ≤ n → a.regs.attention.getLsbD n = s.regs.attention.getLsbD n
  masks : a.cm.masks = s.cm.masks
  bytes : s.cm.bytes.wf = true → a.cm.bytes.wf = true

/-- What the events of a block leave of the state, beyond what every event keeps. -/
def Block.Leaves (b : Block) (s a : State) : Prop :=
  match b with
  | .time => a = { s with secondsDue := a.secondsDue, periodDue := a.periodDue, regs := a.regs, sref := a.sref }
  | .input => a = { s with gates := a.gates, measured := a.measured, tach := a.tach, mail := a.mail }
  | .deck => a = { s with decks := a.decks, executor := a.executor, lastGranted := a.lastGranted, regs := a.regs, cm := a.cm
                          channels := a.channels, fans := a.fans, mail := a.mail }
  | .air => a = { s with active := { s.active with channels := a.active.channels }, cm := a.cm, channels := a.channels
                         mail := a.mail, executor := a.executor }
  | .zone => a = { s with zones := a.zones, mail := a.mail }
  | .request => a = { s with incidents := a.incidents, zones := a.zones, regs := a.regs, mail := a.mail }
  | .fan => a = { s with fans := a.fans, mail := a.mail, executor := a.executor }
  | .door => a = { s with doors := a.doors, mail := a.mail, executor := a.executor }
  | .incident => a = { s with incidents := a.incidents, zones := a.zones, regs := a.regs, mail := a.mail, executor := a.executor }
  | .placement => a = { s with placement := a.placement, mail := a.mail }
  | .port => a = { s with link := a.link, regs := a.regs, mail := a.mail }
  | .load => a = { s with active := a.active, gates := a.gates, contacts := a.contacts, measured := a.measured, tach := a.tach
                          channels := a.channels, fans := a.fans, doors := a.doors, placement := a.placement, link := a.link
                          regs := a.regs, mail := a.mail, executor := a.executor }

/-- Only zones and the decision of a request change what stands in the creation requests. -/
def Block.movesRequests (b : Block) : Bool :=
  match b with
  | .zone | .request => true
  | _ => false

/-- What an event of a block does to the state at most. -/
structure Block.Frame (b : Block) (s a : State) : Prop where
  keeps : EventKeeps s a
  leaves : b.Leaves s a
  requests : b.movesRequests = false → a.mail.requests = s.mail.requests

theorem EventKeeps.refl (s : State) : EventKeeps s s := ⟨rfl, rfl, fun _ _ => rfl, rfl, id⟩

theorem EventKeeps.trans {s t u : State} (h : EventKeeps s t) (k : EventKeeps t u) : EventKeeps s u :=
  ⟨k.runState.trans h.runState, k.attentionMask.trans h.attentionMask,
    fun n hn => (k.attention n hn).trans (h.attention n hn), k.masks.trans h.masks, k.bytes ∘ h.bytes⟩

/-- The bits above the causes are those of no cause. -/
theorem raise_attention_unused (r : Registers) (c : Cause) {n : Nat} (hn : 7 ≤ n) :
    (r.raise c).attention.getLsbD n = r.attention.getLsbD n := by
  have hbit : c.bit < 7 := by cases c <;> decide
  have hne : ¬n - c.bit = 0 := by omega
  simp [Registers.raise, flagBit, BitVec.getLsbD_or, BitVec.getLsbD_shiftLeft, BitVec.getLsbD_one, hne,
    -BitVec.getLsbD_eq_getElem]

theorem raiseIf_attention_unused (r : Registers) (b : Bool) (c : Cause) {n : Nat} (hn : 7 ≤ n) :
    (r.raiseIf b c).attention.getLsbD n = r.attention.getLsbD n := by
  cases b
  · rfl
  · exact raise_attention_unused r c hn

/-- An event that at most sets causes and writes canonical bytes keeps what every event keeps. -/
theorem EventKeeps.of_raiseIf {s a : State} (b : Bool) (c : Cause) (hregs : a.regs = s.regs.raiseIf b c)
    (hcm : a.cm = s.cm) : EventKeeps s a := by
  refine ⟨?_, ?_, fun n hn => ?_, by rw [hcm], fun h => by rw [hcm]; exact h⟩
  · rw [hregs, raiseIf_runState]
  · rw [hregs]; cases b <;> rfl
  · rw [hregs, raiseIf_attention_unused _ _ _ hn]

theorem EventKeeps.of_regs_cm {s a : State} (hregs : a.regs = s.regs) (hcm : a.cm = s.cm) : EventKeeps s a :=
  .of_raiseIf false .change hregs hcm

/-- An event that does not touch the registers and changes of the memory only canonical bytes. -/
theorem EventKeeps.of_bytes {s a : State} (hregs : a.regs = s.regs) (hmasks : a.cm.masks = s.cm.masks)
    (hbytes : s.cm.bytes.wf = true → a.cm.bytes.wf = true) : EventKeeps s a :=
  ⟨by rw [hregs], by rw [hregs], fun _ _ => by rw [hregs], hmasks, hbytes⟩

theorem EventKeeps.fanEvent (act : FanUnit → FanUnit) (s : State) : EventKeeps s (s.fanEvent act) :=
  .of_regs_cm rfl rfl

/-! ## The deliveries -/

/-- Completing cards moves no creation request. -/
@[simp] theorem complete_requests (m : Mail) (l : List (Fin 4)) (a : Answer) : (m.complete l a).requests = m.requests := rfl

@[simp] theorem completeFans_requests (m : Mail) (u : FanUnit) (which : Fin 8 → Bool) (o : CardOutcome) :
    (m.completeFans u which o).requests = m.requests := by
  unfold Mail.completeFans
  induction List.finRange 8 generalizing m with
  | nil => rfl
  | cons f fs ih => rw [List.foldl_cons, ih]; split <;> rfl

@[simp] theorem reevaluate_requests (m : Mail) (z : Option (Fin 8)) : (m.reevaluate z).requests = m.requests := by
  cases z <;> rfl

@[simp] theorem setPort_requests (m : Mail) (p : Port) (x : PortMail) : (m.setPort p x).requests = m.requests := by
  cases p <;> rfl

@[simp] theorem placed_requests (m : Mail) (b a : PlacementRecord) : (m.placed b a).requests = m.requests := rfl

@[simp] theorem incidentStep_requests (m : Mail) (sec : DWord) (r : IncidentStep) (b a : Option Incident) :
    (m.incidentStep sec r b a).requests = m.requests := rfl

@[simp] theorem fanEvent_requests (act : FanUnit → FanUnit) (s : State) :
    (s.fanEvent act).mail.requests = s.mail.requests := by
  simp [State.fanEvent]

@[simp] theorem doorEvent_requests (act : DoorUnit → DoorUnit) (s : State) :
    (s.doorEvent act).mail.requests = s.mail.requests := by
  simp only [State.doorEvent]
  split <;> rfl

@[simp] theorem incidentEvent_requests (act : IncidentUnit → IncidentStep) (s : State) :
    (s.incidentEvent act).mail.requests = s.mail.requests := rfl

@[simp] theorem placementEvent_requests (places : Bool) (act : PlacementUnit → PlacementUnit) (s : State) :
    (State.placementEvent places act s).mail.requests = s.mail.requests := rfl

/-! ## Frames of the shared operations -/

/-- Events that set no cause and touch no memory. -/
theorem Block.Frame.quiet {b : Block} {s a : State} (hregs : a.regs = s.regs) (hcm : a.cm = s.cm)
    (hleaves : b.Leaves s a) (hrequests : a.mail.requests = s.mail.requests) : b.Frame s a :=
  ⟨.of_regs_cm hregs hcm, hleaves, fun _ => hrequests⟩

/-- A block that hands in an answer after its event. -/
def Block.answers (b : Block) : Bool :=
  match b with
  | .air | .fan | .door | .incident | .load => true
  | _ => false

theorem Block.Leaves.refl (b : Block) (s : State) : b.Leaves s s := by cases b <;> rfl

theorem Block.Frame.refl (b : Block) (s : State) : b.Frame s s := ⟨.refl s, .refl b s, fun _ => rfl⟩

theorem Block.Leaves.executor {b : Block} {s a : State} (hb : b.answers = true) (e : Option Take)
    (h : b.Leaves s a) : b.Leaves s { a with executor := e } := by
  cases b
  case air | fan | door | incident | load => exact congrArg (fun t : State => { t with executor := e }) h
  all_goals cases hb

/-- An answer stays within the frame of a block that answers cards. -/
theorem Block.Frame.reply {b : Block} {s a : State} (hb : b.answers = true) (t : Take) (ans : Answer)
    (h : b.Frame s a) : b.Frame s (a.reply t ans) :=
  ⟨h.keeps.trans (.of_regs_cm rfl rfl), h.leaves.executor hb _, h.requests⟩

theorem Block.Frame.started {b : Block} {s a : State} (hb : b.answers = true) (h : b.Frame s a) :
    b.Frame s a.started :=
  ⟨h.keeps.trans (.of_regs_cm rfl rfl), h.leaves.executor hb _, h.requests⟩

theorem Block.Frame.dispatch {b : Block} {s : State} {act : Take → State → State} (h : ∀ t, b.Frame s (act t s)) :
    b.Frame s (s.dispatch act) := by
  unfold State.dispatch
  split
  · exact .refl b s
  · exact h _

theorem Block.Frame.onTarget {b : Block} {n : Nat} {s : State} {act : Fin n → Take → State → State}
    (hb : b.answers = true) (h : ∀ i t, b.Frame s (act i t s)) (t : Take) : b.Frame s (State.onTarget n act t s) := by
  unfold State.onTarget
  split
  · exact (Block.Frame.refl b s).reply hb t _
  · exact h _ t

/-! ## Events at the shared operations of the blocks -/

theorem Block.Frame.fanEvent {s a : State} (h : Block.fan.Frame s a) (act : FanUnit → FanUnit) :
    Block.fan.Frame s (a.fanEvent act) :=
  ⟨h.keeps.trans (.of_regs_cm rfl rfl),
    congrArg (fun t : State => ({ t with fans := (a.fanEvent act).fans, mail := (a.fanEvent act).mail } : State)) h.leaves,
    fun hb => (fanEvent_requests act a).trans (h.requests hb)⟩

theorem doorEvent_eq (act : DoorUnit → DoorUnit) (s : State) :
    s.doorEvent act = { s with doors := (s.doorEvent act).doors, mail := (s.doorEvent act).mail } := rfl

theorem Block.Frame.doorEvent {s a : State} (h : Block.door.Frame s a) (act : DoorUnit → DoorUnit) :
    Block.door.Frame s (a.doorEvent act) :=
  ⟨h.keeps.trans (.of_regs_cm rfl rfl),
    congrArg (fun t : State => ({ t with doors := (a.doorEvent act).doors, mail := (a.doorEvent act).mail } : State)) h.leaves,
    fun hb => (doorEvent_requests act a).trans (h.requests hb)⟩

theorem Block.Frame.incidentEvent {b : Block} (hb : b = .incident ∨ b = .request) {s a : State} (h : b.Frame s a)
    (act : IncidentUnit → IncidentStep) : b.Frame s (a.incidentEvent act) := by
  refine ⟨h.keeps.trans (.of_raiseIf _ .incident rfl rfl), ?_, fun hr => (incidentEvent_requests act a).trans (h.requests hr)⟩
  obtain rfl | rfl := hb <;> exact congrArg (fun t : State => ({ t with
    incidents := (a.incidentEvent act).incidents, regs := (a.incidentEvent act).regs
    mail := (a.incidentEvent act).mail } : State)) h.leaves

theorem Block.Frame.placementEvent {s a : State} (h : Block.placement.Frame s a) (places : Bool)
    (act : PlacementUnit → PlacementUnit) : Block.placement.Frame s (State.placementEvent places act a) :=
  ⟨h.keeps.trans (.of_regs_cm rfl rfl),
    Eq.trans (b := { a with placement := (State.placementEvent places act a).placement
                            mail := (State.placementEvent places act a).mail }) rfl (congrArg (fun t : State => ({ t with
      placement := (State.placementEvent places act a).placement
      mail := (State.placementEvent places act a).mail } : State)) h.leaves),
    fun hb => (placementEvent_requests places act a).trans (h.requests hb)⟩

theorem Block.Frame.portEvent {s a : State} (h : Block.port.Frame s a) (p : Port) (act : PortState → PortState) :
    Block.port.Frame s (State.portEvent p act a) :=
  ⟨h.keeps.trans (.of_raiseIf _ .link rfl rfl),
    congrArg (fun t : State => ({ t with link := (State.portEvent p act a).link, regs := (State.portEvent p act a).regs } : State))
      h.leaves,
    fun hb => h.requests hb⟩

theorem Block.Frame.fanContact (f : Fin 8) (k : Fin 3) (act : Ctx → Bool → FanUnit → FanUnit) (s : State) :
    Block.fan.Frame s (s.fanContact f k act) := by
  unfold State.fanContact
  split
  · exact .refl _ s
  · have hpop : Block.fan.Frame s (s.popContact (fanInput f k)) := .quiet rfl rfl rfl rfl
    exact hpop.fanEvent _

theorem Block.Frame.doorContact (d : Fin 4) (k : Fin 3) (act : Ctx → Bool → DoorUnit → DoorUnit) (s : State) :
    Block.door.Frame s (s.doorContact d k act) := by
  unfold State.doorContact
  split
  · exact .refl _ s
  · have hpop : Block.door.Frame s (s.popContact (doorInput d k)) := .quiet rfl rfl rfl rfl
    exact hpop.doorEvent _

theorem Block.Frame.slotEvent (k : Fin 4) (act : Incident → IncidentUnit → IncidentStep) (s : State) :
    Block.incident.Frame s (s.slotEvent k act) := by
  unfold State.slotEvent
  split
  · exact .refl _ s
  · exact (Block.Frame.refl _ s).incidentEvent (.inl rfl) _

theorem Block.Frame.onIncident {s : State} {act : Fin 4 → Incident → Take → State → State}
    (h : ∀ k r t, Block.incident.Frame s (act k r t s)) (t : Take) : Block.incident.Frame s (State.onIncident act t s) := by
  unfold State.onIncident
  simp only
  split
  · exact (Block.Frame.refl _ s).reply rfl t _
  · split
    · exact (Block.Frame.refl _ s).reply rfl t _
    · exact h _ _ t

/-- The zone that asked, or that a DECLARE names, takes the answer within the same event. -/
theorem Block.Frame.zones {b : Block} (hb : b = .incident ∨ b = .request) {s p : State} (h : b.Frame s p) (z : Vector Zone 8) :
    b.Frame s { p with zones := z } := by
  refine ⟨h.keeps.trans (.of_regs_cm rfl rfl), ?_, h.requests⟩
  obtain rfl | rfl := hb <;> exact congrArg (fun t : State => ({ t with zones := z } : State)) h.leaves

/-! ## Events of each block -/

section
variable (s : State)

theorem deckEvent_deckFrame (d : Fin 4) (act : Deck → Deck) :
    Block.deck.Frame s ((s.popDeckEvent d).deckEvent d act) := by
  simp only [State.deckEvent]
  split
  · exact ⟨.of_raiseIf _ .deck rfl rfl, rfl, fun _ => rfl⟩
  · exact ⟨.of_raiseIf _ .deck rfl rfl, rfl, fun _ => rfl⟩

theorem takeCard_deckFrame (d : Fin 4) : Block.deck.Frame s (s.takeCard d) := .quiet rfl rfl rfl rfl

theorem writeCard_deckFrame {p : State} (h : Block.deck.Frame s p) (d : Fin 4) (immediate : Bool) (a : Answer) :
    Block.deck.Frame s (p.writeCard d immediate a) := by
  unfold State.writeCard
  split
  · exact h
  · exact ⟨h.keeps.trans (.of_bytes rfl rfl (wf_writeCompletion _ _ _ _)), congrArg (fun t : State => ({ t with
      cm := _, decks := _, channels := _, fans := _, mail := _ } : State)) h.leaves, h.requests⟩

theorem takeCompletion_deckFrame (d : Fin 4) : Block.deck.Frame s (s.takeCompletion d) := by
  unfold State.takeCompletion
  split
  · split
    · exact writeCard_deckFrame s (.refl _ s) d true _
    · exact .quiet rfl rfl rfl rfl
  · split
    · refine writeCard_deckFrame s ?_ d false _
      exact .quiet rfl rfl rfl rfl
    · exact .refl _ s

theorem writeDone_deckFrame (d : Fin 4) (f : Finishing) : Block.deck.Frame s (s.writeDone d f) :=
  ⟨.of_raiseIf _ .notify rfl rfl, rfl, fun _ => rfl⟩

theorem takeWindow_airFrame (c : Fin 12) (w : Window) : Block.air.Frame s (s.takeWindow c w) := by
  refine ⟨.of_bytes ?_ ?_ ?_, ?_, fun _ => ?_⟩
  · simp only [State.takeWindow]; split <;> rfl
  · simp only [State.takeWindow]; split <;> rfl
  · simp only [State.takeWindow]
    split
    · exact Memory.wf_writeWord _ _
    · exact id
  · simp only [State.takeWindow]; split <;> rfl
  · simp only [State.takeWindow]
    repeat' split
    all_goals simp

theorem zeroChannel_airFrame (c : Fin 12) (t : Take) : Block.air.Frame s (s.zeroChannel c t) := by
  unfold State.zeroChannel
  have hpend (card : Option (Fin 4)) : Block.air.Frame s
      { s with channels := s.channels.set c { s.channels[c] with zero := some { card := card } } } := .quiet rfl rfl rfl rfl
  have hrefuse (r : CardReason) : Block.air.Frame s (s.reply t (.refuse r)) := (Block.Frame.refl _ s).reply rfl t _
  simp only
  split
  · exact hrefuse _
  split
  · exact hrefuse _
  split
  · exact (hpend _).started rfl
  · exact (hpend _).reply rfl t _

theorem clearSummary_airFrame (c : Fin 12) (t : Take) : Block.air.Frame s (s.clearSummary c t) := by
  unfold State.clearSummary
  simp only
  split
  · exact (Block.Frame.refl _ s).reply rfl t _
  · exact Block.Frame.reply rfl t _ (.quiet rfl rfl rfl rfl)

theorem setService_airFrame (c : Fin 12) (out : Bool) : Block.air.Frame s (s.setService c out) := by
  unfold State.setService
  simp only
  split
  · exact .refl _ s
  split
  · exact .quiet rfl rfl rfl (reevaluate_requests _ _)
  · exact .quiet rfl rfl rfl (reevaluate_requests _ _)

theorem channelService_airFrame (c : Fin 12) (t : Take) : Block.air.Frame s (s.channelService c t) := by
  unfold State.channelService
  split
  · exact (Block.Frame.refl _ s).reply rfl t _
  · exact (setService_airFrame s c _).reply rfl t _

theorem reevaluate_zoneFrame (z : Fin 8) (m : Mail) : Block.zone.Frame s (State.reevaluate z { s with mail := m }) := by
  simp only [State.reevaluate]
  split
  · exact ⟨.of_regs_cm rfl rfl, rfl, nofun⟩
  · exact ⟨.of_regs_cm rfl rfl, rfl, nofun⟩

theorem decideRequest_requestFrame (z : Fin 8) (q : CreationRequest) : Block.request.Frame s (s.decideRequest z q) := by
  unfold State.decideRequest
  simp only
  generalize IncidentUnit.create s.ctx .detected q.position (some z) q.template q.mirror q.evidence = create
  have hevent (zones : Vector Zone 8) : Block.request.Frame s { s.incidentEvent (fun u => (create u).2) with
      mail := { (s.incidentEvent fun u => (create u).2).mail with
        requests := (s.incidentEvent fun u => (create u).2).mail.requests.set z none }
      zones := zones } :=
    ⟨.of_raiseIf _ .incident rfl rfl, rfl, nofun⟩
  split
  · exact hevent _
  · exact hevent _

theorem fanRequest_fanFrame (f : Fin 8) (t : Take) : Block.fan.Frame s (s.fanRequest f t) := by
  unfold State.fanRequest
  split
  · exact (Block.Frame.refl _ s).reply rfl t _
  next r _ =>
    have hevent := (Block.Frame.refl .fan s).fanEvent (FanUnit.request s.ctx f r)
    simp only
    split
    · exact hevent.reply rfl t _
    · exact ⟨hevent.keeps.trans (.of_regs_cm rfl rfl),
        congrArg (fun u : State => ({ u with fans := _, executor := none } : State)) hevent.leaves, hevent.requests⟩

theorem fanService_fanFrame (f : Fin 8) (t : Take) : Block.fan.Frame s (s.fanService f t) := by
  unfold State.fanService
  split
  · exact (Block.Frame.refl _ s).reply rfl t _
  · exact ((Block.Frame.refl _ s).fanEvent _).reply rfl t _

theorem fanReset_fanFrame (f : Fin 8) (t : Take) : Block.fan.Frame s (s.fanReset f t) := by
  unfold State.fanReset
  simp only
  split
  · exact (Block.Frame.refl _ s).reply rfl t _
  split
  · exact (Block.Frame.refl _ s).reply rfl t _
  · exact ((Block.Frame.refl _ s).fanEvent _).reply rfl t _

theorem doorMode_doorFrame (d : Fin 4) (t : Take) : Block.door.Frame s (s.doorMode d t) := by
  unfold State.doorMode
  split
  · exact (Block.Frame.refl _ s).reply rfl t _
  · exact ((Block.Frame.refl _ s).doorEvent _).reply rfl t _

theorem doorService_doorFrame (d : Fin 4) (t : Take) : Block.door.Frame s (s.doorService d t) := by
  unfold State.doorService
  split
  · exact (Block.Frame.refl _ s).reply rfl t _
  · exact ((Block.Frame.refl _ s).doorEvent _).reply rfl t _

theorem doorReset_doorFrame (d : Fin 4) (t : Take) : Block.door.Frame s (s.doorReset d t) :=
  ((Block.Frame.refl _ s).doorEvent _).reply rfl t _

theorem declare_incidentFrame (zone : Option (Fin 8)) (t : Take) : Block.incident.Frame s (s.declare zone t) := by
  unfold State.declare
  simp only
  generalize IncidentUnit.create _ _ _ _ _ _ _ = create
  have hevent : Block.incident.Frame s (s.incidentEvent fun u => (create u).2) :=
    (Block.Frame.refl _ s).incidentEvent (.inl rfl) _
  split
  · exact hevent.reply rfl t _
  · exact (hevent.zones (.inl rfl) _).reply rfl t _

theorem declareOn_incidentFrame (zone : Option (Fin 8)) (t : Take) : Block.incident.Frame s (s.declareOn zone t) := by
  unfold State.declareOn
  extract_lets position busy
  clear_value position busy
  split
  · exact (Block.Frame.refl _ s).reply rfl t _
  cases busy with
  | some z => exact (Block.Frame.refl _ s).reply rfl t _
  | none => exact declare_incidentFrame s zone t

theorem clearIncident_incidentFrame (k : Fin 4) (r : Incident) (t : Take) :
    Block.incident.Frame s (s.clearIncident k r t) := by
  unfold State.clearIncident
  simp only
  split
  · exact (Block.Frame.refl _ s).reply rfl t _
  · exact ((Block.Frame.refl _ s).incidentEvent (.inl rfl) _).reply rfl t _

end

/-! ## LOAD -/

section
variable (s : State)

theorem storeItem_loadFrame (r : ItemRef) : Block.load.Frame s (s.storeItem r) := .quiet rfl rfl rfl rfl

theorem loadChannel_loadFrame (c : Fin 12) : Block.load.Frame s (s.loadChannel c) := by
  refine .quiet rfl rfl rfl ?_
  unfold State.loadChannel
  simp only
  split <;> simp

theorem loadZone_loadFrame (z : Fin 8) : Block.load.Frame s (s.loadZone z) := .quiet rfl rfl rfl rfl

theorem loadFan_loadFrame (f : Fin 8) : Block.load.Frame s (s.loadFan f) := by
  unfold State.loadFan
  extract_lets old t item u v
  have hv : Block.load.Frame s v := by
    refine .quiet rfl rfl rfl ?_
    exact fanEvent_requests _ _
  split
  · exact hv
  · exact ⟨hv.keeps.trans (.of_regs_cm rfl rfl), congrArg (fun t : State => ({ t with mail := _ } : State)) hv.leaves,
      hv.requests⟩

theorem loadGallery_loadFrame : Block.load.Frame s s.loadGallery := by
  unfold State.loadGallery
  simp only
  split <;> exact .quiet rfl rfl rfl rfl

theorem loadDoor_loadFrame (d : Fin 4) : Block.load.Frame s (s.loadDoor d) :=
  .quiet rfl rfl rfl (doorEvent_requests _ _)

theorem loadTemplate_loadFrame (i : Fin 8) : Block.load.Frame s (s.loadTemplate i) := .quiet rfl rfl rfl rfl

theorem EventKeeps.portEvent (p : Port) (act : PortState → PortState) (s : State) :
    EventKeeps s (State.portEvent p act s) := .of_raiseIf _ .link rfl rfl

theorem loadLink_loadFrame : Block.load.Frame s s.loadLink := by
  refine ⟨?_, rfl, fun _ => rfl⟩
  exact ((storeItem_loadFrame s .link).keeps.trans (.portEvent .up _ _)).trans (.portEvent .down _ _)

theorem commit_loadFrame (r : ItemRef) : Block.load.Frame s (s.commit r) := by
  cases r with
  | span => exact .refl _ s
  | gate g => exact .quiet rfl rfl rfl rfl
  | channel c => exact loadChannel_loadFrame s c
  | zone z => exact loadZone_loadFrame s z
  | fan f => exact loadFan_loadFrame s f
  | gallery => exact loadGallery_loadFrame s
  | door d => exact loadDoor_loadFrame s d
  | template i => exact loadTemplate_loadFrame s i
  | link => exact loadLink_loadFrame s

theorem loadItem_loadFrame (r : ItemRef) (t : Take) : Block.load.Frame s (s.loadItem r t) := by
  unfold State.loadItem
  split
  · exact (Block.Frame.refl _ s).reply rfl t _
  split
  · exact (Block.Frame.refl _ s).reply rfl t _
  split
  · exact (Block.Frame.refl _ s).reply rfl t _
  · exact (commit_loadFrame s r).reply rfl t _

end

/-! ## Every event -/

/-- An event that has not come about changes nothing; one that has is published, and its change keeps to the block's frame. -/
def EventOutcome (b : Block) (s t : State) : Prop :=
  t = s ∨ s.running = true ∧ ∃ a, t = publish s a ∧ b.Frame s a

theorem eventOutcome_of_internal {b : Block} {s t : State} {g : Bool} {act : State → State}
    (h : internal s g act = .next t) (hframe : b.Frame s (act s)) : EventOutcome b s t := by
  obtain ⟨rfl, -⟩ | ⟨hrunning, -, rfl⟩ := internal_next h
  · exact .inl rfl
  · exact .inr ⟨hrunning, _, rfl, hframe⟩

theorem exec_time {c : Instr} {s t : State} (hb : blockOf c = some .time) (h : exec c s = .next t) :
    EventOutcome .time s t := by
  cases c
  case secondsIncrement => exact eventOutcome_of_internal h ⟨⟨rfl, rfl, fun _ _ => rfl, rfl, id⟩, rfl, fun _ => rfl⟩
  case speedReferencePeriodStart => exact eventOutcome_of_internal h (.quiet rfl rfl rfl rfl)
  all_goals cases hb

theorem exec_input {c : Instr} {s t : State} (hb : blockOf c = some .input) (h : exec c s = .next t) :
    EventOutcome .input s t := by
  cases c
  case gateWindowEnd => exact eventOutcome_of_internal h (.quiet rfl rfl rfl rfl)
  all_goals cases hb

theorem exec_deck {c : Instr} {s t : State} (hb : blockOf c = some .deck) (h : exec c s = .next t) :
    EventOutcome .deck s t := by
  cases c
  case controlEvent d =>
    simp only [exec, execControlEvent] at h
    refine eventOutcome_of_internal h ?_
    split
    · exact deckEvent_deckFrame s d _
    · exact .refl _ s
  case postEvent d =>
    simp only [exec, execPostEvent] at h
    refine eventOutcome_of_internal h ?_
    split
    · exact deckEvent_deckFrame s d _
    · exact .refl _ s
  case cardTake =>
    simp only [exec, execCardTake] at h
    refine eventOutcome_of_internal h ?_
    split
    · exact .refl _ s
    · exact takeCard_deckFrame s _
  case cardCompletion d =>
    simp only [exec, execCardCompletion] at h
    refine eventOutcome_of_internal h ?_
    split
    · exact writeDone_deckFrame s d _
    · exact takeCompletion_deckFrame s d
  case deadlineExpiry d =>
    simp only [exec, execDeadlineExpiry] at h
    refine eventOutcome_of_internal h ?_
    split
    · exact .refl _ s
    · exact writeCard_deckFrame s (.refl _ s) d _ _
  all_goals cases hb

theorem exec_air {c : Instr} {s t : State} (hb : blockOf c = some .air) (h : exec c s = .next t) :
    EventOutcome .air s t := by
  have hreply (t : Take) (a : Answer) : Block.air.Frame s (s.reply t a) := (Block.Frame.refl _ s).reply rfl t a
  cases c
  case windowHandover =>
    simp only [exec, execWindowHandover] at h
    refine eventOutcome_of_internal h ?_
    split
    · exact .refl _ s
    · exact takeWindow_airFrame s _ _
  case markCard => exact eventOutcome_of_internal h (.dispatch fun t => hreply t _)
  case readCard => exact eventOutcome_of_internal h (.dispatch (.onTarget rfl fun _ t => hreply t _))
  case zeroCard => exact eventOutcome_of_internal h (.dispatch (.onTarget rfl (zeroChannel_airFrame s)))
  case clearSummaryCard => exact eventOutcome_of_internal h (.dispatch (.onTarget rfl (clearSummary_airFrame s)))
  case channelServiceCard => exact eventOutcome_of_internal h (.dispatch (.onTarget rfl (channelService_airFrame s)))
  all_goals cases hb

theorem exec_zone {c : Instr} {s t : State} (hb : blockOf c = some .zone) (h : exec c s = .next t) :
    EventOutcome .zone s t := by
  have hkeep (m : Mail) (z : Vector Zone 8) : Block.zone.Frame s { s with zones := z, mail := m } :=
    ⟨.of_regs_cm rfl rfl, rfl, nofun⟩
  cases c
  case zoneReevaluation z =>
    simp only [exec, execZoneReevaluation] at h
    exact eventOutcome_of_internal h (reevaluate_zoneFrame s z _)
  case confirmTimerExpiry z => exact eventOutcome_of_internal h (hkeep _ _)
  case slotFreed z =>
    simp only [exec, execSlotFreed] at h
    refine eventOutcome_of_internal h ?_
    split <;> exact hkeep _ _
  case incidentFreed z =>
    simp only [exec, execIncidentFreed] at h
    refine eventOutcome_of_internal h ?_
    split
    · exact .refl _ s
    · exact hkeep _ _
  all_goals cases hb

theorem exec_request {c : Instr} {s t : State} (hb : blockOf c = some .request) (h : exec c s = .next t) :
    EventOutcome .request s t := by
  cases c
  case creationRequest z =>
    simp only [exec, execCreationRequest] at h
    refine eventOutcome_of_internal h ?_
    split
    · exact .refl _ s
    · exact decideRequest_requestFrame s z _
  all_goals cases hb

theorem exec_fan {c : Instr} {s t : State} (hb : blockOf c = some .fan) (h : exec c s = .next t) :
    EventOutcome .fan s t := by
  have hevent (m : Mail) (hm : m.requests = s.mail.requests) (act : FanUnit → FanUnit) :
      Block.fan.Frame s (State.fanEvent act { s with mail := m }) := by
    have hmail : Block.fan.Frame s { s with mail := m } := .quiet rfl rfl rfl hm
    exact hmail.fanEvent act
  cases c
  case fanRunningContact f => exact eventOutcome_of_internal h (.fanContact f 0 _ s)
  case fanFaultContact f => exact eventOutcome_of_internal h (.fanContact f 1 _ s)
  case fanLocalContact f => exact eventOutcome_of_internal h (.fanContact f 2 _ s)
  case startLimitExpiry =>
    simp only [exec, execStartLimitExpiry] at h
    exact eventOutcome_of_internal h ((Block.Frame.refl _ s).fanEvent _)
  case settleExpiry => exact eventOutcome_of_internal h ((Block.Frame.refl _ s).fanEvent _)
  case rundownExpiry =>
    simp only [exec, execRundownExpiry] at h
    exact eventOutcome_of_internal h ((Block.Frame.refl _ s).fanEvent _)
  case fanRequestCard => exact eventOutcome_of_internal h (.dispatch (.onTarget rfl (fanRequest_fanFrame s)))
  case fanServiceCard => exact eventOutcome_of_internal h (.dispatch (.onTarget rfl (fanService_fanFrame s)))
  case fanResetCard => exact eventOutcome_of_internal h (.dispatch (.onTarget rfl (fanReset_fanFrame s)))
  case demandLevelChange =>
    simp only [exec, execDemandLevelChange] at h
    refine eventOutcome_of_internal h ?_
    split
    · exact .refl _ s
    · refine hevent _ ?_ _
      rfl
  case zoneLoadCommit =>
    simp only [exec, execZoneLoadCommit] at h
    refine eventOutcome_of_internal h ?_
    split
    · exact .refl _ s
    · refine hevent _ ?_ _
      rfl
  case placementChange =>
    simp only [exec, execPlacementChange] at h
    refine eventOutcome_of_internal h ?_
    split
    · exact .refl _ s
    · refine hevent _ ?_ _
      rfl
  case galleryDemandChange =>
    simp only [exec, execGalleryDemandChange] at h
    refine eventOutcome_of_internal h ?_
    split
    · exact .refl _ s
    · refine hevent _ ?_ _
      rfl
  case tachHandover =>
    simp only [exec, execTachHandover] at h
    refine eventOutcome_of_internal h ?_
    split
    · exact .refl _ s
    · refine hevent _ ?_ _
      rfl
  all_goals cases hb

theorem exec_door {c : Instr} {s t : State} (hb : blockOf c = some .door) (h : exec c s = .next t) :
    EventOutcome .door s t := by
  have hevent (m : Mail) (hm : m.requests = s.mail.requests) (act : DoorUnit → DoorUnit) :
      Block.door.Frame s (State.doorEvent act { s with mail := m }) := by
    have hmail : Block.door.Frame s { s with mail := m } := .quiet rfl rfl rfl hm
    exact hmail.doorEvent act
  cases c
  case doorClosedContact d => exact eventOutcome_of_internal h (.doorContact d 0 _ s)
  case doorBoltedContact d => exact eventOutcome_of_internal h (.doorContact d 1 _ s)
  case doorPushContact d => exact eventOutcome_of_internal h (.doorContact d 2 _ s)
  case boltTimerExpiry | reliefClockExpiry | assistTimerExpiry | heldOpenExpiry =>
    exact eventOutcome_of_internal h ((Block.Frame.refl _ s).doorEvent _)
  case doorModeCard => exact eventOutcome_of_internal h (.dispatch (.onTarget rfl (doorMode_doorFrame s)))
  case doorServiceCard => exact eventOutcome_of_internal h (.dispatch (.onTarget rfl (doorService_doorFrame s)))
  case doorResetCard => exact eventOutcome_of_internal h (.dispatch (.onTarget rfl (doorReset_doorFrame s)))
  case incidentDelivery =>
    simp only [exec, execIncidentDelivery] at h
    refine eventOutcome_of_internal h ?_
    split
    · exact .refl _ s
    · refine hevent _ ?_ _
      rfl
  case pressureReading =>
    simp only [exec, execPressureReading] at h
    refine eventOutcome_of_internal h ?_
    split
    · exact .refl _ s
    · refine hevent _ ?_ _
      rfl
  all_goals cases hb

theorem exec_incident {c : Instr} {s t : State} (hb : blockOf c = some .incident) (h : exec c s = .next t) :
    EventOutcome .incident s t := by
  have hreply (t : Take) (a : Answer) : Block.incident.Frame s (s.reply t a) := (Block.Frame.refl _ s).reply rfl t a
  cases c
  case notice =>
    simp only [exec, execNotice] at h
    refine eventOutcome_of_internal h ?_
    split
    · exact .refl _ s
    next rest _ =>
      have hmail : Block.incident.Frame s { s with mail := { s.mail with notices := rest } } := .quiet rfl rfl rfl rfl
      exact hmail.incidentEvent (.inl rfl) _
  case deficitDelivery =>
    simp only [exec, execDeficitDelivery] at h
    refine eventOutcome_of_internal h ?_
    split
    · exact .refl _ s
    · exact .quiet rfl rfl rfl rfl
  case clearedEntryExpiry =>
    simp only [exec, execClearedEntryExpiry] at h
    exact eventOutcome_of_internal h (.quiet rfl rfl rfl rfl)
  case refreshTimerExpiry | staleTimerExpiry | clearingTimerExpiry =>
    exact eventOutcome_of_internal h (.slotEvent _ _ s)
  case declareCard =>
    refine eventOutcome_of_internal h (.dispatch fun t => ?_)
    split
    · exact hreply t _
    · exact declareOn_incidentFrame s _ t
  case acknowledgeCard =>
    exact eventOutcome_of_internal h (.dispatch (.onIncident fun _ _ t =>
      ((Block.Frame.refl _ s).incidentEvent (.inl rfl) _).reply rfl t _))
  case clearCard => exact eventOutcome_of_internal h (.dispatch (.onIncident (clearIncident_incidentFrame s)))
  all_goals cases hb

theorem exec_placement {c : Instr} {s t : State} (hb : blockOf c = some .placement) (h : exec c s = .next t) :
    EventOutcome .placement s t := by
  have hevent (m : Mail) (hm : m.requests = s.mail.requests) (places : Bool) (act : PlacementUnit → PlacementUnit) :
      Block.placement.Frame s (State.placementEvent places act { s with mail := m }) := by
    have hmail : Block.placement.Frame s { s with mail := m } := .quiet rfl rfl rfl hm
    exact hmail.placementEvent places act
  cases c
  case governingChange =>
    simp only [exec, execGoverningChange] at h
    refine eventOutcome_of_internal h ?_
    split
    · exact .refl _ s
    · refine hevent _ ?_ _ _
      rfl
  case availabilityChange =>
    simp only [exec, execAvailabilityChange] at h
    refine eventOutcome_of_internal h ?_
    split
    · exact .refl _ s
    · refine hevent _ ?_ _ _
      rfl
  case fanItemChange =>
    simp only [exec, execFanItemChange] at h
    exact eventOutcome_of_internal h (hevent _ (by rfl) _ _)
  all_goals cases hb

theorem exec_port {c : Instr} {s t : State} (hb : blockOf c = some .port) (h : exec c s = .next t) :
    EventOutcome .port s t := by
  have hevent (p : Port) (act : PortState → PortState) : Block.port.Frame s (State.portEvent p act s) :=
    (Block.Frame.refl _ s).portEvent p act
  cases c
  case noticeEnqueue p o =>
    simp only [exec, execNoticeEnqueue] at h
    refine eventOutcome_of_internal h ?_
    split
    · exact .refl _ s
    · have hmail : Block.port.Frame s { s with mail := s.mail.setPort p ((s.mail.port p).pop o) } :=
        .quiet rfl rfl rfl (setPort_requests _ _ _)
      exact hmail.portEvent p _
  case incidentFrameTaken p =>
    simp only [exec, execIncidentFrameTaken] at h
    refine eventOutcome_of_internal h ?_
    split
    next n _ _ =>
      have hmail (q : Port) (x : PortMail) : Block.port.Frame s
          { s with mail := Mail.setPort { s.mail with notices := s.mail.notices ++ [n] } q x } :=
        .quiet rfl rfl rfl (setPort_requests _ _ _)
      exact (hmail _ _).portEvent p _
    · exact .refl _ s
  case frameReceive | incompleteFrame | lineIdleAfterReject | hold | helloTaken | agingTimerExpiry | holdTimerExpiry
      | holdRepeatExpiry | helloTimerExpiry | frameBegin | frameEnd =>
    exact eventOutcome_of_internal h (hevent _ _)
  all_goals cases hb

theorem exec_load {c : Instr} {s t : State} (hb : blockOf c = some .load) (h : exec c s = .next t) :
    EventOutcome .load s t := by
  cases c
  case loadCard =>
    refine eventOutcome_of_internal h (.dispatch fun t => ?_)
    split
    · exact (Block.Frame.refl _ s).reply rfl t _
    · exact loadItem_loadFrame s _ t
  all_goals cases hb

/-- Every event of the part keeps to the frame of its block. -/
theorem exec_event {c : Instr} {b : Block} {s t : State} (hb : blockOf c = some b) (h : exec c s = .next t) :
    EventOutcome b s t := by
  cases b with
  | time => exact exec_time hb h
  | input => exact exec_input hb h
  | deck => exact exec_deck hb h
  | air => exact exec_air hb h
  | zone => exact exec_zone hb h
  | request => exact exec_request hb h
  | fan => exact exec_fan hb h
  | door => exact exec_door hb h
  | incident => exact exec_incident hb h
  | placement => exact exec_placement hb h
  | port => exact exec_port hb h
  | load => exact exec_load hb h

/-! ## Every step -/

/-- What is left of a step once the queue has given up its front command: an event, or what the host, the pins, a validation or
the passing of time does. -/
inductive Took (s : State) : State → Prop
  | idle : Took s s
  | event {c : Instr} {b : Block} {t : State} (hb : blockOf c = some b) (h : exec c s = .next t) : Took s t
  | memoryRead (w : Word) (l : Option Latch) : Took s { s with hd := w, cm := { s.cm with latch := l } }
  | memoryWrite (a : Nat) (v : Word) : Took s (s.hostWrite a v).releaseLatch
  | registerRead (o : Offset) : Took s (s.registerRead o)
  | registerWrite (o : Offset) (v : Word) : Took s (s.registerWrite o v)
  | powerOn : Took s s.powerOnReset
  | release : Took s { s with resetAsserted := false }
  | validate (item : ItemRef) (h : s.validating = true) : Took s (s.validateItem item)
  | pin (i : Fin 36) (level : Bool) : Took s { s with contacts := modify s.contacts i ({ · with pin := level }) }
  | contact (i : Fin 36) (level : Bool) (h : s.running = true) :
    Took s (State.sampleContact { s with contacts := modify s.contacts i ({ · with pin := level }) } i)
  | measured (c : Fin 12) (level : Bool) :
    Took s { s with measured := modify s.measured c fun p => if s.running then p.drive level else { p with pin := level } }
  | tach (f : Fin 8) (level : Bool) :
    Took s { s with tach := modify s.tach f fun p => if s.running then p.drive level else { p with pin := level } }
  | samples (h : s.running = true) : Took s s.takeSamples
  | tick : Took s s.tick

theorem exec_took {c : Instr} {s t : State} (h : exec c s = .next t) : Took s t := by
  cases hb : blockOf c with
  | some b => exact .event hb h
  | none =>
    cases c
    case hostMemoryRead o =>
      simp only [exec, execHostMemoryRead] at h
      split at h <;> cases h
      · exact .memoryRead 0 s.cm.latch
      · exact .memoryRead _ _
    case hostMemoryWrite o v =>
      simp only [exec, execHostMemoryWrite] at h
      split at h <;> cases h
      · exact .idle
      · exact .memoryWrite _ v
    case identRead o | secondsLowRead o => cases h; exact .registerRead o
    case start v o | softReset v o | attentionClear v o | attentionMaskWrite v o | registerWriteDiscarded v o =>
      cases h; exact .registerWrite o v
    case powerOnReset => cases h; exact .powerOn
    case resetRelease => cases h; exact .release
    case itemValidation =>
      simp only [exec, execItemValidation] at h
      split at h
      next hv =>
        split at h <;> cases h
        · exact .idle
        · exact .validate _ hv
      next => cases h; exact .idle
    case contactConfirm i level =>
      simp only [exec, execContactConfirm] at h
      split at h <;> cases h
      next hr => exact .contact i level hr
      · exact .pin i level
    case pulseCount p level =>
      cases p with
      | mp c => cases h; exact .measured c level
      | tp f => cases h; exact .tach f level
    all_goals cases hb

/-- A step takes one command off the queue, if there is one, and does what that command does; or the part moves on by itself. -/
theorem step_took {s t : State} (h : step s = .next t) : ∃ p, Took { s with pending := p } t := by
  unfold step at h
  split at h
  · exact ⟨_, exec_took h⟩
  · refine ⟨s.pending, ?_⟩
    split at h
    · exact exec_took h
    · cases h
      split
      next hsamples => exact .samples (by simpa [State.samplesWait] using And.left (Bool.and_eq_true _ _ ▸ hsamples))
      · exact .tick

/-! ## Steps that are no event -/

/-- The state of the blocks and what they stand on are untouched; decks may differ in the words that the host writes. -/
structure Undisturbed (s t : State) : Prop where
  runState : t.regs.runState = .running ↔ s.regs.runState = .running
  active : t.active = s.active
  decks : ∀ d : Fin 4, t.decks[d] = { s.decks[d] with
    baseWord := t.decks[d].baseWord, lengthWord := t.decks[d].lengthWord, controlWord := t.decks[d].controlWord
    postWord := t.decks[d].postWord }
  channels : t.channels = s.channels
  zones : t.zones = s.zones
  fans : t.fans = s.fans
  doors : t.doors = s.doors
  incidents : t.incidents = s.incidents
  link : t.link = s.link
  requests : t.mail.requests = s.mail.requests

/-- Where the blocks' fields are the same, nothing is disturbed. -/
theorem Undisturbed.of_eq {s t : State} (hrun : t.regs.runState = .running ↔ s.regs.runState = .running)
    (h : t = { s with
      pending := t.pending, now := t.now, secondsDue := t.secondsDue, periodDue := t.periodDue, hd := t.hd
      resetAsserted := t.resetAsserted, regs := t.regs, cm := t.cm, candidate := t.candidate, contacts := t.contacts
      measured := t.measured, tach := t.tach, gates := t.gates, sref := t.sref
      mail := { t.mail with requests := s.mail.requests } }) : Undisturbed s t where
  runState := hrun
  active := by rw [h]
  decks d := by
    have hd : t.decks = s.decks := by rw [h]
    rw [hd]
  channels := by rw [h]
  zones := by rw [h]
  fans := by rw [h]
  doors := by rw [h]
  incidents := by rw [h]
  link := by rw [h]
  requests := by rw [h]

theorem Undisturbed.pending (s : State) (p : List Instr) : Undisturbed s { s with pending := p } := .of_eq .rfl rfl

theorem Undisturbed.publish (b a : State) : Undisturbed a (publish b a) := .of_eq (by simp) rfl

theorem Undisturbed.softReset (s : State) : Undisturbed .reset s.softReset := .of_eq .rfl rfl

theorem Undisturbed.powerOnReset (s : State) : Undisturbed .reset s.powerOnReset := .of_eq .rfl rfl

/-- A header write changes the words of one deck and may deliver an event. -/
theorem Undisturbed.writeHeader (s : State) (d : Fin 4) (k : Nat) (v : Word) : Undisturbed s (s.writeHeader d k v) := by
  have hdiscarded : Undisturbed s s.discarded := .of_eq (by simp [State.discarded]) rfl
  have hdeck (g : Deck → Deck) (m : Mail) (hm : m.requests = s.mail.requests)
      (hg : ∀ e : Deck, g e = { e with
        baseWord := (g e).baseWord, lengthWord := (g e).lengthWord, controlWord := (g e).controlWord
        postWord := (g e).postWord }) : Undisturbed s { s with decks := modify s.decks d g, mail := m } := by
    refine ⟨.rfl, rfl, fun e => ?_, rfl, rfl, rfl, rfl, rfl, rfl, hm⟩
    by_cases he : e = d
    · subst he
      simp only [modify_get_same]
      exact hg _
    · simp only [modify_get_other _ _ he]
  unfold State.writeHeader
  simp only
  split
  · split
    · exact hdeck _ _ rfl fun _ => rfl
    · exact hdiscarded
  · split
    · exact hdeck _ _ rfl fun _ => rfl
    · exact hdiscarded
  · exact hdeck _ _ (by split <;> rfl) fun _ => rfl
  · exact hdeck _ _ (by split <;> rfl) fun _ => rfl
  · exact hdiscarded

theorem Undisturbed.trans {s t u : State} (h : Undisturbed s t) (k : Undisturbed t u) : Undisturbed s u where
  runState := k.runState.trans h.runState
  active := k.active.trans h.active
  decks d := by rw [k.decks d, h.decks d]
  channels := k.channels.trans h.channels
  zones := k.zones.trans h.zones
  fans := k.fans.trans h.fans
  doors := k.doors.trans h.doors
  incidents := k.incidents.trans h.incidents
  link := k.link.trans h.link
  requests := k.requests.trans h.requests

theorem Undisturbed.hostWrite (s : State) (a : Nat) (v : Word) : Undisturbed s (s.hostWrite a v).releaseLatch := by
  suffices Undisturbed s (s.hostWrite a v) from this.trans (.of_eq .rfl rfl)
  unfold State.hostWrite
  split
  · exact .of_eq .rfl rfl
  split
  · exact .writeHeader s _ _ v
  split
  · exact .of_eq .rfl rfl
  split
  · exact .of_eq (by simp [State.discarded]) rfl
  · exact .of_eq .rfl rfl

theorem Undisturbed.registerRead (s : State) (o : Offset) : Undisturbed s (s.registerRead o) := by
  unfold State.registerRead
  split
  · exact .of_eq .rfl rfl
  · refine .of_eq ?_ rfl
    unfold Registers.afterRead
    split <;> exact .rfl

/-- START leaves RUNNING alone, and does not bring it about. -/
theorem Undisturbed.start (s : State) : Undisturbed s s.start := by
  unfold State.start
  split
  next h =>
    refine .of_eq ?_ rfl
    cases hr : s.regs.runState <;> simp_all [RunState.takesStart, Registers.startUp]
  · exact .of_eq .rfl rfl

/-- A register write is a soft reset, or disturbs nothing. -/
theorem registerWrite_cases (s : State) (o : Offset) (v : Word) :
    s.registerWrite o v = s.softReset ∨ Undisturbed s (s.registerWrite o v) := by
  unfold State.registerWrite
  split
  · exact .inr (.of_eq .rfl rfl)
  split
  · unfold State.controlWrite
    split
    · exact .inl rfl
    split
    · exact .inr (.start s)
    · exact .inr (.of_eq .rfl rfl)
  · exact .inr (.of_eq .rfl rfl)
  · exact .inr (.of_eq .rfl rfl)
  · exact .inr (.of_eq (by simp [State.discarded]) rfl)

/-- While the part is STARTING, an item that fails or is not the last disturbs nothing; the last one enters RUNNING. -/
theorem validateItem_cases (s : State) (item : ItemRef) (h : s.validating = true) :
    (∃ p, Undisturbed s p ∧ s.validateItem item = p.enterRunning) ∨ Undisturbed s (s.validateItem item) := by
  have hstarting : s.regs.runState = .starting := by
    simp only [State.validating, Bool.and_eq_true, decide_eq_true_eq] at h
    exact h.1
  simp only [State.validateItem]
  split
  · exact .inr (.of_eq (by simp [hstarting, Registers.configFault]) rfl)
  split
  · exact .inr (.of_eq .rfl rfl)
  · refine .inl ⟨_, ?_, rfl⟩
    exact .of_eq .rfl rfl

theorem Undisturbed.tick (s : State) : Undisturbed s s.tick := by
  simp only [State.tick]
  split <;> exact .of_eq .rfl rfl

theorem Undisturbed.sampleContact (s : State) (i : Fin 36) : Undisturbed s (s.sampleContact i) := .of_eq .rfl rfl

theorem Undisturbed.takeSamples (s : State) : Undisturbed s s.takeSamples := by
  unfold State.takeSamples
  exact .of_eq .rfl rfl

/-- A property of the blocks' state is kept by every step if it does not depend on what lies outside the blocks, holds at reset and
on entry to RUNNING, is kept by the events of its own blocks and does not see those of the others. -/
theorem keptByEveryStep_of_events {inv : State → Prop} (own : Block → Bool)
    (same : ∀ {s t : State}, Undisturbed s t → inv s → inv t) (reset : inv .reset)
    (enters : ∀ s : State, inv s → inv s.enterRunning)
    (others : ∀ {b : Block} {s a : State}, own b = false → b.Frame s a → inv s → inv a)
    (events : ∀ {c : Instr} {b : Block} {s t : State}, own b = true → blockOf c = some b → exec c s = .next t →
      inv s → inv t) : KeptByEveryStep inv := by
  intro s t hs h
  obtain ⟨p, hp⟩ := step_took h
  replace hs := same (.pending s p) hs
  generalize { s with pending := p } = s at hp hs
  cases hp with
  | idle => exact hs
  | @event c b _ hb h =>
    cases hown : own b with
    | true => exact events hown hb h hs
    | false =>
      obtain rfl | ⟨-, a, rfl, hframe⟩ := exec_event hb h
      · exact hs
      · exact same (.publish s a) (others hown hframe hs)
  | memoryRead w l => exact same (s := s) (.of_eq .rfl rfl) hs
  | memoryWrite a v => exact same (.hostWrite s a v) hs
  | registerRead o => exact same (.registerRead s o) hs
  | registerWrite o v =>
    obtain hreset | hsame := registerWrite_cases s o v
    · rw [hreset]; exact same (.softReset s) reset
    · exact same hsame hs
  | powerOn => exact same (.powerOnReset s) reset
  | release => exact same (s := s) (.of_eq .rfl rfl) hs
  | validate item hv =>
    obtain ⟨q, hq, henters⟩ | hsame := validateItem_cases s item hv
    · rw [henters]; exact enters q (same hq hs)
    · exact same hsame hs
  | pin | measured | tach => exact same (s := s) (.of_eq .rfl rfl) hs
  | contact i level =>
    have hpin : inv { s with contacts := modify s.contacts i ({ · with pin := level }) } :=
      same (s := s) (.of_eq .rfl rfl) hs
    exact same (.sampleContact _ i) hpin
  | samples => exact same (.takeSamples s) hs
  | tick => exact same (.tick s) hs

/-! ## Unused bits -/

theorem flagBit_getLsbD {k : Nat} (hk : k < 16) (b : Bool) (n : Nat) : (flagBit k b).getLsbD n = (b && decide (n = k)) := by
  cases b
  · simp [flagBit]
  · by_cases hn : n = k
    · subst hn
      simp [flagBit, hk, -BitVec.getLsbD_eq_getElem]
    · by_cases hlt : n < k
      · simp [flagBit, hn, hlt, -BitVec.getLsbD_eq_getElem]
      · have hsub : n - k ≠ 0 := by omega
        simp [flagBit, hn, hsub, -BitVec.getLsbD_eq_getElem, BitVec.getLsbD_one]

/-- The bits of a word of flags are the flags of its positions. -/
theorem bitsOf_getLsbD {count : Nat} (hcount : count ≤ 16) (f : Nat → Bool) (n : Nat) :
    (bitsOf count f).getLsbD n = (decide (n < count) && f n) := by
  unfold bitsOf
  induction count with
  | zero => simp
  | succ k ih =>
    rw [List.range_succ, List.foldl_append, List.foldl_cons, List.foldl_nil, BitVec.getLsbD_or, ih (by omega),
      flagBit_getLsbD (by omega)]
    by_cases hn : n = k
    · subst hn; simp
    · have hiff : n < k + 1 ↔ n < k := by omega
      simp [hn, hiff]

/-- How many records, or decks, a change mask has a bit for. -/
def maskSize (w : Fin 8) : Nat := ([12, 8, 4, 8, 4, 2, 3, 4] : List Nat)[w]

theorem maskUsed_eq (w : Fin 8) : maskUsed w = bitsOf (maskSize w) fun _ => true := by decide +revert

/-- The used bits of a change mask are those of its records. -/
theorem maskUsed_getLsbD (w : Fin 8) (n : Nat) : (maskUsed w).getLsbD n = decide (n < maskSize w) := by
  have hsize : maskSize w ≤ 16 := by decide +revert
  rw [maskUsed_eq, bitsOf_getLsbD hsize, Bool.and_true]

theorem lt_of_bitsOf {count n : Nat} {f : Nat → Bool} (hcount : count ≤ 16) (h : (bitsOf count f).getLsbD n = true) :
    n < count := by
  rw [bitsOf_getLsbD hcount, Bool.and_eq_true, decide_eq_true_eq] at h
  exact h.1

theorem eq_of_flagBit {k n : Nat} {b : Bool} (hk : k < 16) (h : (flagBit k b).getLsbD n = true) : n = k := by
  rw [flagBit_getLsbD hk, Bool.and_eq_true, decide_eq_true_eq] at h
  exact h.2

/-- An event marks records that exist. -/
theorem changedBits_lt {b a : State} {w : Fin 8} {n : Nat} (h : (changedBits b a w).getLsbD n = true) : n < maskSize w := by
  match w with
  | 0 => exact lt_of_bitsOf (count := 12) (by omega) h
  | 1 => exact lt_of_bitsOf (count := 8) (by omega) h
  | 2 => exact lt_of_bitsOf (count := 4) (by omega) h
  | 3 => exact lt_of_bitsOf (count := 8) (by omega) h
  | 4 => exact lt_of_bitsOf (count := 4) (by omega) h
  | 7 => exact lt_of_bitsOf (count := 4) (by omega) h
  | 5 =>
    show n < 2
    replace h : (flagBit 0 _ ||| flagBit 1 _).getLsbD n = true := h
    rw [BitVec.getLsbD_or, Bool.or_eq_true] at h
    rcases h with h | h
    · have := eq_of_flagBit (by omega) h; omega
    · have := eq_of_flagBit (by omega) h; omega
  | 6 =>
    show n < 3
    replace h : (flagBit 0 _ ||| flagBit 1 _ ||| flagBit 2 _).getLsbD n = true := h
    rw [BitVec.getLsbD_or, BitVec.getLsbD_or, Bool.or_eq_true, Bool.or_eq_true] at h
    rcases h with (h | h) | h
    · have := eq_of_flagBit (by omega) h; omega
    · have := eq_of_flagBit (by omega) h; omega
    · have := eq_of_flagBit (by omega) h; omega

theorem changedBits_used {b a : State} {w : Fin 8} {n : Nat} (h : (changedBits b a w).getLsbD n = true) :
    (maskUsed w).getLsbD n = true := by
  rw [maskUsed_getLsbD, decide_eq_true_eq]
  exact changedBits_lt h

theorem MemoryWf.publish {b a : State} (h : MemoryWf a) : MemoryWf (publish b a) := by
  obtain ⟨hbytes, hmasks, hregs⟩ := h
  refine ⟨hbytes, fun w n hn => ?_, fun n hn => ?_⟩
  · have hmask : (Machine.publish b a).cm.masks[w] = a.cm.masks[w] ||| changedBits b a w := by simp [Machine.publish]
    rw [hmask, BitVec.getLsbD_or, Bool.or_eq_true] at hn
    exact hn.elim (hmasks w n) changedBits_used
  · have hused := hregs n hn
    simp only [Machine.publish]
    rw [raiseIf_attention_unused _ _ _ hn, raiseIf_frame]
    exact hused

theorem MemoryWf.event {s a : State} (h : MemoryWf s) (hkeeps : EventKeeps s a) : MemoryWf a := by
  obtain ⟨hbytes, hmasks, hregs⟩ := h
  refine ⟨hkeeps.bytes hbytes, ?_, fun n hn => ?_⟩
  · rw [hkeeps.masks]; exact hmasks
  · rw [hkeeps.attention n hn, hkeeps.attentionMask]; exact hregs n hn

/-- The parts of the state that stand in the memory invariant. -/
theorem MemoryWf.congr {s t : State} (h : MemoryWf s) (hcm : t.cm.bytes = s.cm.bytes) (hmasks : t.cm.masks = s.cm.masks)
    (hattention : t.regs.attention = s.regs.attention) (hmask : t.regs.attentionMask = s.regs.attentionMask) :
    MemoryWf t := by
  unfold MemoryWf
  rw [hcm, hmasks, hattention, hmask]
  exact h

theorem MemoryWf.reset : MemoryWf .reset := by
  refine ⟨rfl, fun w n h => ?_, fun n _ => ?_⟩
  · simp [State.reset, -BitVec.getLsbD_eq_getElem] at h
  · simp [State.reset, Registers.reset]

/-- A soft reset keeps the bytes and clears the rest. -/
theorem MemoryWf.softReset {s : State} (h : MemoryWf s) : MemoryWf s.softReset := ⟨h.1, MemoryWf.reset.2⟩

theorem MemoryWf.discarded {s : State} (h : MemoryWf s) : MemoryWf s.discarded :=
  h.event (.of_raiseIf true .access rfl rfl)

theorem MemoryWf.bytes {s : State} (h : MemoryWf s) (a : Nat) (v : Word) :
    MemoryWf { s with cm := { s.cm with bytes := s.cm.bytes.writeWord a v } } :=
  ⟨Memory.wf_writeWord a v h.1, h.2⟩

theorem MemoryWf.hostWrite {s : State} (h : MemoryWf s) (a : Nat) (v : Word) : MemoryWf (s.hostWrite a v).releaseLatch := by
  suffices MemoryWf (s.hostWrite a v) from this.congr rfl rfl rfl rfl
  unfold State.hostWrite
  split
  · exact h.bytes a v
  split
  · unfold State.writeHeader
    simp only
    split
    · split
      · exact h.congr rfl rfl rfl rfl
      · exact h.discarded
    · split
      · exact h.congr rfl rfl rfl rfl
      · exact h.discarded
    · exact h.congr rfl rfl rfl rfl
    · exact h.congr rfl rfl rfl rfl
    · exact h.discarded
  split
  · refine ⟨h.1, fun w n hn => h.2.1 w n ?_, h.2.2⟩
    by_cases hw : w = maskIndex a
    · subst hw
      simp only [modify_get_same, BitVec.getLsbD_and, Bool.and_eq_true] at hn
      exact hn.1
    · simpa only [modify_get_other _ _ hw] using hn
  split
  · exact h.discarded
  · exact h.bytes a v

theorem MemoryWf.registerRead {s : State} (h : MemoryWf s) (o : Offset) : MemoryWf (s.registerRead o) := by
  unfold State.registerRead Registers.afterRead
  split
  · exact h.congr rfl rfl rfl rfl
  · refine h.congr rfl rfl ?_ ?_ <;> simp only <;> split <;> rfl

theorem MemoryWf.registerWrite {s : State} (h : MemoryWf s) (o : Offset) (v : Word) : MemoryWf (s.registerWrite o v) := by
  unfold State.registerWrite
  split
  · exact h
  split
  · unfold State.controlWrite State.start
    split
    · exact h.softReset
    split
    · split
      · exact h.congr rfl rfl rfl rfl
      · exact h
    · exact h
  · refine ⟨h.1, h.2.1, fun n hn => ⟨?_, (h.2.2 n hn).2⟩⟩
    rw [BitVec.getLsbD_and, (h.2.2 n hn).1, Bool.false_and]
  · refine ⟨h.1, h.2.1, fun n hn => ⟨(h.2.2 n hn).1, ?_⟩⟩
    have hcause : causeBits.getLsbD n = false := by
      have hbits : causeBits = bitsOf 7 fun _ => true := by decide
      have hout : ¬n < 7 := by omega
      rw [hbits, bitsOf_getLsbD (by omega), decide_eq_false hout, Bool.false_and]
    rw [BitVec.getLsbD_and, hcause, Bool.and_false]
  · exact h.discarded

theorem MemoryWf.enterRunning {s : State} (h : MemoryWf s) : MemoryWf s.enterRunning := by
  refine ⟨h.1, fun w n hn => ?_, fun n hn => ?_⟩
  · have hmask : s.enterRunning.cm.masks[w] = if w.val = 7 then 0 else maskUsed w := by
      simp [State.enterRunning, enteringMasks]
    rw [hmask] at hn
    split at hn
    · simp [-BitVec.getLsbD_eq_getElem] at hn
    · exact hn
  · refine ⟨?_, (h.2.2 n hn).2⟩
    simp only [State.enterRunning, Registers.enterRunning]
    rw [raise_attention_unused _ _ hn, raise_attention_unused _ _ hn]
    exact (h.2.2 n hn).1

theorem MemoryWf.validateItem {s : State} (h : MemoryWf s) (item : ItemRef) : MemoryWf (s.validateItem item) := by
  unfold State.validateItem
  simp only
  split
  · refine ⟨h.1, h.2.1, fun n hn => ?_⟩
    simp only [Registers.configFault]
    rw [raise_attention_unused _ _ hn]
    exact h.2.2 n hn
  split
  · exact h.congr rfl rfl rfl rfl
  · exact MemoryWf.enterRunning (h.congr rfl rfl rfl rfl)

theorem MemoryWf.tick {s : State} (h : MemoryWf s) : MemoryWf s.tick := by
  unfold State.tick
  simp only
  split <;> exact h.congr rfl rfl rfl rfl

/-- Settles O53: no event leaves the canonical form (`EventKeeps`), publishing marks only records that exist, and the accesses of
the host keep to the used bits one by one. -/
theorem everyStepKeepsTheMemoryCanonical : Obligations.EveryStepKeepsTheMemoryCanonical := by
  intro s t hs h
  obtain ⟨p, hp⟩ := step_took h
  replace hs : MemoryWf { s with pending := p } := hs.congr rfl rfl rfl rfl
  generalize { s with pending := p } = s at hp hs
  cases hp with
  | idle => exact hs
  | event hb h =>
    obtain rfl | ⟨-, a, rfl, hframe⟩ := exec_event hb h
    · exact hs
    · exact (hs.event hframe.keeps).publish
  | memoryWrite a v => exact hs.hostWrite a v
  | registerRead o => exact hs.registerRead o
  | registerWrite o v => exact hs.registerWrite o v
  | powerOn => exact MemoryWf.reset.congr rfl rfl rfl rfl
  | validate item => exact hs.validateItem item
  | memoryRead | release | pin | contact | measured | tach | samples => exact hs.congr rfl rfl rfl rfl
  | tick => exact hs.tick

/-! ## One deck -/

/-- What `DecksWf` says of one deck. -/
structure Deck.Wf (o : Deck) : Prop where
  off_iff : o.state = .off ↔ o.seenEnable = false
  off : o.state = .off → o.accepted = 0 ∧ o.done = 0 ∧ o.error = .none
  error_iff : o.error ≠ .none ↔ o.state = .stopped
  laidOut : o.InUse → o.LaidOut
  flying_iff : o.inFlight.isSome = true ∨ o.finishing.isSome = true ↔ o.state = .running ∨ o.state = .suspendPending
  oneAccess : o.inFlight = none ∨ o.finishing = none
  inFlight_slot : ∀ f, o.inFlight = some f → f.slot = o.done
  finishing_slot : ∀ f, o.finishing = some f → f.slot = o.done
  taken : o.state = .running ∨ o.state = .suspendPending →
    o.done ≠ o.accepted ∧ o.taken = BitVec.ofNat 16 (o.base + 32 * o.done)
  taken_zero : o.state = .waiting ∨ o.state = .suspended ∨ o.state = .off → o.taken = 0

/-- The areas of two decks do not meet. -/
def Deck.Apart (o p : Deck) : Prop := o.base + 32 * o.length ≤ p.base ∨ p.base + 32 * p.length ≤ o.base

theorem decksWf_iff {s : State} : DecksWf s ↔ (∀ d : Fin 4, s.decks[d].Wf) ∧
    ∀ j k : Fin 4, j ≠ k → s.decks[j].InUse → s.decks[k].InUse → s.decks[j].Apart s.decks[k] := by
  refine and_congr_left fun _ => forall_congr' fun d => ⟨?_, ?_⟩
  · rintro ⟨h1, h2, h3, h4, h5, h6, h7, h8, h9, h10⟩
    exact ⟨h1, h2, h3, h4, h5, h6, h7, h8, h9, h10⟩
  · rintro ⟨h1, h2, h3, h4, h5, h6, h7, h8, h9, h10⟩
    exact ⟨h1, h2, h3, h4, h5, h6, h7, h8, h9, h10⟩

theorem Deck.Apart.symm {o p : Deck} (h : o.Apart p) : p.Apart o := Or.symm h

/-- A deck's part of the invariant, after an event at that deck alone. -/
theorem DecksWf.set {s t : State} (h : DecksWf s) {d : Fin 4} {o : Deck} (hdecks : t.decks = s.decks.set d o) (ho : o.Wf)
    (hapart : ∀ k, k ≠ d → o.InUse → s.decks[k].InUse → o.Apart s.decks[k]) : DecksWf t := by
  obtain ⟨hwf, hareas⟩ := decksWf_iff.mp h
  have hsame : t.decks[d] = o := by simp [hdecks]
  have hother {k : Fin 4} (hk : k ≠ d) : t.decks[k] = s.decks[k] := by rw [hdecks]; exact set_get_other _ _ hk
  refine decksWf_iff.mpr ⟨fun k => ?_, fun j k hjk hj hk => ?_⟩
  · by_cases hk : k = d
    · subst hk; rw [hsame]; exact ho
    · rw [hother hk]; exact hwf k
  · by_cases hjd : j = d
    · subst hjd
      have hkd : k ≠ j := Ne.symm hjk
      rw [hsame] at hj ⊢
      rw [hother hkd] at hk ⊢
      exact hapart k hkd hj hk
    · rw [hother hjd] at hj ⊢
      by_cases hkd : k = d
      · subst hkd
        rw [hsame] at hk ⊢
        exact (hapart j hjd hk hj).symm
      · rw [hother hkd] at hk ⊢
        exact hareas j k hjk hj hk

/-- An event that leaves its deck's area, and takes no new one into use. -/
theorem DecksWf.set_sameArea {s t : State} (h : DecksWf s) {d : Fin 4} {o : Deck} (hdecks : t.decks = s.decks.set d o)
    (ho : o.Wf) (hbase : o.base = s.decks[d].base) (hlength : o.length = s.decks[d].length)
    (huse : o.InUse → s.decks[d].InUse) : DecksWf t := by
  refine h.set hdecks ho fun k hk hd hkuse => ?_
  have hapart := (decksWf_iff.mp h).2 d k (Ne.symm hk) (huse hd) hkuse
  unfold Deck.Apart at hapart ⊢
  rwa [hbase, hlength]

/-- The words that the host writes are no part of the invariant. -/
theorem DecksWf.undisturbed {s t : State} (h : Undisturbed s t) (hs : DecksWf s) : DecksWf t := by
  obtain ⟨hwf, hareas⟩ := decksWf_iff.mp hs
  refine decksWf_iff.mpr ⟨fun d => ?_, fun j k hjk hj hk => ?_⟩
  · rw [h.decks d]
    obtain ⟨h1, h2, h3, h4, h5, h6, h7, h8, h9, h10⟩ := hwf d
    exact ⟨h1, h2, h3, h4, h5, h6, h7, h8, h9, h10⟩
  · rw [h.decks j] at hj ⊢
    rw [h.decks k] at hk ⊢
    exact hareas j k hjk hj hk

/-! ## Events at a deck -/

section
variable {d : Deck}

theorem Deck.InUse.state_ne_off (h : d.InUse) : d.state ≠ .off := h.1

/-- A deck without a card in flight or a header write is neither RUNNING nor SUSPEND_PENDING. -/
theorem Deck.Wf.idle (h : d.Wf) (hf : d.inFlight = none) (hs : d.finishing = none) :
    d.state ≠ .running ∧ d.state ≠ .suspendPending := by
  have := h.flying_iff
  simp [hf, hs] at this
  exact this

/-- A deck that enters STOPPED, its card abandoned. -/
theorem stop_wf (hs : d.finishing = none) (hseen : d.seenEnable = true) {e : DeckError} (he : e ≠ .none)
    (hlaid : e ≠ .header → d.LaidOut) : (d.stop e).Wf where
  off_iff := by simp [Deck.stop, hseen]
  off := by simp [Deck.stop]
  error_iff := by simp [Deck.stop, he]
  laidOut := fun huse => hlaid fun hheader => huse.2 ⟨rfl, hheader⟩
  flying_iff := by simp [Deck.stop, hs]
  oneAccess := .inl rfl
  inFlight_slot := nofun
  finishing_slot := by simp [Deck.stop, hs]
  taken := by simp [Deck.stop]
  taken_zero := by simp [Deck.stop]

theorem disable_wf {v : Word} (hs : d.finishing = none) (hv : v.getLsbD 0 = false) : (d.disable.seeing v).Wf where
  off_iff := iff_of_true rfl hv
  off := fun _ => ⟨rfl, rfl, rfl⟩
  error_iff := by simp [Deck.disable, Deck.seeing]
  laidOut := fun huse => absurd rfl huse.1
  flying_iff := by simp [Deck.disable, Deck.seeing, hs]
  oneAccess := .inl rfl
  inFlight_slot := nofun
  finishing_slot := by simp [Deck.disable, Deck.seeing, hs]
  taken := by simp [Deck.disable, Deck.seeing]
  taken_zero := fun _ => rfl

/-- A deck that takes up the area of a good header. -/
theorem enable_wf {v : Word} (h : d.Wf) (hoff : d.state = .off) (hv : v.getLsbD 0 = true) (hgood : d.headerOk = true)
    (suspend : Bool) : ((d.enable true suspend).seeing v).Wf := by
  obtain ⟨-, -, herror⟩ := h.off hoff
  have hidle : ¬(d.inFlight.isSome = true ∨ d.finishing.isSome = true) := fun hf => by simpa [hoff] using h.flying_iff.mp hf
  have hflight : d.inFlight = none := by simpa using mt Or.inl hidle
  have hfinishing : d.finishing = none := by simpa using mt Or.inr hidle
  simp only [Deck.headerOk, Bool.and_eq_true, decide_eq_true_eq] at hgood
  cases suspend <;> exact
    { off_iff := by simp [Deck.enable, Deck.seeing, hv, -BitVec.getLsbD_eq_getElem]
      off := by simp [Deck.enable, Deck.seeing]
      error_iff := by simp [Deck.enable, Deck.seeing, herror]
      laidOut := fun _ => by simp only [Deck.LaidOut, Deck.enable, Deck.seeing, if_true]; omega
      flying_iff := by simp [Deck.enable, Deck.seeing, hflight, hfinishing]
      oneAccess := .inl hflight
      inFlight_slot := by simp [Deck.enable, Deck.seeing, hflight]
      finishing_slot := by simp [Deck.enable, Deck.seeing, hfinishing]
      taken := by simp [Deck.enable, Deck.seeing]
      taken_zero := fun _ => h.taken_zero (.inr (.inr hoff)) }

/-- A deck that moves between WAITING and SUSPENDED, or between RUNNING and SUSPEND_PENDING. -/
theorem Deck.Wf.moved {v : Word} {st : DeckState} (h : d.Wf) (hseen : d.seenEnable = true) (hv : v.getLsbD 0 = true)
    (hst : st = d.state ∨ (st = .suspended ∧ d.state = .waiting) ∨ (st = .waiting ∧ d.state = .suspended) ∨
      (st = .suspendPending ∧ d.state = .running) ∨ (st = .running ∧ d.state = .suspendPending)) :
    (Deck.seeing v { d with state := st }).Wf := by
  obtain ⟨h1, h2, h3, h4, h5, h6, h7, h8, h9, h10⟩ := h
  have hon : d.state ≠ .off := fun hoff => by simp [h1.mp hoff] at hseen
  obtain rfl | ⟨rfl, hd⟩ | ⟨rfl, hd⟩ | ⟨rfl, hd⟩ | ⟨rfl, hd⟩ := hst
  · exact ⟨iff_of_false hon (by simp [Deck.seeing, hv, -BitVec.getLsbD_eq_getElem]), h2, h3, h4, h5, h6, h7, h8, h9, h10⟩
  all_goals
    simp only [Deck.InUse, Deck.LaidOut, hd] at h2 h3 h4 h5 h9 h10
    constructor <;> simp_all [Deck.InUse, Deck.LaidOut, Deck.seeing, -BitVec.getLsbD_eq_getElem]

/-- A control event leaves its deck well-formed; if it takes an area into use, that area passed the checks. -/
theorem control_wf {valid : Bool} (v : Word) (h : d.Wf) (hs : d.finishing = none) (hgood : valid = true → d.headerOk = true) :
    (d.control valid v).Wf := by
  cases hv : v.getLsbD 0 <;> cases hseen : d.seenEnable
  · rw [control_recorded valid (hv.trans hseen.symm) (.inl hv)]
    have hoff := h.off_iff.mpr hseen
    obtain ⟨h1, h2, h3, h4, h5, h6, h7, h8, h9, h10⟩ := h
    exact ⟨iff_of_true hoff hv, h2, h3, h4, h5, h6, h7, h8, h9, h10⟩
  · rw [control_disable valid hv hseen]
    exact disable_wf hs hv
  · rw [control_enable valid hv hseen]
    cases valid with
    | true => exact enable_wf h (h.off_iff.mpr hseen) hv (hgood rfl) _
    | false => exact stop_wf (d := d.seeing v) hs hv nofun fun hheader => absurd rfl hheader
  · cases hv1 : v.getLsbD 1 <;> cases hsus : d.seenSuspend
    · rw [control_recorded valid (hv.trans hseen.symm) (.inr (hv1.trans hsus.symm))]
      exact h.moved hseen hv (.inl rfl)
    · rw [control_resume valid hv hseen hv1 hsus, resume_eq]
      refine h.moved hseen hv ?_
      split <;> [skip; split] <;> simp_all
    · rw [control_suspend valid hv hseen hv1 hsus, suspend_eq]
      refine h.moved hseen hv ?_
      split <;> [skip; split] <;> simp_all
    · rw [control_recorded valid (hv.trans hseen.symm) (.inr (hv1.trans hsus.symm))]
      exact h.moved hseen hv (.inl rfl)

/-- A control event leaves the area of its deck, or takes up the area of a header that passed the checks. -/
theorem control_area {valid : Bool} (v : Word) (huse : (d.control valid v).InUse) :
    (d.InUse ∧ (d.control valid v).base = d.base ∧ (d.control valid v).length = d.length) ∨
    (valid = true ∧ (d.control valid v).base = d.baseWord.toNat ∧ (d.control valid v).length = d.lengthWord.toNat) := by
  have hkept (e : Deck) (he : d.control valid v = e.seeing v) (hstate : e.state = .off ↔ d.state = .off)
      (hstopped : e.state = .stopped ↔ d.state = .stopped) (herror : e.error = d.error) (hbase : e.base = d.base)
      (hlength : e.length = d.length) : d.InUse ∧ (d.control valid v).base = d.base ∧ (d.control valid v).length = d.length := by
    rw [he] at huse ⊢
    refine ⟨⟨fun h => huse.1 (hstate.mpr h), fun h => huse.2 ⟨hstopped.mpr h.1, herror.trans h.2⟩⟩, hbase, hlength⟩
  cases hv : v.getLsbD 0 <;> cases hseen : d.seenEnable
  · exact .inl (hkept d (control_recorded valid (hv.trans hseen.symm) (.inl hv)) .rfl .rfl rfl rfl rfl)
  · rw [control_disable valid hv hseen] at huse
    exact absurd rfl huse.1
  · rw [control_enable valid hv hseen] at huse ⊢
    cases valid with
    | true => exact .inr ⟨rfl, rfl, rfl⟩
    | false => exact absurd ⟨rfl, rfl⟩ huse.2
  · cases hv1 : v.getLsbD 1 <;> cases hsus : d.seenSuspend
    · exact .inl (hkept d (control_recorded valid (hv.trans hseen.symm) (.inr (hv1.trans hsus.symm))) .rfl .rfl rfl rfl rfl)
    · refine .inl (hkept _ (control_resume valid hv hseen hv1 hsus) ?_ ?_ ?_ ?_ ?_) <;> rw [resume_eq] <;>
        simp only <;> split <;> [skip; split; skip; split] <;> simp_all
    · refine .inl (hkept _ (control_suspend valid hv hseen hv1 hsus) ?_ ?_ ?_ ?_ ?_) <;> rw [suspend_eq] <;>
        simp only <;> split <;> [skip; split; skip; split] <;> simp_all
    · exact .inl (hkept d (control_recorded valid (hv.trans hseen.symm) (.inr (hv1.trans hsus.symm))) .rfl .rfl rfl rfl rfl)

/-- The outstanding cards are those from done up to the accepted post, round the end of the area. -/
theorem outstanding_eq (hdone : d.done < d.length) (haccepted : d.accepted < d.length) :
    d.outstanding = if d.done ≤ d.accepted then d.accepted - d.done else d.accepted + d.length - d.done := by
  unfold Deck.outstanding
  split
  · have hsplit : d.accepted + d.length - d.done = d.accepted - d.done + d.length := by omega
    rw [hsplit, Nat.add_mod_right, Nat.mod_eq_of_lt (by omega)]
  · exact Nat.mod_eq_of_lt (by omega)

theorem outstanding_pos_iff (hdone : d.done < d.length) (haccepted : d.accepted < d.length) :
    0 < d.outstanding ↔ d.done ≠ d.accepted := by
  rw [outstanding_eq hdone haccepted]
  split <;> omega

/-- What a post event makes of a deck, by state (R24, R26). -/
theorem post_eq (v : Word) (d : Deck) : d.post v =
    if d.state = .off ∨ d.state = .stopped then d
    else if d.length ≤ v.toNat then d.stop .postRange
    else if ({ d with accepted := v.toNat } : Deck).outstanding < d.outstanding then d.stop .postWithdraw
    else { d with accepted := v.toNat } := by
  unfold Deck.post
  cases d.state <;> simp

theorem post_wf (v : Word) (h : d.Wf) (hs : d.finishing = none) : (d.post v).Wf := by
  rw [post_eq]
  split
  · exact h
  next hstate =>
    rw [not_or] at hstate
    have hseen : d.seenEnable = true := by simpa using mt h.off_iff.mpr hstate.1
    have hlaid : d.LaidOut := h.laidOut ⟨hstate.1, fun hstopped => hstate.2 hstopped.1⟩
    have hlaid' := hlaid
    obtain ⟨hlo, hhi, hbase, halign, hend, haccepted, hdone⟩ := hlaid'
    split
    · exact stop_wf hs hseen nofun fun _ => hlaid
    next hrange =>
      split
      · exact stop_wf hs hseen nofun fun _ => hlaid
      next hkept =>
        refine ⟨h.off_iff, fun hoff => absurd hoff hstate.1, h.error_iff, fun _ => ?_, h.flying_iff, h.oneAccess,
          h.inFlight_slot, h.finishing_slot, fun hrun => ⟨?_, (h.taken hrun).2⟩, h.taken_zero⟩
        · exact ⟨hlo, hhi, hbase, halign, hend, by simpa using hrange, hdone⟩
        · have hsome := (outstanding_pos_iff hdone haccepted).mpr (h.taken hrun).1
          have hnew : 0 < ({ d with accepted := v.toNat } : Deck).outstanding := by omega
          exact (outstanding_pos_iff (d := { d with accepted := v.toNat }) hdone (by simpa using hrange)).mp hnew

theorem post_area (v : Word) (huse : (d.post v).InUse) :
    d.InUse ∧ (d.post v).base = d.base ∧ (d.post v).length = d.length := by
  rw [post_eq] at huse ⊢
  split at huse
  next h => rw [if_pos h]; exact ⟨huse, rfl, rfl⟩
  next h =>
    rw [not_or] at h
    rw [if_neg (by simpa using h)]
    refine ⟨⟨h.1, fun hstopped => h.2 hstopped.1⟩, ?_⟩
    split <;> [skip; split] <;> exact ⟨rfl, rfl⟩

theorem inUse_of_ready (hready : d.ready = true) : d.InUse := by
  simp only [Deck.ready, Bool.and_eq_true, decide_eq_true_eq] at hready
  exact ⟨by simp [hready.1], by simp [hready.1]⟩

theorem Deck.Wf.inUse_of_finishing (h : d.Wf) {f : Finishing} (hf : d.finishing = some f) : d.InUse := by
  have hflying := h.flying_iff.mp (.inr (by simp [hf]))
  rcases hflying with hd | hd <;> exact ⟨by simp [hd], by simp [hd]⟩

/-- The take puts the card at done in flight (R28). -/
theorem take_wf (h : d.Wf) (hready : d.ready = true) (now : Nat) (c : Card) : (d.take now c).Wf := by
  simp only [Deck.ready, Bool.and_eq_true, decide_eq_true_eq] at hready
  obtain ⟨hstate, hsome⟩ := hready
  have huse : d.InUse := ⟨by simp [hstate], by simp [hstate]⟩
  obtain ⟨hlo, hhi, hbase, halign, hend, haccepted, hdone⟩ := h.laidOut huse
  have hidle : ¬(d.inFlight.isSome = true ∨ d.finishing.isSome = true) := fun hf => by simpa [hstate] using h.flying_iff.mp hf
  have hfinishing : d.finishing = none := by simpa using mt Or.inr hidle
  have hon : ¬d.state = .off := by simp [hstate]
  have herror : d.error = .none := by simpa [hstate] using h.error_iff
  exact
    { off_iff := iff_of_false nofun (mt h.off_iff.mpr hon)
      off := nofun
      error_iff := by simp [Deck.take, herror]
      laidOut := fun _ => ⟨hlo, hhi, hbase, halign, hend, haccepted, hdone⟩
      flying_iff := by simp [Deck.take]
      oneAccess := .inr hfinishing
      inFlight_slot := by simp [Deck.take]
      finishing_slot := by simp [Deck.take, hfinishing]
      taken := fun _ => ⟨(outstanding_pos_iff hdone haccepted).mp hsome, rfl⟩
      taken_zero := by simp [Deck.take] }

/-- The card write of a completion leaves the header write to come (R30). -/
theorem writeCard_wf (h : d.Wf) {f : InFlight} (hf : d.inFlight = some f) (immediate : Bool) :
    (d.writeCard immediate f).Wf := by
  have hflying := h.flying_iff.mp (.inl (by simp [hf]))
  obtain ⟨h1, h2, h3, h4, h5, h6, h7, h8, h9, h10⟩ := h
  refine ⟨h1, h2, h3, h4, iff_of_true (.inr rfl) hflying, .inl rfl, nofun, fun g hg => ?_, h9, h10⟩
  cases hg
  exact h7 f hf

/-- The header write advances done and ends the completion (R30). -/
theorem writeHeader_wf (h : d.Wf) {f : Finishing} (hf : d.finishing = some f) : (d.writeHeader f).Wf := by
  have hflying := h.flying_iff.mp (.inr (by simp [hf]))
  have hflight : d.inFlight = none := by simpa [hf] using h.oneAccess
  have hon : ¬d.state = .off := by rcases hflying with hd | hd <;> simp [hd]
  have hstopped : ¬d.state = .stopped := by rcases hflying with hd | hd <;> simp [hd]
  obtain ⟨hlo, hhi, hbase, halign, hend, haccepted, hdone⟩ := h.laidOut ⟨hon, fun hs => hstopped hs.1⟩
  have herror : d.error = .none := by simpa [hstopped] using h.error_iff
  have hseen : d.seenEnable = true := by simpa using mt h.off_iff.mpr hon
  have hslot : (f.slot + 1) % d.length < d.length := Nat.mod_lt _ (by omega)
  have hafter : (d.writeHeader f).state = .suspended ∨ (d.writeHeader f).state = .waiting := by
    unfold Deck.writeHeader
    simp only
    split
    · exact .inl rfl
    · exact .inr rfl
  obtain ⟨hnoff, hnstopped, hnflying⟩ : ¬(d.writeHeader f).state = .off ∧ ¬(d.writeHeader f).state = .stopped ∧
      ¬((d.writeHeader f).state = .running ∨ (d.writeHeader f).state = .suspendPending) := by
    rcases hafter with hd | hd <;> simp [hd]
  exact
    { off_iff := iff_of_false hnoff (by simp [Deck.writeHeader, hseen])
      off := fun hoff => absurd hoff hnoff
      error_iff := iff_of_false (by simp [Deck.writeHeader, herror]) hnstopped
      laidOut := fun _ => ⟨hlo, hhi, hbase, halign, hend, haccepted, hslot⟩
      flying_iff := iff_of_false (by simp [Deck.writeHeader, hflight]) hnflying
      oneAccess := .inl hflight
      inFlight_slot := by simp [Deck.writeHeader, hflight]
      finishing_slot := nofun
      taken := fun hflies => absurd hflies hnflying
      taken_zero := fun _ => rfl }

end

/-! ## Events of the decks -/

section
variable {s : State} {d : Fin 4}

theorem DecksWf.wf (h : DecksWf s) (d : Fin 4) : s.decks[d].Wf := (decksWf_iff.mp h).1 d

theorem DecksWf.controlEvent (h : DecksWf s) (hs : s.decks[d].finishing = none) (v : Word) :
    DecksWf ((s.popDeckEvent d).deckEvent d (Deck.control (s.deckValid d) v)) := by
  refine h.set (o := s.decks[d].control (s.deckValid d) v) (deckEvent_decks _ _ _) (control_wf v (h.wf d) hs fun hvalid => ?_) fun k hk huse hkuse => ?_
  · simp only [State.deckValid, Bool.and_eq_true] at hvalid
    exact hvalid.1
  · obtain ⟨hd, hbase, hlength⟩ | ⟨hvalid, hbase, hlength⟩ := control_area v huse
    · have := (decksWf_iff.mp h).2 d k (Ne.symm hk) hd hkuse
      unfold Deck.Apart at this ⊢
      rw [hbase, hlength]
      exact this
    · obtain ⟨-, -, -, -, -, -, hclear⟩ := (deckValid_iff s d).mp hvalid
      unfold Deck.Apart
      rw [hbase, hlength]
      exact hclear k hk hkuse.1 hkuse.2

theorem DecksWf.postEvent (h : DecksWf s) (hs : s.decks[d].finishing = none) (v : Word) :
    DecksWf ((s.popDeckEvent d).deckEvent d (Deck.post v)) := by
  refine h.set (o := s.decks[d].post v) (deckEvent_decks _ _ _) (post_wf v (h.wf d) hs) fun k hk huse hkuse => ?_
  obtain ⟨hd, hbase, hlength⟩ := post_area v huse
  have := (decksWf_iff.mp h).2 d k (Ne.symm hk) hd hkuse
  unfold Deck.Apart at this ⊢
  rw [hbase, hlength]
  exact this

theorem DecksWf.takeCard (h : DecksWf s) (hready : s.decks[d].ready = true) : DecksWf (s.takeCard d) := by
  exact h.set_sameArea (o := s.decks[d].take s.now (s.cardAtDone d)) rfl (take_wf (h.wf d) hready _ _) rfl rfl fun _ =>
    inUse_of_ready hready

theorem DecksWf.writeCard (h : DecksWf s) (immediate : Bool) (a : Answer) : DecksWf (s.writeCard d immediate a) := by
  unfold State.writeCard
  split
  · exact h
  next f hf => exact h.set_sameArea (o := s.decks[d].writeCard immediate f) rfl (writeCard_wf (h.wf d) hf _) rfl rfl id

theorem DecksWf.writeDone (h : DecksWf s) {f : Finishing} (hf : s.decks[d].finishing = some f) : DecksWf (s.writeDone d f) := by
  exact h.set_sameArea (o := s.decks[d].writeHeader f) rfl (writeHeader_wf (h.wf d) hf) rfl rfl fun _ =>
    (h.wf d).inUse_of_finishing hf

/-- Decks see nothing of a change elsewhere. -/
theorem DecksWf.congr {t : State} (h : DecksWf s) (hdecks : t.decks = s.decks) : DecksWf t := by
  unfold DecksWf
  rw [hdecks]
  exact h

theorem DecksWf.takeCompletion (h : DecksWf s) : DecksWf (s.takeCompletion d) := by
  unfold State.takeCompletion
  split
  · split
    · exact h.writeCard _ _
    · exact h.congr rfl
  · split
    · refine DecksWf.writeCard ?_ _ _
      exact h.congr rfl
    · exact h

theorem granted_ready (h : s.granted = some d) : s.decks[d].ready = true := by
  simpa using List.find?_some h

end

theorem DecksWf.reset : DecksWf .reset := by
  refine decksWf_iff.mpr ⟨fun d => ?_, fun j k _ hj => ?_⟩
  · have hd : State.reset.decks[d] = Deck.reset := by simp [State.reset]
    rw [hd]
    constructor <;> simp [Deck.reset, Deck.InUse]
  · have hd : State.reset.decks[j] = Deck.reset := by simp [State.reset]
    rw [hd] at hj
    exact absurd rfl hj.1

/-- On entry to RUNNING the decks stand as after reset, with the words that the host has written. -/
theorem DecksWf.enterRunning (s : State) : DecksWf s.enterRunning := by
  have hdeck (d : Fin 4) : s.enterRunning.decks[d] = s.decks[d].enterRunning := mapTable_get _ _ _
  refine decksWf_iff.mpr ⟨fun d => ?_, fun j k _ hj => ?_⟩
  · rw [hdeck]
    constructor <;> simp [Deck.enterRunning, Deck.reset, Deck.InUse]
  · rw [hdeck] at hj
    exact absurd rfl hj.1

theorem DecksWf.publish {b a : State} (h : DecksWf a) : DecksWf (publish b a) := h.congr rfl

/-- Every event of a deck keeps the decks in order. -/
theorem DecksWf.event {c : Instr} {s t : State} (hb : blockOf c = some .deck) (h : exec c s = .next t) (hs : DecksWf s) :
    DecksWf t := by
  cases c
  case controlEvent d =>
    simp only [exec, execControlEvent] at h
    obtain ⟨rfl, -⟩ | ⟨-, hwaiting, rfl⟩ := internal_next h
    · exact hs
    simp only [State.controlWaiting, Deck.settled, Bool.and_eq_true, Option.isNone_iff_eq_none] at hwaiting
    refine DecksWf.publish ?_
    split
    · exact hs.controlEvent hwaiting.1 _
    · exact hs
  case postEvent d =>
    simp only [exec, execPostEvent] at h
    obtain ⟨rfl, -⟩ | ⟨-, hwaiting, rfl⟩ := internal_next h
    · exact hs
    simp only [State.postWaiting, Deck.settled, Bool.and_eq_true, Option.isNone_iff_eq_none] at hwaiting
    refine DecksWf.publish ?_
    split
    · exact hs.postEvent hwaiting.1 _
    · exact hs
  case cardTake =>
    simp only [exec, execCardTake] at h
    obtain ⟨rfl, -⟩ | ⟨-, -, rfl⟩ := internal_next h
    · exact hs
    refine DecksWf.publish ?_
    split
    · exact hs
    next hgranted => exact hs.takeCard (granted_ready hgranted)
  case cardCompletion d =>
    simp only [exec, execCardCompletion] at h
    obtain ⟨rfl, -⟩ | ⟨-, -, rfl⟩ := internal_next h
    · exact hs
    refine DecksWf.publish ?_
    split
    next hf => exact hs.writeDone hf
    · exact hs.takeCompletion
  case deadlineExpiry d =>
    simp only [exec, execDeadlineExpiry] at h
    obtain ⟨rfl, -⟩ | ⟨-, -, rfl⟩ := internal_next h
    · exact hs
    refine DecksWf.publish ?_
    split
    · exact hs
    · exact hs.writeCard _ _
  all_goals cases hb

/-- The frames of the other blocks leave the decks alone. -/
theorem Block.Frame.decks {b : Block} (hb : b ≠ .deck) {s a : State} (h : b.Frame s a) : a.decks = s.decks := by
  have hleaves := h.leaves
  cases b
  case deck => exact absurd rfl hb
  all_goals
    unfold Block.Leaves at hleaves
    rw [hleaves]

/-- The blocks whose events may touch the decks. -/
def Block.isDeck (b : Block) : Bool :=
  match b with
  | .deck => true
  | _ => false

/-- Settles O54: only the events at a deck processor touch the decks, and each of them keeps them in order. -/
theorem everyStepKeepsTheDecksInOrder : Obligations.EveryStepKeepsTheDecksInOrder := by
  refine keptByEveryStep_of_events Block.isDeck .undisturbed .reset (fun s _ => .enterRunning s) (fun hb hframe hs => ?_)
    (fun {_ b _ _} hb hc h hs => ?_)
  · exact hs.congr (hframe.decks (by rintro rfl; cases hb))
  · cases b
    case deck => exact hs.event hc h
    all_goals cases hb

end Sys2Proof.Machine

/-! The doors stay in order (R110 to R127): what each function of one door keeps, and what one event of the controller keeps. -/

namespace Sys2Proof.Machine

/-! ## Dispatched cards and LOAD, for any property -/

theorem dispatch_keeps {P : State → Prop} {s : State} {act : Take → State → State} (hs : P s) (h : ∀ t, P (act t s)) :
    P (s.dispatch act) := by
  unfold State.dispatch
  split
  · exact hs
  · exact h _

theorem onTarget_keeps {P : State → Prop} {n : Nat} {s : State} {act : Fin n → Take → State → State} {t : Take}
    (hs : P (s.reply t (.refuse .badTarget))) (h : ∀ i, P (act i t s)) : P (State.onTarget n act t s) := by
  unfold State.onTarget
  split
  · exact hs
  · exact h _

/-- What holds of the state after an event that has come about, and of the state itself, holds after the event's command. -/
theorem internal_keeps {P : State → Prop} {s t : State} {g : Bool} {act : State → State} (hs : P s)
    (hpublish : ∀ a, P a → P (publish s a)) (hact : g = true → P (act s)) (h : internal s g act = .next t) : P t := by
  obtain ⟨rfl, -⟩ | ⟨-, hg, rfl⟩ := internal_next h
  · exact hs
  · exact hpublish _ (hact hg)

/-- A LOAD that is not refused commits an item, not the span's, that its owner allows and that passes its checks; what holds of
the commit and does not look at the executor holds after the command. -/
theorem loadCard_keeps {P : State → Prop} {s t : State} (hs : P s) (hpublish : ∀ a, P a → P (publish s a))
    (hreply : ∀ a t ans, P a → P (a.reply t ans))
    (hcommit : ∀ r, r ≠ .span → s.loadAllowed r = true → s.loadFailure r = none →
      (∀ z, r = .zone z → s.zoneFree z = true) → P (s.commit r))
    (h : exec .loadCard s = .next t) : P t := by
  simp only [exec, execLoadCard] at h
  refine internal_keeps hs hpublish (fun hg => ?_) h
  unfold State.dispatch
  split
  · exact hs
  next t ht =>
    simp only
    split
    · exact hreply _ _ _ hs
    next r hr =>
      unfold State.loadItem
      split
      · exact hreply _ _ _ hs
      split
      · exact hreply _ _ _ hs
      next hspan hallowed =>
        split
        · exact hreply _ _ _ hs
        next hpasses =>
          refine hreply _ _ _ (hcommit r hspan (by simpa using hallowed) hpasses fun z hz => ?_)
          have hfree := (Bool.and_eq_true _ _ ▸ hg).2
          simpa [State.loadFree, ht, hr, hz] using hfree

/-! ## One door -/

/-- What `DoorsWf` says of the state and the timers of one door. -/
structure Door.Wf (e : Door) : Prop where
  assist : e.assist = true → e.state = .opening
  assistDue : e.assistDue.isSome = true ↔ e.assist = true
  boltDue : e.boltDue.isSome = true ↔ e.state = .bolting
  reliefDue : e.reliefDue.isSome = true → e.state = .opening
  heldOpenDue : e.heldOpenDue.isSome = true → e.state = .openLeaf
  boltFault : e.boltFault = true ↔ e.state = .fault

/-- A door whose timers are in order, and which has kept secure mode and secure wanted. -/
structure Door.Moves (e n : Door) : Prop where
  wf : n.Wf
  secureMode : n.secureMode = e.secureMode
  secureWanted : n.secureWanted = e.secureWanted

section
variable {e : Door} (x : Ctx) (item : DoorItem)

theorem Door.Wf.moves (h : e.Wf) : e.Moves e := ⟨h, rfl, rfl⟩

/-- Every state but BOLTING is entered with all timers stopped. -/
theorem enter_moves {st : DoorState} (hst : st ≠ .bolting) : e.Moves (e.enter x st) :=
  ⟨⟨nofun, by simp [Door.enter], by simp [Door.enter, hst], nofun, nofun, by simp [Door.enter]⟩, rfl, rfl⟩

theorem throwBolt_moves : e.Moves (e.throwBolt x item) := by
  unfold Door.throwBolt
  split
  · exact enter_moves x nofun
  · exact ⟨⟨nofun, by simp [Door.enter], by simp [Door.enter], nofun, nofun, by simp [Door.enter]⟩, rfl, rfl⟩

theorem goOpen_moves : e.Moves (e.goOpen x item) :=
  ⟨⟨nofun, by simp [Door.goOpen, Door.enter], by simp [Door.goOpen, Door.enter], nofun, fun _ => rfl,
    by simp [Door.goOpen, Door.enter]⟩, rfl, rfl⟩

theorem goForced_moves : e.Moves (e.goForced x) :=
  ⟨⟨nofun, by simp [Door.goForced, Door.enter], by simp [Door.goForced, Door.enter], nofun, nofun,
    by simp [Door.goForced, Door.enter]⟩, rfl, rfl⟩

theorem energise_moves (h : e.Wf) (hst : e.state = .opening) (p : AssistPath) : e.Moves (e.energise x item p) :=
  ⟨⟨fun _ => hst, by simp [Door.energise], h.boltDue, h.reliefDue, h.heldOpenDue, h.boltFault⟩, rfl, rfl⟩

theorem goOpening_moves (passes : Bool) : e.Moves (e.goOpening x item passes) := by
  have hopening : e.Moves { e.enter x .opening with path := .none, reliefDue := some (x.now + seconds item.reliefTime) } :=
    ⟨⟨nofun, by simp [Door.enter], by simp [Door.enter], fun _ => rfl, nofun, by simp [Door.enter]⟩, rfl, rfl⟩
  unfold Door.goOpening
  simp only
  split
  · exact ⟨(energise_moves x item hopening.wf rfl .pressure).wf, rfl, rfl⟩
  · exact hopening

theorem takeUp_moves (h : e.Wf) : e.Moves (e.takeUp x item) := by
  unfold Door.takeUp
  split
  · exact goOpen_moves x item
  split
  · exact throwBolt_moves x item
  · exact h.moves

theorem Door.Moves.trans {a b c : Door} (h : a.Moves b) (k : b.Moves c) : a.Moves c :=
  ⟨k.wf, k.secureMode.trans h.secureMode, k.secureWanted.trans h.secureWanted⟩

theorem releasedTakeUp_moves : e.Moves ((e.enter x .released).takeUp x item) := by
  have hreleased : e.Moves (e.enter x .released) := enter_moves x nofun
  exact hreleased.trans (takeUp_moves x item hreleased.wf)

/-- An input level is no part of the invariant. -/
theorem Door.Wf.contacts (h : e.Wf) (closed bolted push : Bool) :
    e.Moves { e with closed := closed, bolted := bolted, push := push } :=
  ⟨⟨h.assist, h.assistDue, h.boltDue, h.reliefDue, h.heldOpenDue, h.boltFault⟩, rfl, rfl⟩

theorem closedContact_moves (h : e.Wf) (level : Bool) : e.Moves (e.closedContact x item level) := by
  have hd : e.Moves { e with closed := level } := h.contacts level e.bolted e.push
  refine hd.trans ?_
  unfold Door.closedContact
  simp only
  split
  · unfold Door.closedReturns
    split
    · exact throwBolt_moves x item
    · split
      · exact throwBolt_moves x item
      · exact enter_moves x nofun
    · split
      · exact throwBolt_moves x item
      · exact enter_moves x nofun
    · exact hd.wf.moves
  · unfold Door.closedLost
    split
    · exact goOpen_moves x item
    · exact goOpen_moves x item
    · split
      · exact goOpen_moves x item
      · exact goForced_moves x
    · exact goOpen_moves x item
    · exact hd.wf.moves

theorem boltedContact_moves (h : e.Wf) (level : Bool) : e.Moves (e.boltedContact x item level) := by
  have hd : e.Moves { e with bolted := level } := h.contacts e.closed level e.push
  refine hd.trans ?_
  unfold Door.boltedContact
  simp only
  split
  · split
    · exact enter_moves x nofun
    · exact hd.wf.moves
  · split
    · exact hd.wf.moves
    · exact throwBolt_moves x item
  · exact hd.wf.moves

theorem pushContact_moves (h : e.Wf) (passes level : Bool) : e.Moves (e.pushContact x item passes level) := by
  have hd : e.Moves { e with push := level } := h.contacts e.closed e.bolted level
  refine hd.trans ?_
  unfold Door.pushContact
  simp only
  split
  · split
    · exact goOpening_moves x item passes
    · exact goOpening_moves x item passes
    · exact goOpening_moves x item passes
    · exact goOpen_moves x item
    · exact hd.wf.moves
  · exact hd.wf.moves

theorem reliefExpired_moves (h : e.Wf) (hst : e.state = .opening) : e.Moves (e.reliefExpired x item) := by
  have hd : e.Moves { e with reliefDue := none } :=
    ⟨⟨h.assist, h.assistDue, h.boltDue, nofun, h.heldOpenDue, h.boltFault⟩, rfl, rfl⟩
  unfold Door.reliefExpired
  simp only
  split
  · exact hd
  · exact hd.trans (energise_moves x item hd.wf hst .time)

theorem assistExpired_moves : e.Moves (e.assistExpired x item) := by
  have hd : e.Moves { e.enter x .released with assistTimeoutFlag := true } :=
    ⟨⟨nofun, by simp [Door.enter], by simp [Door.enter], nofun, nofun, by simp [Door.enter]⟩, rfl, rfl⟩
  exact hd.trans (takeUp_moves x item hd.wf)

theorem heldOpenExpired_moves : e.Moves (e.heldOpenExpired x) :=
  ⟨⟨nofun, by simp [Door.heldOpenExpired, Door.enter], by simp [Door.heldOpenExpired, Door.enter], nofun, nofun,
    by simp [Door.heldOpenExpired, Door.enter]⟩, rfl, rfl⟩

theorem testReading_moves (h : e.Wf) (passes : Bool) : e.Moves (e.testReading x item passes) := by
  unfold Door.testReading
  split
  next hopening => exact energise_moves x item h hopening.1 .pressure
  · exact h.moves

theorem service_moves (h : e.Wf) (out : Bool) : e.Moves (e.service x item out) := by
  unfold Door.service
  split
  · exact h.moves
  split
  · exact enter_moves x nofun
  · exact releasedTakeUp_moves x item

theorem resetFlags_moves (h : e.Wf) : e.Moves (e.resetFlags x item) := by
  have hflags : e.Moves { e with
      assistTimeoutFlag := false
      forcedFlag := e.forcedFlag && decide (e.state = .forced)
      heldOpenFlag := e.heldOpenFlag && decide (e.state = .heldOpen) } :=
    ⟨⟨h.assist, h.assistDue, h.boltDue, h.reliefDue, h.heldOpenDue, h.boltFault⟩, rfl, rfl⟩
  unfold Door.resetFlags
  simp only
  split
  · exact hflags.trans (releasedTakeUp_moves x item)
  · exact hflags

/-- A door that takes a change of its secure wanted. -/
theorem takeSecure_wf (h : e.Wf) (wanted : Bool) :
    (e.takeSecure x item wanted).Wf ∧ (e.takeSecure x item wanted).secureMode = e.secureMode ∧
      (e.takeSecure x item wanted).secureWanted = wanted := by
  have hd : Door.Wf { e with secureWanted := wanted } :=
    ⟨h.assist, h.assistDue, h.boltDue, h.reliefDue, h.heldOpenDue, h.boltFault⟩
  have hmoved {n : Door} (hn : Door.Moves { e with secureWanted := wanted } n) :
      n.Wf ∧ n.secureMode = e.secureMode ∧ n.secureWanted = wanted := ⟨hn.wf, hn.secureMode, hn.secureWanted⟩
  unfold Door.takeSecure
  simp only
  split
  next hsame => exact ⟨h, rfl, hsame.symm⟩
  split
  · split
    · exact hmoved (throwBolt_moves x item)
    · exact hmoved hd.moves
  · split
    · exact hmoved (enter_moves x nofun)
    · exact hmoved (enter_moves x nofun)
    · exact hmoved (goOpen_moves x item)
    · exact hmoved hd.moves

end

/-! ## The doors of the controller -/

/-- What `DoorsWf` says of one door under a reach list. -/
def Door.InOrder (cfg : ActiveConfig) (reach : List ReachEntry) (d : Fin 4) (e : Door) : Prop :=
  e.Wf ∧ (e.secureWanted = true ↔ SecureWanted cfg reach d e)

theorem doorsWf_iff {s : State} : DoorsWf s ↔ DemandFollowsDoors s.active s.doors ∧
    ∀ d : Fin 4, Door.InOrder s.active s.doors.reach d s.doors.doors[d] := by
  refine and_congr_right fun _ => forall_congr' fun d => ⟨?_, ?_⟩
  · rintro ⟨h1, h2, h3, h4, h5, h6, h7⟩
    exact ⟨⟨h2, h3, h4, h5, h6, h7⟩, h1⟩
  · rintro ⟨⟨h2, h3, h4, h5, h6, h7⟩, h1⟩
    exact ⟨h1, h2, h3, h4, h5, h6, h7⟩

section
variable {cfg : ActiveConfig} {reach : List ReachEntry} {d : Fin 4} {e n : Door}

/-- A door that keeps its secure mode and secure wanted stays in order under the same reach list. -/
theorem Door.InOrder.moves (h : Door.InOrder cfg reach d e) (hn : e.Moves n) : Door.InOrder cfg reach d n := by
  refine ⟨hn.wf, ?_⟩
  unfold SecureWanted
  rw [hn.secureWanted, hn.secureMode]
  exact h.2

/-- A door that takes the secure wanted of a reach list is in order under it. -/
theorem takeSecure_inOrder (h : e.Wf) (x : Ctx) (item : DoorItem) :
    Door.InOrder cfg reach d (e.takeSecure x item (wantsSecure cfg reach d e)) := by
  obtain ⟨hwf, hmode, hwanted⟩ := takeSecure_wf x item h (wantsSecure cfg reach d e)
  refine ⟨hwf, ?_⟩
  rw [hwanted, wantsSecure_iff]
  unfold SecureWanted
  rw [hmode]

/-- Doors in order depend on the place and reach of the doors alone. -/
theorem Door.InOrder.congr {cfg' : ActiveConfig} (h : Door.InOrder cfg reach d e) (hspan : cfg'.span = cfg.span)
    (hniche : cfg'.doors[d].niche = cfg.doors[d].niche) : Door.InOrder cfg' reach d e := by
  unfold Door.InOrder SecureWanted
  rw [hspan, hniche]
  exact h

end

/-- An event of the door controller keeps the doors in order if it keeps each door in order: the demand settles at its end. -/
theorem DoorsWf.doorEvent {s : State} {act : DoorUnit → DoorUnit}
    (h : ∀ d : Fin 4, Door.InOrder s.active (act s.doors).reach d (act s.doors).doors[d]) : DoorsWf (s.doorEvent act) := by
  obtain ⟨hreach, -, hdoors⟩ := doorEvent_reach s act
  refine doorsWf_iff.mpr ⟨demandOf_follows s.active _ (settle_demand s.ctx _), fun d => ?_⟩
  rw [hreach, hdoors]
  exact h d

/-- An event at one door, the reach list kept. -/
theorem DoorsWf.change {s : State} (hs : ∀ d : Fin 4, Door.InOrder s.active s.doors.reach d s.doors.doors[d]) (x : Ctx) {d : Fin 4}
    {f : DoorItem → Door → Door} (hf : ∀ item, Door.InOrder s.active s.doors.reach d (f item s.doors.doors[d])) :
    DoorsWf (s.doorEvent fun u => u.change x d f) := by
  refine .doorEvent fun k => ?_
  simp only [DoorUnit.change]
  by_cases hk : k = d
  · subst hk
    rw [modify_get_same]
    exact hf _
  · rw [modify_get_other _ _ hk]
    exact hs k

theorem DoorsWf.congr {s t : State} (h : DoorsWf s) (hspan : t.active.span = s.active.span)
    (hdoors : t.active.doors = s.active.doors) (hunit : t.doors = s.doors) : DoorsWf t := by
  unfold DoorsWf DemandFollowsDoors GalleryIncident SecureWanted
  rw [hspan, hdoors, hunit]
  exact h

theorem DoorsWf.publish {b a : State} (h : DoorsWf a) : DoorsWf (publish b a) := h.congr rfl rfl rfl

theorem DoorsWf.reply {s : State} (h : DoorsWf s) (t : Take) (a : Answer) : DoorsWf (s.reply t a) := h.congr rfl rfl rfl

theorem DoorsWf.inOrder {s : State} (h : DoorsWf s) (d : Fin 4) :
    Door.InOrder s.active s.doors.reach d s.doors.doors[d] := (doorsWf_iff.mp h).2 d

/-! ## The events of the controller -/

section
variable {s t : State}

theorem DoorsWf.doorContact (h : DoorsWf s) (d : Fin 4) (k : Fin 3) {f : Ctx → Bool → DoorUnit → DoorItem → Door → Door}
    (hf : ∀ x l u item, s.doors.doors[d].Moves (f x l u item s.doors.doors[d])) :
    DoorsWf (s.doorContact d k fun x l u => u.change x d (f x l u)) := by
  unfold State.doorContact
  split
  · exact h
  · refine .doorEvent fun j => ?_
    simp only [DoorUnit.change]
    by_cases hj : j = d
    · subst hj
      rw [modify_get_same]
      exact (h.inOrder j).moves (hf _ _ _ _)
    · rw [modify_get_other _ _ hj]
      exact h.inOrder j

/-- A delivery of the incident unit: every door takes its secure wanted under the new reach list. -/
theorem DoorsWf.incident (h : DoorsWf s) (m : IncidentDelivery) : DoorsWf (s.doorEvent (DoorUnit.incident s.ctx m)) := by
  refine .doorEvent fun d => ?_
  simp only [DoorUnit.incident]
  have hd : (Vector.ofFn fun d : Fin 4 => s.doors.doors[d].takeSecure s.ctx s.ctx.cfg.doors[d]
      (wantsSecure s.ctx.cfg (reachAfter m s.doors.reach) d s.doors.doors[d]))[d] = _ := Vector.getElem_ofFn _
  rw [hd]
  exact takeSecure_inOrder (h.inOrder d).1 _ _

theorem DoorsWf.reading (h : DoorsWf s) (r : Reading) : DoorsWf (s.doorEvent (DoorUnit.reading s.ctx r)) := by
  refine .doorEvent fun d => ?_
  simp only [DoorUnit.reading]
  have hd : (Vector.ofFn fun d : Fin 4 => s.doors.doors[d].testReading s.ctx s.ctx.cfg.doors[d]
      (pressurePasses s.ctx.cfg.gallery r))[d] = _ := Vector.getElem_ofFn _
  rw [hd]
  exact (h.inOrder d).moves (testReading_moves _ _ (h.inOrder d).1 _)

/-- DOOR_MODE changes the secure mode of its door, which takes the secure wanted that follows. -/
theorem DoorsWf.mode (h : DoorsWf s) (d : Fin 4) (secure : Bool) : DoorsWf (s.doorEvent (DoorUnit.mode s.ctx d secure)) := by
  refine .doorEvent fun k => ?_
  simp only [DoorUnit.mode, DoorUnit.recomputeSecure, DoorUnit.change]
  by_cases hk : k = d
  · subst hk
    rw [modify_get_same, modify_get_same]
    obtain ⟨h1, h2, h3, h4, h5, h6⟩ := (h.inOrder k).1
    have hmode : Door.Wf { s.doors.doors[k] with secureMode := secure } := ⟨h1, h2, h3, h4, h5, h6⟩
    exact takeSecure_inOrder hmode _ _
  · rw [modify_get_other _ _ hk, modify_get_other _ _ hk]
    exact h.inOrder k

theorem DoorsWf.event {c : Instr} (hb : blockOf c = some .door) (h : exec c s = .next t) (hs : DoorsWf s) : DoorsWf t := by
  have hwf (d : Fin 4) := (hs.inOrder d).1
  have hpublish (a : State) (ha : DoorsWf a) : DoorsWf (Machine.publish s a) := ha.publish
  cases c
  case doorClosedContact d =>
    exact internal_keeps hs hpublish (fun _ => hs.doorContact d 0 fun x l _ item => closedContact_moves x item (hwf d) l) h
  case doorBoltedContact d =>
    exact internal_keeps hs hpublish (fun _ => hs.doorContact d 1 fun x l _ item => boltedContact_moves x item (hwf d) l) h
  case doorPushContact d =>
    exact internal_keeps hs hpublish (fun _ => hs.doorContact d 2 fun x l _ item => pushContact_moves x item (hwf d) _ l) h
  case incidentDelivery =>
    simp only [exec, execIncidentDelivery] at h
    refine internal_keeps hs hpublish (fun _ => ?_) h
    split
    · exact hs
    next m rest _ =>
      have hp : DoorsWf { s with mail := { s.mail with incidents := rest } } := hs.congr rfl rfl rfl
      exact hp.incident m
  case pressureReading =>
    simp only [exec, execPressureReading] at h
    refine internal_keeps hs hpublish (fun _ => ?_) h
    split
    · exact hs
    next r rest _ =>
      have hp : DoorsWf { s with mail := { s.mail with readings := rest } } := hs.congr rfl rfl rfl
      exact hp.reading r
  case boltTimerExpiry d =>
    simp only [exec, execBoltTimerExpiry] at h
    refine internal_keeps hs hpublish (fun _ => ?_) h
    exact .change hs.inOrder _ fun _ => (hs.inOrder d).moves (enter_moves _ nofun)
  case reliefClockExpiry d =>
    simp only [exec, execReliefClockExpiry] at h
    refine internal_keeps hs hpublish (fun hg => ?_) h
    simp only [State.reliefDue, Bool.and_eq_true, decide_eq_true_eq] at hg
    exact .change hs.inOrder _ fun item => (hs.inOrder d).moves (reliefExpired_moves _ item (hwf d) hg.1)
  case assistTimerExpiry d =>
    simp only [exec, execAssistTimerExpiry] at h
    refine internal_keeps hs hpublish (fun _ => ?_) h
    exact .change hs.inOrder _ fun item => (hs.inOrder d).moves (assistExpired_moves _ item)
  case heldOpenExpiry d =>
    simp only [exec, execHeldOpenExpiry] at h
    refine internal_keeps hs hpublish (fun _ => ?_) h
    exact .change hs.inOrder _ fun item => (hs.inOrder d).moves (heldOpenExpired_moves _)
  case doorModeCard =>
    refine internal_keeps hs hpublish (fun _ => dispatch_keeps hs fun t =>
      onTarget_keeps (hs.reply t _) fun d => ?_) h
    unfold State.doorMode
    split
    · exact hs.reply t _
    · exact (hs.mode d _).reply t _
  case doorServiceCard =>
    refine internal_keeps hs hpublish (fun _ => dispatch_keeps hs fun t =>
      onTarget_keeps (hs.reply t _) fun d => ?_) h
    unfold State.doorService
    split
    · exact hs.reply t _
    · exact DoorsWf.reply (.change hs.inOrder _ fun item => (hs.inOrder d).moves (service_moves _ item (hwf d) _)) t _
  case doorResetCard =>
    refine internal_keeps hs hpublish (fun _ => dispatch_keeps hs fun t =>
      onTarget_keeps (hs.reply t _) fun d => ?_) h
    exact DoorsWf.reply (.change hs.inOrder _ fun item => (hs.inOrder d).moves (resetFlags_moves _ item (hwf d))) t _
  all_goals cases hb

/-! ## LOAD and entering RUNNING -/

/-- A door item that takes the place of the old one: its door takes the secure wanted that follows. -/
theorem DoorsWf.loadDoor (h : DoorsWf s) (d : Fin 4) : DoorsWf (s.loadDoor d) := by
  unfold State.loadDoor
  refine .doorEvent fun k => ?_
  simp only [DoorUnit.recomputeSecure, DoorUnit.change]
  by_cases hk : k = d
  · subst hk
    rw [modify_get_same]
    exact takeSecure_inOrder (h.inOrder k).1 _ _
  · rw [modify_get_other _ _ hk]
    refine (h.inOrder k).congr rfl ?_
    show (s.active.doors.set d _)[k].niche = _
    rw [set_get_other _ _ hk]

theorem DoorsWf.commit (h : DoorsWf s) {r : ItemRef} (hr : r ≠ .span) : DoorsWf (s.commit r) := by
  cases r with
  | span => exact absurd rfl hr
  | gate | zone | channel | template | link => exact h.congr rfl rfl rfl
  | fan f =>
    refine h.congr ?_ ?_ ?_
    all_goals
      simp only [State.commit, State.loadFan]
      split <;> rfl
  | gallery =>
    obtain ⟨hdemand, hdoors⟩ := doorsWf_iff.mp h
    simp only [State.commit, State.loadGallery]
    split
    · exact h.congr rfl rfl rfl
    · exact doorsWf_iff.mpr ⟨hdemand, fun d => (hdoors d).congr rfl rfl⟩
  | door d => exact h.loadDoor d

end

theorem DoorsWf.reset : DoorsWf .reset := by
  simp [DoorsWf, DemandFollowsDoors, State.reset, DoorUnit.reset, Door.reset, GalleryIncident, SecureWanted]

/-- A door that takes up its contacts on entry to RUNNING is in order, and not in OPENING. -/
theorem doorEnterRunning_inOrder (cfg : ActiveConfig) (d : Fin 4) (x : Ctx) (item : DoorItem) (closed bolted push : Bool) :
    Door.InOrder cfg [] d (Door.enterRunning x item closed bolted push) ∧
      (Door.enterRunning x item closed bolted push).state ≠ .opening := by
  constructor
  · refine Door.InOrder.moves (e := { Door.reset with
      secureMode := item.initialSecure, secureWanted := item.initialSecure, closed := closed, bolted := bolted
      push := push, entered := x.sec }) ?_ (takeUp_moves x item ?_)
    · refine ⟨?_, ?_⟩
      · constructor <;> simp [Door.reset]
      · simp [SecureWanted]
    · constructor <;> simp [Door.reset]
  · unfold Door.enterRunning Door.takeUp Door.throwBolt
    split
    · exact nofun
    split
    · split <;> exact nofun
    · exact nofun

theorem DoorsWf.enterRunning (s : State) : DoorsWf s.enterRunning := by
  have hdoor (d : Fin 4) : Door.InOrder s.enterRunning.active [] d s.enterRunning.doors.doors[d] ∧
      s.enterRunning.doors.doors[d].state ≠ .opening := by
    have hd : s.enterRunning.doors.doors[d] = Door.enterRunning _ _ _ _ _ := Vector.getElem_ofFn _
    rw [hd]
    exact doorEnterRunning_inOrder _ d _ _ _ _ _
  have hreach : ¬GalleryIncident s.enterRunning.active s.enterRunning.doors := fun ⟨_, hr, _⟩ => by cases hr
  refine doorsWf_iff.mpr ⟨⟨fun ⟨d, hd⟩ => absurd hd (hdoor d).2, fun _ h => absurd h hreach, fun _ h => absurd h hreach,
    fun _ _ => rfl⟩, fun d => (hdoor d).1⟩

/-- Outside the door controller and LOAD, no event touches the doors, their items or the span's. -/
theorem Block.Frame.doorsWf {b : Block} (hdoor : b ≠ .door) (hload : b ≠ .load) {s a : State} (h : b.Frame s a)
    (hs : DoorsWf s) : DoorsWf a := by
  have hleaves := h.leaves
  cases b
  case door => exact absurd rfl hdoor
  case load => exact absurd rfl hload
  all_goals
    unfold Block.Leaves at hleaves
    rw [hleaves]
    exact hs.congr rfl rfl rfl

/-- The blocks whose events may touch the doors. -/
def Block.isDoor (b : Block) : Bool :=
  match b with
  | .door | .load => true
  | _ => false

theorem Undisturbed.doorsWf {s t : State} (h : Undisturbed s t) (hs : DoorsWf s) : DoorsWf t :=
  hs.congr (by rw [h.active]) (by rw [h.active]) h.doors

/-- Settles O57: each event of the door controller moves doors that were in order and then settles the demand; a LOAD of a door
item has its door take the secure wanted that follows. -/
theorem everyStepKeepsTheDoorsInOrder : Obligations.EveryStepKeepsTheDoorsInOrder := by
  refine keptByEveryStep_of_events Block.isDoor Undisturbed.doorsWf .reset (fun s _ => .enterRunning s)
    (fun {b _ _} hb hframe hs => ?_) (fun {c b s t} hb hc h hs => ?_)
  · refine hframe.doorsWf ?_ ?_ hs <;> rintro rfl <;> cases hb
  · cases b
    case door => exact hs.event hc h
    case load =>
      cases c
      case loadCard =>
        exact loadCard_keeps hs (fun a ha => ha.publish) (fun a t ans ha => ha.reply t ans)
          (fun r hr _ _ _ => hs.commit hr) h
      all_goals cases hc
    all_goals cases hb

end Sys2Proof.Machine

/-! Identities stay unique and the earliest record governs (R132, R133, R139): the fresh identity of a new record, and what one event
of the incident unit does to the identities. -/

namespace Sys2Proof.Machine

/-! ## Identities -/

/-- The identities of the table and of the cleared-identity list. -/
def IncidentUnit.idents (u : IncidentUnit) : List Ident :=
  ((List.finRange 4).filterMap fun k => u.slots[k].map (·.ident)) ++ u.cleared.map (·.ident)

theorem unknown_iff_not_mem {u : IncidentUnit} {i : Ident} : u.Unknown i ↔ i ∉ u.idents := by
  simp only [IncidentUnit.Unknown, IncidentUnit.idents, List.mem_append, List.mem_filterMap, List.mem_finRange, true_and,
    List.mem_map, not_or, not_exists, Option.map_eq_some_iff, not_and]

/-- `find` looks an identity up in the table. -/
theorem find_eq_none_iff {u : IncidentUnit} {i : Ident} :
    u.find i = none ↔ ∀ (k : Fin 4) (r : Incident), u.slots[k] = some r → r.ident ≠ i := by
  simp only [IncidentUnit.find, List.find?_eq_none, List.mem_finRange, true_implies, decide_eq_true_eq,
    Option.map_eq_some_iff, not_exists, not_and, ne_eq]

theorem wasCleared_eq_false_iff {u : IncidentUnit} {i : Ident} :
    u.wasCleared i = false ↔ ∀ e ∈ u.cleared, e.ident ≠ i := by
  simp only [IncidentUnit.wasCleared, List.any_eq_false, decide_eq_true_eq, ne_eq]

theorem unknown_iff {u : IncidentUnit} {i : Ident} : u.Unknown i ↔ u.find i = none ∧ u.wasCleared i = false := by
  rw [find_eq_none_iff, wasCleared_eq_false_iff]
  rfl

theorem find_some {u : IncidentUnit} {i : Ident} {k : Fin 4} (h : u.find i = some k) :
    ∃ r, u.slots[k] = some r ∧ r.ident = i := by
  have := List.find?_some h
  simpa only [decide_eq_true_eq, Option.map_eq_some_iff] using this

/-! ## The fresh identity (R132) -/

/-- The identities that a new local record may be given, in order. -/
def IncidentUnit.localIdent (u : IncidentUnit) (span : Byte) (n : Nat) : Ident :=
  { span := span, seq := u.localSeq + BitVec.ofNat 8 n }

theorem localIdent_injOn (u : IncidentUnit) (span : Byte) : Set.InjOn (u.localIdent span) (Finset.range 13) := by
  intro m hm n hn h
  simp only [Finset.coe_range, Set.mem_Iio] at hm hn
  have hseq : BitVec.ofNat 8 m = BitVec.ofNat 8 n := by
    have := congrArg Ident.seq h
    simpa [IncidentUnit.localIdent] using this
  have := congrArg BitVec.toNat hseq
  simp only [BitVec.toNat_ofNat] at this
  omega

/-- Table and cleared-identity list hold at most 12 identities, so one of any 13 is unknown. -/
theorem exists_unknown {u : IncidentUnit} (hlen : u.cleared.length ≤ 8) (span : Byte) :
    ∃ n < 13, u.Unknown (u.localIdent span n) := by
  by_contra hall
  push Not at hall
  have hsub : (Finset.range 13).image (u.localIdent span) ⊆ u.idents.toFinset := by
    intro i hi
    obtain ⟨n, hn, rfl⟩ := Finset.mem_image.mp hi
    by_contra hmem
    exact hall n (Finset.mem_range.mp hn) (unknown_iff_not_mem.mpr (by simpa using hmem))
  have hcard := Finset.card_le_card hsub
  rw [Finset.card_image_of_injOn (localIdent_injOn u span), Finset.card_range] at hcard
  have hslots : ((List.finRange 4).filterMap fun k => u.slots[k].map (·.ident)).length ≤ 4 :=
    (List.length_filterMap_le _ _).trans (by simp)
  have hidents : u.idents.length ≤ 12 := by
    simp only [IncidentUnit.idents, List.length_append, List.length_map]
    omega
  have := u.idents.toFinset_card_le
  omega

/-- The identity that a new record is given: the first of the 13 that is unknown. -/
theorem freshSeq_spec {u : IncidentUnit} (hlen : u.cleared.length ≤ 8) (span : Byte) :
    ∃ n < 13, u.freshSeq span = u.localSeq + BitVec.ofNat 8 n ∧ u.Unknown (u.localIdent span n) ∧
      ∀ m < n, ¬u.Unknown (u.localIdent span m) := by
  have htest (k : Nat) : ((u.find (u.localIdent span k)).isNone && !u.wasCleared (u.localIdent span k)) = true ↔
      u.Unknown (u.localIdent span k) := by
    simp [unknown_iff]
  obtain ⟨n₀, hn₀, hunknown⟩ := exists_unknown hlen span
  cases hfound : (List.range 13).find? fun k =>
      (u.find (u.localIdent span k)).isNone && !u.wasCleared (u.localIdent span k) with
  | none =>
    rw [List.find?_eq_none] at hfound
    exact absurd ((htest n₀).mpr hunknown) (hfound n₀ (List.mem_range.mpr hn₀))
  | some n =>
    obtain ⟨htrue, hmem, hfirst⟩ := List.find?_range_eq_some.mp hfound
    refine ⟨n, List.mem_range.mp hmem, ?_, (htest n).mp htrue, fun m hm => ?_⟩
    · show u.localSeq + BitVec.ofNat 8 (Option.getD _ 0) = _
      exact congrArg (fun o : Option Nat => u.localSeq + BitVec.ofNat 8 (o.getD 0)) hfound
    · rw [← htest m, Bool.not_eq_true]
      simpa only [Bool.not_eq_true'] using hfirst m hm

theorem freshSeq_unknown {u : IncidentUnit} (hlen : u.cleared.length ≤ 8) (span : Byte) :
    u.Unknown { span := span, seq := u.freshSeq span } := by
  obtain ⟨n, -, hseq, hunknown, -⟩ := freshSeq_spec hlen span
  rw [hseq]
  exact hunknown

/-! ## What an event does to the identities -/

/-- What `IncidentsWf` says of the identities. -/
structure IncidentUnit.Unique (u : IncidentUnit) : Prop where
  slots : ∀ (j k : Fin 4) (q r : Incident), u.slots[j] = some q → u.slots[k] = some r → q.ident = r.ident → j = k
  apart : ∀ (k : Fin 4) (r : Incident), u.slots[k] = some r → ∀ e ∈ u.cleared, e.ident ≠ r.ident
  cleared : (u.cleared.map (·.ident)).Nodup
  length : u.cleared.length ≤ 8

theorem incidentsWf_iff {s : State} : IncidentsWf s ↔ s.incidents.Unique ∧ GoverningIsEarliest s.incidents :=
  ⟨fun ⟨h1, h2, h3, h4, h5⟩ => ⟨⟨h1, h2, h3, h4⟩, h5⟩, fun ⟨⟨h1, h2, h3, h4⟩, h5⟩ => ⟨h1, h2, h3, h4, h5⟩⟩

section
variable {u v : IncidentUnit}

/-- Every record of v has an identity that the same slot of u holds. -/
def SameIdents (u v : IncidentUnit) : Prop :=
  ∀ (k : Fin 4) (r : Incident), v.slots[k] = some r → ∃ q, u.slots[k] = some q ∧ q.ident = r.ident

theorem IncidentUnit.Unique.of_same (h : u.Unique) (hslots : SameIdents u v) (hcleared : v.cleared.Sublist u.cleared) :
    v.Unique where
  slots j k q r hq hr hqr := by
    obtain ⟨q', hq', hqi⟩ := hslots j q hq
    obtain ⟨r', hr', hri⟩ := hslots k r hr
    exact h.slots j k q' r' hq' hr' (hqi.trans (hqr.trans hri.symm))
  apart k r hr e he := by
    obtain ⟨r', hr', hri⟩ := hslots k r hr
    rw [← hri]
    exact h.apart k r' hr' e (hcleared.subset he)
  cleared := h.cleared.sublist (hcleared.map _)
  length := hcleared.length_le.trans h.length

/-- A slot whose record is replaced. -/
theorem put_slots (u : IncidentUnit) (k j : Fin 4) (r : Incident) :
    (u.put k r).slots[j] = if j = k then some r else u.slots[j] := by
  by_cases hj : j = k
  · subst hj; simp [IncidentUnit.put]
  · rw [if_neg hj]; exact set_get_other _ _ hj

/-- A record changes and keeps its identity. -/
theorem IncidentUnit.Unique.put_same (h : u.Unique) {k : Fin 4} {q r : Incident} (hq : u.slots[k] = some q)
    (hident : q.ident = r.ident) : (u.put k r).Unique := by
  refine h.of_same (fun j p hp => ?_) (List.Sublist.refl _)
  rw [put_slots] at hp
  split at hp
  next hj => subst hj; cases hp; exact ⟨q, hq, hident⟩
  · exact ⟨p, hp, rfl⟩

/-- A record with an unknown identity takes a slot. -/
theorem IncidentUnit.Unique.put_new (h : u.Unique) (k : Fin 4) {r : Incident} (hnew : u.Unknown r.ident) :
    (u.put k r).Unique where
  slots i j p q hp hq hpq := by
    rw [put_slots] at hp hq
    split at hp <;> split at hq
    next hi hj => exact hi.trans hj.symm
    · cases hp; exact absurd hpq.symm (hnew.1 j q hq)
    · cases hq; exact absurd hpq (hnew.1 i p hp)
    · exact h.slots i j p q hp hq hpq
  apart j q hq e he := by
    rw [put_slots] at hq
    split at hq
    · cases hq; exact hnew.2 e he
    · exact h.apart j q hq e he
  cleared := h.cleared
  length := h.length

/-- An identity that no record holds joins the cleared-identity list. -/
theorem IncidentUnit.Unique.joinCleared (h : u.Unique) {i : Ident} (hnew : u.Unknown i) (x : Ctx) :
    (u.joinCleared x i).Unique := by
  have hkept (l : List ClearedEntry) (hl : l.Sublist u.cleared) (hlen : l.length ≤ 7) (d : DWord) (n : Nat) :
      IncidentUnit.Unique { u with cleared := l ++ [{ ident := i, joined := d, due := n }] } := by
    refine ⟨h.slots, fun k r hr e he => ?_, ?_, ?_⟩
    · rcases List.mem_append.mp he with he | he
      · exact h.apart k r hr e (hl.subset he)
      · cases List.mem_singleton.mp he
        exact (hnew.1 k r hr).symm
    · rw [List.map_append]
      refine List.nodup_append.mpr ⟨h.cleared.sublist (hl.map _), List.nodup_singleton _, fun j hj m hm => ?_⟩
      obtain ⟨e, he, rfl⟩ := List.mem_map.mp hj
      cases List.mem_singleton.mp hm
      exact hnew.2 e (hl.subset he)
    · simp only [List.length_append, List.length_singleton]; omega
  have hlen := h.length
  unfold IncidentUnit.joinCleared
  split
  next hroom => exact hkept _ (List.Sublist.refl _) (by simp [Config.clearedCapacity] at hroom; omega) _ _
  · exact hkept _ (List.tail_sublist _) (by simp; omega) _ _

/-- The governing record is chosen without a change of identities. -/
theorem IncidentUnit.Unique.govern (h : u.Unique) : u.govern.Unique :=
  h.of_same (fun k r hr => by
    obtain ⟨q, hq, rfl⟩ := govern_get u k r hr
    exact ⟨q, hq, rfl⟩) (List.Sublist.refl _)

end

/-! ## The events of the unit -/

theorem IncidentsWf.unique {s : State} (h : IncidentsWf s) : s.incidents.Unique := (incidentsWf_iff.mp h).1

/-- An event of the incident unit that keeps identities unique keeps the invariant: the governing record is chosen at its end. -/
theorem IncidentsWf.incidentEvent {s : State} {act : IncidentUnit → IncidentStep} (h : (act s.incidents).unit.Unique) :
    IncidentsWf (s.incidentEvent act) := incidentsWf_iff.mpr ⟨h.govern, govern_earliest _⟩

theorem IncidentsWf.congr {s t : State} (h : IncidentsWf s) (hunit : t.incidents = s.incidents) : IncidentsWf t := by
  unfold IncidentsWf
  rw [hunit]
  exact h

section
variable {u : IncidentUnit} (x : Ctx)

/-- A creation puts a record with an unknown identity into a slot, or changes no identity. -/
theorem create_unique (h : u.Unique) (o : Origin) (position : Nat) (zone : Option (Fin 8)) (template : Fin 8) (mirror : Bool)
    (evidence : List (Fin 12)) : (u.create x o position zone template mirror evidence).2.unit.Unique := by
  have hfresh := freshSeq_unknown h.length x.cfg.span.spanId
  have hput (v : IncidentUnit) (hv : v.Unique) (hsame : v.slots = u.slots) (hcleared : v.cleared = u.cleared) (k : Fin 4)
      (r : Incident) (hr : r.ident = { span := x.cfg.span.spanId, seq := u.freshSeq x.cfg.span.spanId }) (b : Byte) :
      IncidentUnit.Unique { v.put k r with localSeq := b } := by
    have hnew : v.Unknown r.ident := by
      unfold IncidentUnit.Unknown
      rw [hr, hsame, hcleared]
      exact hfresh
    obtain ⟨h1, h2, h3, h4⟩ := hv.put_new k hnew
    exact ⟨h1, h2, h3, h4⟩
  have hover : u.overflowed.Unique := ⟨h.slots, h.apart, h.cleared, h.length⟩
  unfold IncidentUnit.create
  simp only
  split
  · exact hput u h rfl rfl _ _ rfl _
  · split
    · exact hover
    · exact hput _ hover rfl rfl _ _ rfl _

theorem becomes_unique (h : u.Unique) {k : Fin 4} {q r : Incident} (hq : u.slots[k] = some q) (hident : q.ident = r.ident)
    (notices : List Notice) : (u.becomes k r notices).unit.Unique := h.put_same hq hident

theorem release_unique (h : u.Unique) {k : Fin 4} {r : Incident} (hr : u.slots[k] = some r) :
    (u.release x k r).unit.Unique := by
  have hslot (j : Fin 4) : (u.slots.set k none)[j] = if j = k then none else u.slots[j] := by
    by_cases hj : j = k
    · subst hj; simp
    · rw [if_neg hj]; exact set_get_other _ _ hj
  have hempty : IncidentUnit.Unique { u with slots := u.slots.set k none, overflow := false } := by
    refine h.of_same (fun j q hq => ?_) (List.Sublist.refl _)
    rw [hslot] at hq
    split at hq
    · cases hq
    · exact ⟨q, hq, rfl⟩
  refine hempty.joinCleared ⟨fun j q hq hqr => ?_, h.apart k r hr⟩ x
  rw [hslot] at hq
  split at hq
  · cases hq
  next hj => exact hj (h.slots j k q r hq hr hqr)

theorem enterClearing_ident (r : Incident) : (r.enterClearing x).ident = r.ident := rfl

theorem refreshed_ident (ack : Bool) (r : Incident) : (r.refreshed x ack).ident = r.ident := by
  simp only [Incident.refreshed]
  repeat' split
  all_goals rfl

theorem acknowledge_unique (h : u.Unique) {k : Fin 4} {r : Incident} (hr : u.slots[k] = some r) :
    (u.acknowledge x k r).unit.Unique := by
  unfold IncidentUnit.acknowledge
  split
  · simp only
    split
    · exact becomes_unique h hr (by rfl) _
    · exact becomes_unique h hr (by rfl) _
  · exact h

theorem takeNotice_unique (h : u.Unique) (n : Notice) : (u.takeNotice x n).unit.Unique := by
  have hover : u.overflowed.Unique := ⟨h.slots, h.apart, h.cleared, h.length⟩
  unfold IncidentUnit.takeNotice
  split
  · exact h
  split
  next k r hfound =>
    obtain ⟨j, -, hslot⟩ := Option.bind_eq_some_iff.mp hfound
    obtain ⟨q, hq, hpair⟩ := Option.map_eq_some_iff.mp hslot
    cases hpair
    split
    · exact h
    split
    · exact becomes_unique h hq (by rfl) _
    · simp only
      split
      · exact h.put_same hq (refreshed_ident x _ r).symm
      · exact becomes_unique h hq (refreshed_ident x _ r).symm _
  next hnone =>
    have hfind : u.find n.ident = none := by
      cases hf : u.find n.ident with
      | none => rfl
      | some k =>
        obtain ⟨r, hr, -⟩ := find_some hf
        rw [hf, Option.bind_some, hr] at hnone
        cases hnone
    split
    · exact h
    next hcleared =>
      have hnew : u.Unknown n.ident := unknown_iff.mpr ⟨hfind, by simpa using hcleared⟩
      split
      · exact h.joinCleared hnew x
      · split
        · exact hover
        · exact h.put_new _ hnew

end

section
variable {s t : State}

theorem IncidentsWf.publish {b a : State} (h : IncidentsWf a) : IncidentsWf (publish b a) := h.congr rfl

theorem IncidentsWf.reply (h : IncidentsWf s) (t : Take) (a : Answer) : IncidentsWf (s.reply t a) := h.congr rfl

/-- The record of a slot changes, and keeps its identity. -/
theorem IncidentsWf.slotEvent (h : IncidentsWf s) {k : Fin 4} {act : Incident → IncidentUnit → IncidentStep}
    (hact : ∀ r, s.incidents.slots[k] = some r → (act r s.incidents).unit.Unique) : IncidentsWf (s.slotEvent k act) := by
  unfold State.slotEvent
  split
  · exact h
  next r hr => exact .incidentEvent (hact r hr)

theorem IncidentsWf.onIncident {act : Fin 4 → Incident → Take → State → State} {t : Take} (h : IncidentsWf s)
    (hact : ∀ k r, s.incidents.slots[k] = some r → IncidentsWf (act k r t s)) : IncidentsWf (State.onIncident act t s) := by
  unfold State.onIncident
  simp only
  split
  · exact h.reply t _
  split
  · exact h.reply t _
  next k r hfound =>
    obtain ⟨j, -, hslot⟩ := Option.bind_eq_some_iff.mp hfound
    obtain ⟨q, hq, hpair⟩ := Option.map_eq_some_iff.mp hslot
    cases hpair
    exact hact k r hq

/-- A delivered deficit goes into the governing record, and leaves what governs. -/
theorem IncidentsWf.writeDeficit (h : IncidentsWf s) (d : Nat) (m : Mail) :
    IncidentsWf { s with incidents := s.incidents.writeDeficit d, mail := m } := by
  have hslot {k : Fin 4} {r : Incident} (hr : (s.incidents.writeDeficit d).slots[k] = some r) :
      ∃ q, s.incidents.slots[k] = some q ∧ r = if q.governing then { q with deficit := d } else q := by
    simp only [IncidentUnit.writeDeficit, Fin.getElem_fin, Vector.getElem_ofFn, Option.map_eq_some_iff] at hr
    obtain ⟨q, hq, rfl⟩ := hr
    exact ⟨q, hq, rfl⟩
  have hwritten {k : Fin 4} {q : Incident} (hq : s.incidents.slots[k] = some q) :
      (s.incidents.writeDeficit d).slots[k] = some (if q.governing then { q with deficit := d } else q) := by
    simp only [IncidentUnit.writeDeficit, Fin.getElem_fin, Vector.getElem_ofFn]
    exact congrArg (Option.map _) hq
  have hsame (q : Incident) : ∃ n, (if q.governing then { q with deficit := d } else q) = { q with deficit := n } ∧
      (q.governing = false → n = q.deficit) := by
    refine ⟨if q.governing then d else q.deficit, ?_, fun hg => by simp [hg]⟩
    split <;> rfl
  obtain ⟨hunique, hlatest, hone, hsome, hzero⟩ := incidentsWf_iff.mp h
  refine incidentsWf_iff.mpr ⟨hunique.of_same (fun k r hr => ?_) (List.Sublist.refl _), fun k r hr hg => ?_,
    fun j k p r hp hr hpg hrg => ?_, fun ⟨k, r, hr, hst⟩ => ?_, fun k r hr hg => ?_⟩
  · obtain ⟨q, hq, rfl⟩ := hslot hr
    obtain ⟨n, hn, -⟩ := hsame q
    exact ⟨q, hq, by rw [hn]⟩
  · obtain ⟨q, hq, rfl⟩ := hslot hr
    obtain ⟨n, hn, -⟩ := hsame q
    rw [hn] at hg ⊢
    refine ⟨(hlatest k q hq hg).1, fun j p hp hpst => ?_⟩
    obtain ⟨p', hp', rfl⟩ := hslot hp
    obtain ⟨m, hm, -⟩ := hsame p'
    rw [hm] at hpst ⊢
    exact (hlatest k q hq hg).2 j p' hp' hpst
  · obtain ⟨q, hq, rfl⟩ := hslot hp
    obtain ⟨q', hq', rfl⟩ := hslot hr
    obtain ⟨n, hn, -⟩ := hsame q
    obtain ⟨n', hn', -⟩ := hsame q'
    rw [hn] at hpg
    rw [hn'] at hrg
    exact hone j k q q' hq hq' hpg hrg
  · obtain ⟨q, hq, rfl⟩ := hslot hr
    obtain ⟨n, hn, -⟩ := hsame q
    rw [hn] at hst
    obtain ⟨j, p, hp, hpg⟩ := hsome ⟨k, q, hq, hst⟩
    obtain ⟨m, hm, -⟩ := hsame p
    exact ⟨j, _, hwritten hp, by rw [hm]; exact hpg⟩
  · obtain ⟨q, hq, rfl⟩ := hslot hr
    obtain ⟨n, hn, hkept⟩ := hsame q
    rw [hn] at hg ⊢
    exact (hkept hg).trans (hzero k q hq hg)

theorem IncidentsWf.created (h : IncidentsWf s) (o : Origin) (position : Nat) (zone : Option (Fin 8)) (template : Fin 8)
    (mirror : Bool) (evidence : List (Fin 12)) :
    IncidentsWf (s.incidentEvent fun u => (u.create s.ctx o position zone template mirror evidence).2) :=
  .incidentEvent (create_unique s.ctx h.unique o position zone template mirror evidence)

theorem IncidentsWf.declareOn (h : IncidentsWf s) (zone : Option (Fin 8)) (t : Take) : IncidentsWf (s.declareOn zone t) := by
  unfold State.declareOn
  extract_lets position busy
  clear_value position busy
  split
  · exact h.reply t _
  cases busy with
  | some z => exact h.reply t _
  | none =>
    have hcreated := h.created .declared (match zone with | none => t.card.a0.toNat | some z => s.active.zonePosition z)
      zone (indexField 8 (by decide) t.card.a1) (t.card.a2 == 1) []
    unfold State.declare
    simp only
    split
    · exact hcreated.reply t _
    · refine IncidentsWf.reply ?_ t _
      exact hcreated.congr rfl

/-- Every event that reaches the incident unit keeps identities unique. -/
theorem IncidentsWf.event {c : Instr} (hb : blockOf c = some .incident ∨ blockOf c = some .request)
    (h : exec c s = .next t) (hs : IncidentsWf s) : IncidentsWf t := by
  have hpublish (a : State) (ha : IncidentsWf a) : IncidentsWf (Machine.publish s a) := ha.publish
  cases c
  case creationRequest z =>
    simp only [exec, execCreationRequest] at h
    refine internal_keeps hs hpublish (fun _ => ?_) h
    split
    · exact hs
    next q _ =>
      simp only [State.decideRequest]
      split <;> exact (hs.created _ _ _ _ _ _).congr rfl
  case notice =>
    simp only [exec, execNotice] at h
    refine internal_keeps hs hpublish (fun _ => ?_) h
    split
    · exact hs
    next n _ _ => exact .incidentEvent (takeNotice_unique s.ctx hs.unique n)
  case deficitDelivery =>
    simp only [exec, execDeficitDelivery] at h
    refine internal_keeps hs hpublish (fun _ => ?_) h
    split
    · exact hs
    · exact hs.writeDeficit _ _
  case clearedEntryExpiry =>
    simp only [exec, execClearedEntryExpiry] at h
    refine internal_keeps hs hpublish (fun _ => ?_) h
    obtain ⟨hunique, hgoverning⟩ := incidentsWf_iff.mp hs
    exact incidentsWf_iff.mpr ⟨hunique.of_same (fun k r hr => ⟨r, hr, rfl⟩) (List.tail_sublist _), hgoverning⟩
  case refreshTimerExpiry k =>
    refine internal_keeps hs hpublish (fun _ => hs.slotEvent fun r hr => ?_) h
    exact hs.unique.put_same hr rfl
  case staleTimerExpiry k =>
    refine internal_keeps hs hpublish (fun _ => hs.slotEvent fun r hr => ?_) h
    exact hs.unique.put_same hr rfl
  case clearingTimerExpiry k =>
    refine internal_keeps hs hpublish (fun _ => hs.slotEvent fun r hr => ?_) h
    unfold IncidentUnit.clearingExpired
    split
    · exact hs.unique.put_same hr rfl
    · exact release_unique _ hs.unique hr
  case declareCard =>
    simp only [exec, execDeclareCard] at h
    refine internal_keeps hs hpublish (fun _ => dispatch_keeps hs fun t => ?_) h
    split
    · exact hs.reply t _
    · exact hs.declareOn _ t
  case acknowledgeCard =>
    refine internal_keeps hs hpublish (fun _ => dispatch_keeps hs fun t => hs.onIncident fun k r hr => ?_) h
    exact IncidentsWf.reply (.incidentEvent (acknowledge_unique s.ctx hs.unique hr)) t _
  case clearCard =>
    refine internal_keeps hs hpublish (fun _ => dispatch_keeps hs fun t => hs.onIncident fun k r hr => ?_) h
    unfold State.clearIncident
    refine IncidentsWf.reply ?_ t _
    split
    · exact hs
    · exact .incidentEvent (hs.unique.put_same hr rfl)
  all_goals rcases hb with hb | hb <;> cases hb

end

theorem unique_reset : IncidentUnit.reset.Unique := by
  constructor <;> simp [IncidentUnit.reset]

theorem IncidentsWf.of_reset {s : State} (h : s.incidents = .reset) : IncidentsWf s := by
  refine incidentsWf_iff.mpr ?_
  rw [h]
  refine ⟨unique_reset, ?_⟩
  simp [GoverningIsEarliest, IncidentUnit.reset]

/-- Only the events of the incident unit and the decisions of creation requests touch the table. -/
theorem Block.Frame.incidents {b : Block} (hincident : b ≠ .incident) (hrequest : b ≠ .request) {s a : State}
    (h : b.Frame s a) : a.incidents = s.incidents := by
  have hleaves := h.leaves
  cases b
  case incident => exact absurd rfl hincident
  case request => exact absurd rfl hrequest
  all_goals
    unfold Block.Leaves at hleaves
    rw [hleaves]

/-- The blocks whose events may touch the incident table. -/
def Block.isIncident (b : Block) : Bool :=
  match b with
  | .incident | .request => true
  | _ => false

/-- Settles O58: a record keeps its identity, takes an unknown one or leaves it to the cleared-identity list, and the governing
record is chosen at the end of each event. -/
theorem everyStepKeepsIdentitiesUnique : Obligations.EveryStepKeepsIdentitiesUnique := by
  refine keptByEveryStep_of_events Block.isIncident (fun h hs => hs.congr h.incidents) (.of_reset rfl)
    (fun s _ => .of_reset rfl) (fun {b _ _} hb hframe hs => ?_) (fun {c b s t} hb hc h hs => ?_)
  · refine hs.congr (hframe.incidents ?_ ?_) <;> rintro rfl <;> cases hb
  · cases b
    case incident => exact hs.event (.inl hc) h
    case request => exact hs.event (.inr hc) h
    all_goals cases hb

end Sys2Proof.Machine

/-! The ports stay in order (R163 to R176): what each operation at a port keeps of its queues, marks and timers. -/

namespace Sys2Proof.Machine

/-! ## The transmit queue (R175, R176) -/

theorem TransmitWf.sublist {l k : List TxEntry} (h : TransmitWf l) (hk : k.Sublist l) : TransmitWf k :=
  ⟨hk.length_le.trans h.1, h.2.sublist hk⟩

/-- Two entries in their order in a queue that stands as R175 says. -/
def TxEntry.MayPrecede (a b : TxEntry) : Prop :=
  a.place ≤ b.place ∧ ¬(a = .hello ∧ b = .hello) ∧ ∀ i, ¬(a.Holds i ∧ b.Holds i)

theorem transmitWf_iff {l : List TxEntry} : TransmitWf l ↔ l.length ≤ 8 ∧ l.Pairwise TxEntry.MayPrecede := .rfl

/-- A notice whose identity no entry holds may stand with an entry of its class or of another, by their places. -/
theorem mayPrecede_notice {e : TxEntry} {q : QueuedNotice} (hnone : ¬e.Holds q.notice.ident) :
    (e.place ≤ TxEntry.place (.notice q) → e.MayPrecede (.notice q)) ∧
    (TxEntry.place (.notice q) ≤ e.place → TxEntry.MayPrecede (.notice q) e) := by
  have hholds {i : Ident} (h : (TxEntry.notice q).Holds i) : i = q.notice.ident := by
    obtain ⟨q', hq, rfl⟩ := h
    cases hq
    rfl
  refine ⟨fun hle => ⟨hle, fun h => (by cases h.2), fun i h => hnone ?_⟩, fun hle => ⟨hle, fun h => (by cases h.1), fun i h => hnone ?_⟩⟩
  · rw [← hholds h.2]; exact h.1
  · rw [← hholds h.1]; exact h.2

/-- A notice of an identity that is not queued goes to the back of its class where there is room. -/
theorem joinsClass_wf {l m : List TxEntry} {q : QueuedNotice} (h : TransmitWf l) (hroom : l.length < 8)
    (hnone : ∀ e ∈ l, ¬e.Holds q.notice.ident) (hm : JoinsClass l q m) : TransmitWf m := by
  obtain ⟨x, y, rfl, rfl, hx, hy⟩ := hm
  obtain ⟨-, hpairs⟩ := transmitWf_iff.mp h
  obtain ⟨hxs, hys, hxy⟩ := List.pairwise_append.mp hpairs
  refine transmitWf_iff.mpr ⟨by simp at hroom ⊢; omega, List.pairwise_append.mpr ⟨hxs, List.pairwise_cons.mpr ⟨fun e he => ?_, hys⟩,
    fun a ha b hb => ?_⟩⟩
  · exact (mayPrecede_notice (hnone e (List.mem_append_right _ he))).2 (Nat.le_of_lt (hy e he))
  · rcases List.mem_cons.mp hb with rfl | hb
    · exact (mayPrecede_notice (hnone a (List.mem_append_left _ ha))).1 (hx a ha)
    · exact hxy a ha b hb

theorem joinClass_wf {l : List TxEntry} {q : QueuedNotice} (h : TransmitWf l) (hroom : l.length < 8)
    (hnone : ∀ e ∈ l, ¬e.Holds q.notice.ident) : TransmitWf (joinClass l q) :=
  joinsClass_wf h hroom hnone (joinClass_joins l q (h.pairwise_place (List.Sublist.refl _)))

/-- Case 2 of R176: the notice takes the place of the queued one, or leaves it for the back of its new class. -/
theorem replaceNotice_wf {l : List TxEntry} {q : QueuedNotice} (h : TransmitWf l) (hheld : ∃ e ∈ l, e.Holds q.notice.ident) :
    TransmitWf (replaceNotice l q) := by
  obtain ⟨e, he, old, rfl, hident⟩ := hheld
  obtain ⟨x, y, rfl⟩ := List.append_of_mem he
  have hothers := h.isFor_eq_false hident
  have hnone (a : TxEntry) (ha : a ∈ x ++ y) : ¬a.Holds q.notice.ident := by
    rw [← isFor_iff, hothers a ha]
    exact nofun
  have hrest : TransmitWf (x ++ y) := h.sublist ((List.sublist_cons_self _ y).append_left x)
  have hroom : (x ++ y).length < 8 := by
    have := h.1
    simp at this ⊢
    omega
  by_cases horigin : old.origin = q.origin
  · rw [replaceNotice_same_origin hident h horigin]
    have hplace : TxEntry.place (.notice q) = TxEntry.place (.notice old) := by simp [TxEntry.place, horigin]
    obtain ⟨hlen, hpairs⟩ := transmitWf_iff.mp h
    obtain ⟨hxs, hys, hxy⟩ := List.pairwise_append.mp hpairs
    obtain ⟨hold, hys⟩ := List.pairwise_cons.mp hys
    refine transmitWf_iff.mpr ⟨by simpa using hlen, List.pairwise_append.mpr ⟨hxs, List.pairwise_cons.mpr ⟨fun e he => ?_, hys⟩,
      fun a ha b hb => ?_⟩⟩
    · exact (mayPrecede_notice (hnone e (List.mem_append_right _ he))).2 (hplace ▸ (hold e he).1)
    · rcases List.mem_cons.mp hb with rfl | hb
      · exact (mayPrecede_notice (hnone a (List.mem_append_left _ ha))).1 (hplace ▸ (hxy a ha _ List.mem_cons_self).1)
      · exact hxy a ha b (List.mem_cons_of_mem _ hb)
  · rw [replaceNotice_new_origin hident h horigin]
    exact joinClass_wf hrest hroom hnone

theorem dropFirst_sublist (test : TxEntry → Bool) (l : List TxEntry) : (dropFirst test l).Sublist l := by
  induction l with
  | nil => exact List.Sublist.refl _
  | cons e rest ih =>
    unfold dropFirst
    split
    · exact List.sublist_cons_self _ _
    · exact ih.cons_cons e

/-- One entry gives way if there is one to. -/
theorem dropFirst_length {test : TxEntry → Bool} {l : List TxEntry} (h : ∃ e ∈ l, test e = true) :
    (dropFirst test l).length < l.length := by
  induction l with
  | nil => obtain ⟨e, he, -⟩ := h; cases he
  | cons e rest ih =>
    unfold dropFirst
    split
    · simp
    next hne =>
      obtain ⟨a, ha, hta⟩ := h
      rcases List.mem_cons.mp ha with rfl | ha
      · exact absurd hta hne
      · simpa using ih ⟨a, ha, hta⟩

/-- Case 4 of R176: an entry gives way to the notice, or the queue stays. -/
theorem overfull_wf {l : List TxEntry} {q : QueuedNotice} (h : TransmitWf l) (hfull : l.length = 8)
    (hnone : ∀ e ∈ l, ¬e.Holds q.notice.ident) : TransmitWf (overfull l q) := by
  have hdrop {test : TxEntry → Bool} (htest : ∃ e ∈ l, test e = true) : TransmitWf (joinClass (dropFirst test l) q) := by
    have hsub := dropFirst_sublist test l
    have hlen := dropFirst_length htest
    exact joinClass_wf (h.sublist hsub) (by omega) fun e he => hnone e (hsub.subset he)
  unfold overfull
  split
  next hhello => exact hdrop ⟨.hello, by simpa using hhello, by simp⟩
  next hhello =>
    split
    next hforwarded => exact hdrop (List.any_eq_true.mp hforwarded)
    next hforwarded =>
      split
      · exact h
      · refine hdrop ?_
        obtain ⟨e, he⟩ := List.exists_mem_of_length_pos (by omega : 0 < l.length)
        refine ⟨e, he, ?_⟩
        cases e with
        | hello => exact absurd (by simpa using he) hhello
        | notice r =>
          have hnot : TxEntry.isOrigin .forwarded (.notice r) = false := by
            simpa using fun hr => hforwarded (List.any_eq_true.mpr ⟨_, he, hr⟩)
          cases horigin : r.origin <;> simp_all [TxEntry.isOrigin]

/-- A HELLO joins at the back where none is queued. -/
theorem append_hello_wf {l : List TxEntry} (h : TransmitWf l) (hhello : TxEntry.hello ∉ l) (hroom : l.length < 8) :
    TransmitWf (l ++ [.hello]) := by
  obtain ⟨-, hpairs⟩ := transmitWf_iff.mp h
  refine transmitWf_iff.mpr ⟨by simp; omega, List.pairwise_append.mpr ⟨hpairs, List.pairwise_singleton _ _, fun a ha b hb => ?_⟩⟩
  cases List.mem_singleton.mp hb
  cases a with
  | hello => exact absurd ha hhello
  | notice q =>
    refine ⟨?_, fun hh => (by cases hh.1), fun i hi => ?_⟩
    · simp only [TxEntry.place]; split <;> omega
    · obtain ⟨_, hq, -⟩ := hi.2
      cases hq

/-! ## One port -/

/-- What `LinkWf` says of one port. -/
structure PortState.Wf (enabled : Bool) (o : PortState) : Prop where
  transmit : TransmitWf o.transmitQueue
  down : o.neighbour = none → ∀ e ∈ o.transmitQueue, e = .hello
  receive : o.receiveQueue.length ≤ 4
  marked : o.holdMark = true → 2 ≤ o.receiveQueue.length
  unmarked : o.holdMark = false → o.receiveQueue.length ≤ 2
  repeats : o.holdRepeatDue.isSome = true ↔ o.holdMark = true
  ages : o.agingDue.isSome = true ↔ o.neighbour.isSome = true
  disabled : enabled = false → o.transmitQueue = [] ∧ o.receiveQueue = [] ∧ o.neighbour = none ∧ o.pendingHold = none ∧
    o.holdDue = none ∧ o.helloDue = none

theorem linkWf_iff {s : State} : LinkWf s ↔ (s.link.relay = true ↔ s.regs.runState = .running) ∧
    ∀ p : Port, (s.link.get p).Wf (portEnabled s.active p) := by
  refine and_congr_right fun _ => forall_congr' fun p => ⟨?_, ?_⟩
  · rintro ⟨h1, h2, h3, h4, h5, h6, h7, h8⟩
    exact ⟨h1, h2, h3, h4, h5, h6, h7, h8⟩
  · rintro ⟨h1, h2, h3, h4, h5, h6, h7, h8⟩
    exact ⟨h1, h2, h3, h4, h5, h6, h7, h8⟩

namespace PortState.Wf

variable {enabled : Bool} {p n : PortState}

/-- What a port has received in part, its transmission and its counters are no part of the invariant. -/
theorem line (h : p.Wf enabled) (hn : n = { p with
    transmission := n.transmission, holdShown := n.holdShown, ownLast := n.ownLast, idleSince := n.idleSince
    receiving := n.receiving, ignoring := n.ignoring, rejected := n.rejected, overrun := n.overrun, dropped := n.dropped }) :
    n.Wf enabled := by
  rw [hn]
  obtain ⟨h1, h2, h3, h4, h5, h6, h7, h8⟩ := h
  exact ⟨h1, h2, h3, h4, h5, h6, h7, h8⟩

/-- A port that is not enabled has nothing to send, to take or to time. -/
theorem enabled_of (h : p.Wf enabled) (hne : p.transmitQueue ≠ [] ∨ p.receiveQueue ≠ [] ∨ p.neighbour ≠ none ∨
    p.pendingHold ≠ none ∨ p.holdDue ≠ none ∨ p.helloDue ≠ none) : enabled = true := by
  cases henabled : enabled
  · obtain ⟨h1, h2, h3, h4, h5, h6⟩ := h.disabled henabled
    simp [h1, h2, h3, h4, h5, h6] at hne
  · rfl

theorem transmitQueue (h : p.Wf true) {l : List TxEntry} (hl : TransmitWf l)
    (hdown : p.neighbour = none → ∀ e ∈ l, e = .hello) (d : Nat) : Wf true { p with transmitQueue := l, dropped := d } :=
  ⟨hl, hdown, h.receive, h.marked, h.unmarked, h.repeats, h.ages, nofun⟩

theorem holdDue (h : p.Wf true) (d : Option Nat) : Wf true { p with holdDue := d } :=
  ⟨h.transmit, h.down, h.receive, h.marked, h.unmarked, h.repeats, h.ages, nofun⟩

theorem holdDue_none (h : p.Wf enabled) : Wf enabled { p with holdDue := none } := by
  refine ⟨h.transmit, h.down, h.receive, h.marked, h.unmarked, h.repeats, h.ages, fun he => ?_⟩
  obtain ⟨h1, h2, h3, h4, -, h6⟩ := h.disabled he
  exact ⟨h1, h2, h3, h4, rfl, h6⟩

theorem helloDue (h : p.Wf true) (d : Option Nat) : Wf true { p with helloDue := d } :=
  ⟨h.transmit, h.down, h.receive, h.marked, h.unmarked, h.repeats, h.ages, nofun⟩

theorem pendingHold (h : p.Wf true) (d : Option Byte) : Wf true { p with pendingHold := d } :=
  ⟨h.transmit, h.down, h.receive, h.marked, h.unmarked, h.repeats, h.ages, nofun⟩

theorem takeHold (h : p.Wf true) (x : Ctx) (time : Byte) : (p.takeHold x time).Wf true :=
  (h.holdDue (if time = 0 then none else some (x.now + 10 * time.toNat))).line rfl

theorem joinReceive (h : p.Wf true) (x : Ctx) (f : Frame) : (p.joinReceive x f).Wf true := by
  unfold PortState.joinReceive
  split
  next hroom =>
    simp only [Config.receiveCapacity] at hroom
    unfold PortState.markIfFilling
    simp only [List.length_append, List.length_singleton, Config.holdMarkSet]
    split
    next hfilling =>
      exact ⟨h.transmit, h.down, by simp; omega, fun _ => by simp; omega, nofun, by simp, h.ages, nofun⟩
    next hfilling =>
      refine ⟨h.transmit, h.down, by simp; omega, fun hm => ?_, fun hm => ?_, h.repeats, h.ages, nofun⟩
      · have := h.marked hm
        simp only [List.length_append, List.length_singleton]
        omega
      · simp only [List.length_append, List.length_singleton]
        have hnot : ¬3 ≤ p.receiveQueue.length + 1 := fun h3 => hfilling ⟨h3, hm⟩
        omega
  · exact h.line rfl

theorem settle (h : p.Wf enabled) (now : Nat) : (p.settle now).Wf enabled := by
  unfold PortState.settle
  split
  · simp only
    split <;> exact h.line rfl
  · exact h

theorem receives (h : p.Wf true) (x : Ctx) (b : Byte) : (p.receive x b).Wf true := by
  unfold PortState.receive
  simp only
  split
  · exact h.line rfl
  split
  · exact h.line rfl
  · exact h.line rfl
  next f _ =>
    have hline : Wf true { p with idleSince := x.now, ownLast := false, receiving := [] } := h.line rfl
    cases f with
    | hold t => exact hline.takeHold x t
    | queued g => exact hline.joinReceive x g

theorem byteArrives (h : p.Wf enabled) (x : Ctx) (b : Byte) : (p.byteArrives x enabled b).Wf enabled := by
  unfold PortState.byteArrives
  split
  next henabled =>
    subst henabled
    exact (h.settle x.now).receives x b
  · exact h.line rfl

theorem bytesArrive (h : p.Wf enabled) (x : Ctx) (bytes : List Byte) :
    (bytes.foldl (PortState.byteArrives x enabled) p).Wf enabled := by
  induction bytes generalizing p with
  | nil => exact h
  | cons b rest ih => exact ih (h.byteArrives x b)

theorem takeHead (h : p.Wf enabled) (hne : p.receiveQueue ≠ []) : p.takeHead.Wf enabled := by
  obtain rfl := h.enabled_of (.inr (.inl hne))
  have hlen : 0 < p.receiveQueue.length := List.length_pos_iff.mpr hne
  have hrec := h.receive
  unfold PortState.takeHead
  simp only [List.length_tail, Config.holdMarkRelease]
  split
  next hreleased => exact ⟨h.transmit, h.down, by simp; omega, nofun, fun _ => by simp; omega, by simp, h.ages, nofun⟩
  next hkept =>
    refine ⟨h.transmit, h.down, by simp; omega, fun hm => ?_, fun hm => ?_, h.repeats, h.ages, nofun⟩
    · have hnot : ¬p.receiveQueue.length - 1 ≤ 1 := fun h1 => hkept ⟨h1, hm⟩
      simp only [List.length_tail]
      omega
    · have := h.unmarked hm
      simp only [List.length_tail]
      omega

theorem hear (h : p.Wf true) (x : Ctx) (hello : Hello) : (p.hear x hello).Wf true :=
  ⟨h.transmit, nofun, h.receive, h.marked, h.unmarked, h.repeats, by simp [PortState.hear], nofun⟩

theorem goDown (h : p.Wf enabled) : p.goDown.Wf enabled := by
  refine ⟨h.transmit.sublist List.filter_sublist, fun _ e he => by simpa using (List.mem_filter.mp he).2, h.receive, h.marked,
    h.unmarked, h.repeats, by simp [PortState.goDown], fun henabled => ?_⟩
  obtain ⟨h1, h2, -, h4, h5, h6⟩ := h.disabled henabled
  exact ⟨by simp [PortState.goDown, h1], h2, rfl, h4, h5, h6⟩

theorem repeatHold (h : p.Wf enabled) (hm : p.holdMark = true) (b : Byte) (d : Nat) :
    Wf enabled { p with pendingHold := some b, holdRepeatDue := some d } := by
  have hlen := h.marked hm
  obtain rfl := h.enabled_of (.inr (.inl (List.length_pos_iff.mp (by omega))))
  exact ⟨h.transmit, h.down, h.receive, h.marked, h.unmarked, by simp [hm], h.ages, nofun⟩

theorem offerHello (h : p.Wf true) : p.offerHello.Wf true := by
  unfold PortState.offerHello
  split
  · exact h
  next hhello =>
    split
    next hroom =>
      refine h.transmitQueue (append_hello_wf h.transmit (by simpa using hhello) hroom) (fun hdown e he => ?_) p.dropped
      rcases List.mem_append.mp he with he | he
      · exact h.down hdown e he
      · exact List.mem_singleton.mp he
    · exact h.line rfl

theorem enqueue (h : p.Wf enabled) (q : QueuedNotice) : (p.enqueue enabled q).Wf enabled := by
  unfold PortState.enqueue
  split
  · exact h
  next hup =>
    obtain ⟨hneighbour, rfl⟩ : p.neighbour ≠ none ∧ enabled = true := by simpa using hup
    split
    next hheld => exact h.transmitQueue (replaceNotice_wf h.transmit (any_isFor_iff.mp hheld)) (absurd · hneighbour) p.dropped
    next hheld =>
      have hnone (e : TxEntry) (he : e ∈ p.transmitQueue) : ¬e.Holds q.notice.ident := fun hh =>
        hheld (any_isFor_iff.mpr ⟨e, he, hh⟩)
      split
      next hroom => exact h.transmitQueue (joinClass_wf h.transmit hroom hnone) (absurd · hneighbour) p.dropped
      next hfull =>
        have hlen := h.transmit.1
        simp only [Config.transmitCapacity] at hfull
        exact h.transmitQueue (overfull_wf h.transmit (by omega) hnone) (absurd · hneighbour) _

theorem beginFrame (h : p.Wf true) (s : State) : (s.beginFrame p).Wf true := by
  unfold State.beginFrame
  split
  · exact (h.pendingHold none).line rfl
  split
  · exact h
  next e rest hqueue =>
    have hsub : rest.Sublist p.transmitQueue := by rw [hqueue]; exact List.sublist_cons_self _ _
    have hsent : Wf true { p with transmitQueue := rest, dropped := p.dropped } :=
      h.transmitQueue (h.transmit.sublist hsub) (fun hdown e he => h.down hdown e (hsub.subset he)) p.dropped
    exact hsent.line rfl

theorem begins (h : p.Wf true) (now : Nat) : (p.begins now).Wf true := h.offerHello.helloDue _

/-- A port that is enabled anew finds nothing in it. -/
theorem enable (h : p.Wf false) : p.Wf true :=
  ⟨h.transmit, h.down, h.receive, h.marked, h.unmarked, h.repeats, h.ages, nofun⟩

theorem transmitWf_nil : TransmitWf [] := ⟨Nat.zero_le _, List.Pairwise.nil⟩

theorem disable (p : PortState) : p.disabled.Wf false :=
  ⟨transmitWf_nil, fun _ e he => (by cases he), Nat.zero_le _, nofun, fun _ => Nat.zero_le _, by simp [PortState.disabled],
    by simp [PortState.disabled, PortState.goDown], fun _ => ⟨rfl, rfl, rfl, rfl, rfl, rfl⟩⟩

theorem load {before after : Bool} (h : p.Wf before) (now : Nat) : (p.load now before after).Wf after := by
  unfold PortState.load
  split
  next hsame => exact hsame ▸ h
  next hne =>
    cases after with
    | true =>
      obtain rfl : before = false := by simpa using hne
      exact h.enable.begins now
    | false => exact disable p

theorem fresh (n : Nat) : Wf enabled { PortState.reset with idleSince := n } :=
  ⟨transmitWf_nil, fun _ e he => (by cases he), Nat.zero_le _, nofun, fun _ => Nat.zero_le _, by simp [PortState.reset],
    by simp [PortState.reset], fun _ => ⟨rfl, rfl, rfl, rfl, rfl, rfl⟩⟩

end PortState.Wf

/-! ## The events of the link -/

theorem link_get_set (l : LinkUnit) (p q : Port) (x : PortState) : (l.set p x).get q = if q = p then x else l.get q := by
  cases p <;> cases q <;> rfl

theorem link_set_relay (l : LinkUnit) (p : Port) (x : PortState) : (l.set p x).relay = l.relay := by
  cases p <;> rfl

theorem LinkWf.port {s : State} (h : LinkWf s) (p : Port) : (s.link.get p).Wf (portEnabled s.active p) :=
  (linkWf_iff.mp h).2 p

theorem LinkWf.congr {s t : State} (h : LinkWf s) (hrun : t.regs.runState = .running ↔ s.regs.runState = .running)
    (hlink : t.link = s.link) (henabled : t.active.link = s.active.link) : LinkWf t := by
  have hp (p : Port) : portEnabled t.active p = portEnabled s.active p := by cases p <;> simp [portEnabled, henabled]
  unfold LinkWf
  simp only [hrun, hlink, hp]
  exact h

theorem LinkWf.portEvent {s : State} (h : LinkWf s) {p : Port} {act : PortState → PortState}
    (hact : (s.link.get p).Wf (portEnabled s.active p) → (act (s.link.get p)).Wf (portEnabled s.active p)) :
    LinkWf (State.portEvent p act s) := by
  obtain ⟨hrelay, hports⟩ := linkWf_iff.mp h
  refine linkWf_iff.mpr ⟨?_, fun q => ?_⟩
  · simp only [State.portEvent, link_set_relay, raiseIf_runState]
    exact hrelay
  · simp only [State.portEvent, link_get_set]
    split
    next hq => subst hq; exact hact (hports q)
    · exact hports q

theorem LinkWf.publish {b a : State} (h : LinkWf a) : LinkWf (publish b a) := h.congr (by simp) rfl rfl

theorem LinkWf.event {c : Instr} {s t : State} (hb : blockOf c = some .port) (h : exec c s = .next t) (hs : LinkWf s) :
    LinkWf t := by
  have hpublish (a : State) (ha : LinkWf a) : LinkWf (Machine.publish s a) := ha.publish
  cases c
  case noticeEnqueue p o =>
    simp only [exec, execNoticeEnqueue] at h
    refine internal_keeps hs hpublish (fun _ => ?_) h
    split
    · exact hs
    next q rest _ =>
      have hp : LinkWf { s with mail := s.mail.setPort p ((s.mail.port p).pop o) } := hs.congr .rfl rfl rfl
      exact hp.portEvent fun h => h.enqueue q
  case incidentFrameTaken p =>
    simp only [exec, execIncidentFrameTaken] at h
    refine internal_keeps hs hpublish (fun _ => ?_) h
    split
    next n rest hqueue =>
      have hp (m : Mail) : LinkWf { s with mail := m } := hs.congr .rfl rfl rfl
      exact (hp _).portEvent fun h => h.takeHead (by simp [hqueue])
    · exact hs
  case frameReceive p bytes =>
    exact internal_keeps hs hpublish (fun _ => hs.portEvent fun h => h.bytesArrive s.ctx bytes) h
  case incompleteFrame p => exact internal_keeps hs hpublish (fun _ => hs.portEvent fun h => h.line rfl) h
  case lineIdleAfterReject p => exact internal_keeps hs hpublish (fun _ => hs.portEvent fun h => h.line rfl) h
  case hold p time =>
    refine internal_keeps hs hpublish (fun hg => hs.portEvent fun h => ?_) h
    have henabled := (Bool.and_eq_true _ _ ▸ hg).1
    rw [henabled] at h ⊢
    have hline : PortState.Wf true { (s.link.get p).settle s.now with idleSince := s.now, ownLast := false } :=
      (h.settle s.now).line rfl
    exact hline.takeHold s.ctx time
  case helloTaken p =>
    refine internal_keeps hs hpublish (fun _ => hs.portEvent fun h => ?_) h
    split
    next hello rest hqueue =>
      have hne : (s.link.get p).receiveQueue ≠ [] := by simp [hqueue]
      have htaken := h.takeHead hne
      rw [h.enabled_of (.inr (.inl hne))] at htaken ⊢
      exact htaken.hear s.ctx hello
    · exact h
  case helloTimerExpiry p =>
    refine internal_keeps hs hpublish (fun hg => hs.portEvent fun h => ?_) h
    have hdue : (s.link.get p).helloDue ≠ none := fun hnone => by simp [hnone, expired] at hg
    have henabled := h.enabled_of (.inr (.inr (.inr (.inr (.inr hdue)))))
    rw [henabled] at h ⊢
    exact h.offerHello.helloDue _
  case agingTimerExpiry p => exact internal_keeps hs hpublish (fun _ => hs.portEvent fun h => h.goDown) h
  case holdTimerExpiry p => exact internal_keeps hs hpublish (fun _ => hs.portEvent fun h => h.holdDue_none.line rfl) h
  case holdRepeatExpiry p =>
    refine internal_keeps hs hpublish (fun hg => hs.portEvent fun h => ?_) h
    exact h.repeatHold (Bool.and_eq_true _ _ ▸ hg).2 _ _
  case frameBegin p =>
    refine internal_keeps hs hpublish (fun hg => hs.portEvent fun h => ?_) h
    have henabled : portEnabled s.active p = true := by
      simp only [State.mayBegin, Bool.and_eq_true] at hg
      exact hg.1.1.1
    rw [henabled] at h ⊢
    exact h.beginFrame s
  case frameEnd p => exact internal_keeps hs hpublish (fun _ => hs.portEvent fun h => h.line rfl) h
  all_goals cases hb

/-- A link item that takes the place of the old one enables or disables each port (R164). -/
theorem LinkWf.loadLink {s : State} (h : LinkWf s) : LinkWf s.loadLink := by
  obtain ⟨hrelay, hports⟩ := linkWf_iff.mp h
  refine linkWf_iff.mpr ⟨?_, fun p => ?_⟩
  · simp only [State.loadLink, State.portEvent, link_set_relay, raiseIf_runState]
    exact hrelay
  · have hload := (hports p).load s.now (after := portEnabled (s.storeItem .link).active p)
    cases p with
    | up => exact hload
    | down => exact hload

theorem LinkWf.commit {s : State} (h : LinkWf s) (r : ItemRef) : LinkWf (s.commit r) := by
  cases r with
  | link => exact h.loadLink
  | span => exact h
  | gate | zone | channel | template | door => exact h.congr .rfl rfl rfl
  | fan f =>
    simp only [State.commit, State.loadFan]
    split <;> exact h.congr .rfl rfl rfl
  | gallery =>
    simp only [State.commit, State.loadGallery]
    split <;> exact h.congr .rfl rfl rfl

theorem LinkWf.reset : LinkWf .reset :=
  linkWf_iff.mpr ⟨by simp [State.reset, LinkUnit.reset, Registers.reset], fun p => by cases p <;> exact .fresh 0⟩

theorem LinkWf.enterRunning (s : State) : LinkWf s.enterRunning := by
  have hport (enabled : Bool) : (PortState.enterRunning s.now enabled).Wf enabled := by
    unfold PortState.enterRunning
    cases enabled with
    | true => exact (PortState.Wf.fresh s.now).begins s.now
    | false => exact .fresh s.now
  exact linkWf_iff.mpr ⟨iff_of_true rfl rfl, fun p => by cases p <;> exact hport _⟩

/-- Outside the link and LOAD, no event touches the ports or which of them are enabled. -/
theorem Block.Frame.linkWf {b : Block} (hport : b ≠ .port) (hload : b ≠ .load) {s a : State} (h : b.Frame s a)
    (hs : LinkWf s) : LinkWf a := by
  have hleaves := h.leaves
  have hrun : a.regs.runState = .running ↔ s.regs.runState = .running := by rw [h.keeps.runState]
  cases b
  case port => exact absurd rfl hport
  case load => exact absurd rfl hload
  all_goals
    unfold Block.Leaves at hleaves
    refine hs.congr hrun ?_ ?_ <;> rw [hleaves]

/-- The blocks whose events may touch the ports. -/
def Block.isPort (b : Block) : Bool :=
  match b with
  | .port | .load => true
  | _ => false

/-- Settles O59: each operation at a port keeps its queues, marks and timers in order (`PortState.Wf`), and only a LOAD of the
link item changes which ports are enabled. -/
theorem everyStepKeepsThePortsInOrder : Obligations.EveryStepKeepsThePortsInOrder := by
  refine keptByEveryStep_of_events Block.isPort (fun h hs => hs.congr h.runState h.link (by rw [h.active])) .reset
    (fun s _ => .enterRunning s) (fun {b _ _} hb hframe hs => ?_) (fun {c b s t} hb hc h hs => ?_)
  · refine hframe.linkWf ?_ ?_ hs <;> rintro rfl <;> cases hb
  · cases b
    case port => exact hs.event hc h
    case load =>
      cases c
      case loadCard =>
        exact loadCard_keeps hs (fun a ha => ha.publish) (fun a t ans ha => ha.congr .rfl rfl rfl)
          (fun r _ _ _ _ => hs.commit r) h
      all_goals cases hc
    all_goals cases hb

end Sys2Proof.Machine

/-! The pulse inputs stay in order (R48 to R56): what each function of one pulse input keeps, and what every step keeps. -/

namespace Sys2Proof.Machine

/-! ## One pulse input -/

/-- What `ChannelsWf` says of every pulse input. -/
structure Pulse.Wf (p : Pulse) : Prop where
  count : p.count ≤ 65535
  left : p.left ≤ 8
  filter : p.FilterWf
  unbound : p.binding = .none → p.count = 0

/-- What `ChannelsWf` says of a tach input besides: it is always sampled as FAST. -/
structure Pulse.TachWf (p : Pulse) : Prop where
  wf : p.Wf
  fast : p.filter = .fast
  settled : p.next = none

section
variable {p : Pulse}

theorem counted_wf (h : p.Wf) : p.counted.Wf := by
  have hbound (hb : p.binding ≠ .none) : Pulse.Wf { p with count := satSucc p.count } := by
    refine ⟨?_, h.left, h.filter, fun hnone => absurd hnone hb⟩
    have hcount := h.count
    show satSucc p.count ≤ 65535
    rw [satSucc_eq]
    omega
  unfold Pulse.counted
  split
  · exact h
  next hb => exact hbound hb

theorem withPin_wf (h : p.Wf) (pin : Bool) : Pulse.Wf { p with pin := pin } := ⟨h.count, h.left, h.filter, h.unbound⟩

theorem withLeft_wf (h : p.Wf) {n : Nat} (hn : n ≤ 8) : Pulse.Wf { p with left := n } :=
  ⟨h.count, hn, h.filter, h.unbound⟩

/-- A sample leaves the input off with no level, or on with one. -/
theorem sample_wf (h : p.Wf) : p.sample.Wf := by
  obtain ⟨hlevel, hnext⟩ := h.filter
  have hleft : p.left - 1 ≤ 8 := (Nat.sub_le _ _).trans h.left
  have hq (q : Pulse) (hc : q.count = p.count) (hl : q.left = p.left - 1) (hb : q.binding = p.binding)
      (hf : q.filter = .off ↔ q.level = none) (hn : q.next = none) : q.Wf :=
    ⟨hc ▸ h.count, hl ▸ hleft, ⟨hf, by rw [hn]; exact nofun⟩, fun hq => hc ▸ h.unbound (hb ▸ hq)⟩
  cases hset : p.next with
  | none =>
    simp only [Pulse.sample, sample_next_none hset]
    split
    next hoff => exact hq _ rfl rfl rfl (by simp [hoff, hlevel.mp hoff]) hset
    next hon =>
      split
      · exact hq _ rfl rfl rfl (by simp [hon]) hset
      next l hl =>
        split
        · split
          · exact counted_wf (hq _ rfl rfl rfl (by simp [hon]) hset)
          · exact hq _ rfl rfl rfl (by simp [hon]) hset
        · exact hq _ rfl rfl rfl (by simp [hon, hl]) hset
  | some k =>
    have hchange : p.filter = .off ∨ k = .off := by
      have := hnext k hset
      tauto
    simp only [Pulse.sample, Pulse.takeSetting, hset, if_pos hchange]
    split
    next hoff => exact hq _ rfl rfl rfl (by simp [hoff]) rfl
    next hon => exact hq _ rfl rfl rfl (by simp [hon]) rfl

theorem samples_wf (h : p.Wf) (n : Nat) : (p.samples n).Wf := by
  induction n generalizing p with
  | zero => exact h
  | succ n ih => exact ih (sample_wf h)

theorem takeDue_wf (h : p.Wf) : p.takeDue.Wf := withLeft_wf (samples_wf h _) (Nat.zero_le _)

theorem drive_wf (h : p.Wf) (pin : Bool) : (p.drive pin).Wf := by
  have hq : Pulse.Wf (if p.filter = .off then p.edge pin else { p with pin := pin }) := by
    split
    · unfold Pulse.edge
      simp only
      split
      · exact counted_wf (withPin_wf h pin)
      · exact withPin_wf h pin
    · exact withPin_wf h pin
  unfold Pulse.drive
  simp only
  split
  · exact sample_wf hq
  · exact hq

theorem windowEnd_wf (h : p.Wf) (g : Fin 4) (length : Nat) : (p.windowEnd g length).1.Wf := by
  unfold Pulse.windowEnd
  split
  · exact ⟨Nat.zero_le _, h.left, h.filter, fun _ => rfl⟩
  split
  · exact ⟨Nat.zero_le _, h.left, h.filter, fun _ => rfl⟩
  · exact h

theorem setFilter_wf (h : p.Wf) (k : FilterKind) : (p.setFilter k).Wf := by
  obtain ⟨hlevel, hnext⟩ := h.filter
  unfold Pulse.setFilter
  split
  · exact ⟨h.count, h.left, ⟨hlevel, nofun⟩, h.unbound⟩
  next hk =>
    split
    next hoff =>
      refine ⟨h.count, (Nat.min_le_left _ _).trans h.left, ⟨hlevel, ?_⟩, h.unbound⟩
      rintro _ ⟨⟩
      exact iff_of_true hoff fun e => hk (hoff.trans e.symm)
    next hon =>
      split
      · refine ⟨h.count, h.left, ⟨hlevel, ?_⟩, h.unbound⟩
        rintro _ ⟨⟩
        exact iff_of_false hon (not_not_intro rfl)
      next hkon =>
        exact ⟨h.count, h.left, ⟨iff_of_false hkon fun e => hon (hlevel.mpr e), nofun⟩, h.unbound⟩

theorem rebind_wf (h : p.Wf) (gate : Option (Fin 4)) : (p.rebind gate).Wf := by
  unfold Pulse.rebind
  split
  · exact ⟨Nat.zero_le _, h.left, h.filter, fun _ => rfl⟩
  · split
    · exact h
    · exact ⟨h.count, h.left, h.filter, nofun⟩

theorem pulseEnterRunning_wf (k : FilterKind) (gate : Option (Fin 4)) (p : Pulse) : (p.enterRunning k gate).Wf := by
  refine ⟨Nat.zero_le _, (by decide : 8 - 1 ≤ 8), ⟨?_, nofun⟩, fun _ => rfl⟩
  by_cases hk : k = .off <;> simp [Pulse.enterRunning, hk]

theorem pulseReset_wf : Pulse.reset.Wf := by
  constructor <;> simp [Pulse.reset, Pulse.FilterWf]

/-! ## One tach input -/

/-- A tach input keeps its filter where no setting waits. -/
theorem Pulse.TachWf.of_same {q : Pulse} (h : p.TachWf) (hq : q.Wf) (hfilter : q.filter = p.filter) (hnext : q.next = p.next) :
    q.TachWf := ⟨hq, hfilter.trans h.fast, hnext.trans h.settled⟩

theorem counted_filter (p : Pulse) : p.counted.filter = p.filter ∧ p.counted.next = p.next := by
  rw [counted_eq]
  exact ⟨rfl, rfl⟩

theorem sample_filter (h : p.next = none) : p.sample.filter = p.filter ∧ p.sample.next = p.next := by
  simp only [Pulse.sample, sample_next_none h]
  split
  · exact ⟨rfl, rfl⟩
  split
  · exact ⟨rfl, rfl⟩
  split
  · split
    · exact counted_filter _
    · exact ⟨rfl, rfl⟩
  · exact ⟨rfl, rfl⟩

theorem Pulse.TachWf.sample (h : p.TachWf) : p.sample.TachWf :=
  h.of_same (sample_wf h.wf) (sample_filter h.settled).1 (sample_filter h.settled).2

theorem Pulse.TachWf.withPin (h : p.TachWf) (pin : Bool) : Pulse.TachWf { p with pin := pin } :=
  h.of_same (withPin_wf h.wf pin) rfl rfl

theorem Pulse.TachWf.withLeft (h : p.TachWf) {n : Nat} (hn : n ≤ 8) : Pulse.TachWf { p with left := n } :=
  h.of_same (withLeft_wf h.wf hn) rfl rfl

theorem Pulse.TachWf.samples (h : p.TachWf) (n : Nat) : (p.samples n).TachWf := by
  induction n generalizing p with
  | zero => exact h
  | succ n ih => exact ih h.sample

theorem Pulse.TachWf.takeDue (h : p.TachWf) : p.takeDue.TachWf := (h.samples _).withLeft (Nat.zero_le _)

theorem Pulse.TachWf.drive (h : p.TachWf) (pin : Bool) : (p.drive pin).TachWf := by
  have hon : p.filter ≠ .off := by rw [h.fast]; exact nofun
  unfold Pulse.drive
  simp only [if_neg hon]
  split
  · exact (h.withPin pin).sample
  · exact h.withPin pin

theorem Pulse.TachWf.windowEnd (h : p.TachWf) (g : Fin 4) (length : Nat) : (p.windowEnd g length).1.TachWf := by
  refine h.of_same (windowEnd_wf h.wf g length) ?_ ?_ <;>
  · unfold Pulse.windowEnd
    split
    · rfl
    · split <;> rfl

theorem Pulse.TachWf.rebind (h : p.TachWf) (gate : Option (Fin 4)) : (p.rebind gate).TachWf := by
  refine h.of_same (rebind_wf h.wf gate) ?_ ?_ <;>
  · unfold Pulse.rebind
    split
    · rfl
    · split <;> rfl

end

/-! ## The pulse inputs of the part -/

/-- What `ChannelsWf` says of the pulse inputs. -/
structure PulsesWf (s : State) : Prop where
  measured : ∀ c : Fin 12, s.measured[c].Wf
  tach : ∀ f : Fin 8, s.tach[f].TachWf

theorem PulsesWf.congr {s t : State} (h : PulsesWf s) (hmeasured : t.measured = s.measured) (htach : t.tach = s.tach) :
    PulsesWf t := by
  refine ⟨fun c => ?_, fun f => ?_⟩
  · rw [hmeasured]; exact h.measured c
  · rw [htach]; exact h.tach f

/-- Functions that keep one input in order keep the tables of inputs in order. -/
theorem PulsesWf.map {s t : State} (h : PulsesWf s) {f : Pulse → Pulse} (hwf : ∀ p : Pulse, p.Wf → (f p).Wf)
    (htachWf : ∀ p : Pulse, p.TachWf → (f p).TachWf) (hmeasured : t.measured = mapTable s.measured f)
    (htach : t.tach = mapTable s.tach f) : PulsesWf t := by
  refine ⟨fun c => ?_, fun k => ?_⟩
  · rw [hmeasured, mapTable_get]; exact hwf _ (h.measured c)
  · rw [htach, mapTable_get]; exact htachWf _ (h.tach k)

theorem PulsesWf.modifyMeasured {s : State} (h : PulsesWf s) (c : Fin 12) {f : Pulse → Pulse}
    (hf : (f s.measured[c]).Wf) : PulsesWf { s with measured := modify s.measured c f } := by
  refine ⟨fun k => ?_, h.tach⟩
  by_cases hk : k = c
  · subst hk
    simp only [modify_get_same]
    exact hf
  · simp only [modify_get_other _ _ hk]
    exact h.measured k

theorem PulsesWf.modifyTach {s : State} (h : PulsesWf s) (c : Fin 8) {f : Pulse → Pulse}
    (hf : (f s.tach[c]).TachWf) : PulsesWf { s with tach := modify s.tach c f } := by
  refine ⟨h.measured, fun k => ?_⟩
  by_cases hk : k = c
  · subst hk
    simp only [modify_get_same]
    exact hf
  · simp only [modify_get_other _ _ hk]
    exact h.tach k

theorem tachReset_wf : Pulse.TachWf Pulse.reset := by
  refine ⟨pulseReset_wf, ?_, ?_⟩ <;> simp [Pulse.reset]

/-! ## Every step -/

theorem PulsesWf.reset : PulsesWf .reset := by
  refine ⟨fun c => ?_, fun f => ?_⟩
  · simpa [State.reset] using pulseReset_wf
  · simpa [State.reset] using tachReset_wf

theorem PulsesWf.softReset (s : State) : PulsesWf s.softReset := by
  refine ⟨fun c => ?_, fun f => ?_⟩
  · simp only [State.softReset, mapTable_get]
    exact withPin_wf pulseReset_wf _
  · simp only [State.softReset, mapTable_get]
    exact tachReset_wf.withPin _

theorem PulsesWf.enterRunning (s : State) : PulsesWf s.enterRunning := by
  refine ⟨fun c => ?_, fun f => ?_⟩
  · have hc : s.enterRunning.measured[c] = _ := Vector.getElem_ofFn _
    rw [hc]
    exact pulseEnterRunning_wf _ _ _
  · have hf : s.enterRunning.tach[f] = _ := Vector.getElem_ofFn _
    rw [hf]
    exact ⟨pulseEnterRunning_wf _ _ _, rfl, rfl⟩

theorem PulsesWf.publish {b a : State} (h : PulsesWf a) : PulsesWf (publish b a) := h.congr rfl rfl

theorem PulsesWf.windowEnd {s : State} (h : PulsesWf s) (g : Fin 4) : PulsesWf (s.windowEnd g) :=
  h.map (fun _ hp => windowEnd_wf hp g _) (fun _ hp => hp.windowEnd g _) rfl rfl

theorem PulsesWf.commit {s : State} (h : PulsesWf s) (r : ItemRef) : PulsesWf (s.commit r) := by
  cases r with
  | span | gate | zone | template | link | door => exact h.congr rfl rfl
  | gallery =>
    simp only [State.commit, State.loadGallery]
    split <;> exact h.congr rfl rfl
  | channel c =>
    refine (h.modifyMeasured c (f := fun p => (p.setFilter _).rebind (some _)) ?_).congr rfl rfl
    exact rebind_wf (setFilter_wf (h.measured c) _) _
  | fan f =>
    let gate := (s.storeItem (.fan f)).active.fans[f].tachGate
    refine (h.modifyTach f (f := Pulse.rebind gate) ((h.tach f).rebind gate)).congr ?_ ?_ <;>
    · simp only [State.commit, State.loadFan]
      split <;> rfl

/-- Outside the gates and LOAD, no event touches a pulse input. -/
theorem PulsesWf.event {c : Instr} {b : Block} {s t : State} (hs : PulsesWf s) (hb : blockOf c = some b)
    (h : exec c s = .next t) : PulsesWf t := by
  have hpublish (a : State) (ha : PulsesWf a) : PulsesWf (Machine.publish s a) := ha.publish
  cases b
  case input =>
    cases c
    case gateWindowEnd g => exact internal_keeps hs hpublish (fun _ => hs.windowEnd g) h
    all_goals cases hb
  case load =>
    cases c
    case loadCard =>
      exact loadCard_keeps hs hpublish (fun _ _ _ ha => ha.congr rfl rfl) (fun r _ _ _ _ => hs.commit r) h
    all_goals cases hb
  all_goals
    obtain rfl | ⟨-, a, rfl, hframe⟩ := exec_event hb h
    · exact hs
    · have hleaves := hframe.leaves
      unfold Block.Leaves at hleaves
      refine hpublish a ?_
      rw [hleaves]
      exact hs.congr rfl rfl

theorem everyStepKeepsThePulses : KeptByEveryStep PulsesWf := by
  intro s t hs h
  obtain ⟨p, hp⟩ := step_took h
  replace hs : PulsesWf { s with pending := p } := hs.congr rfl rfl
  generalize { s with pending := p } = s at hp hs
  cases hp with
  | idle => exact hs
  | event hb h => exact hs.event hb h
  | memoryRead | release | pin | contact => exact hs.congr rfl rfl
  | memoryWrite a v =>
    suffices PulsesWf (s.hostWrite a v) from this.congr rfl rfl
    unfold State.hostWrite State.writeHeader
    split
    · exact hs.congr rfl rfl
    split
    · simp only
      split
      · split <;> exact hs.congr rfl rfl
      · split <;> exact hs.congr rfl rfl
      all_goals exact hs.congr rfl rfl
    split
    · exact hs.congr rfl rfl
    split <;> exact hs.congr rfl rfl
  | registerRead o =>
    unfold State.registerRead
    split <;> exact hs.congr rfl rfl
  | registerWrite o v =>
    unfold State.registerWrite State.controlWrite State.start
    split
    · exact hs
    split
    · split
      · exact .softReset s
      split
      · split
        · exact hs.congr rfl rfl
        · exact hs
      · exact hs
    all_goals exact hs.congr rfl rfl
  | powerOn => exact (PulsesWf.softReset s).congr rfl rfl
  | validate item =>
    unfold State.validateItem
    simp only
    split
    · exact hs.congr rfl rfl
    split
    · exact hs.congr rfl rfl
    · exact .enterRunning _
  | measured c level =>
    refine hs.modifyMeasured c ?_
    split
    · exact drive_wf (hs.measured c) level
    · exact withPin_wf (hs.measured c) level
  | tach f level =>
    refine hs.modifyTach f ?_
    split
    · exact (hs.tach f).drive level
    · exact (hs.tach f).withPin level
  | samples =>
    exact hs.map (fun _ => takeDue_wf) (fun _ hp => hp.takeDue) rfl rfl
  | tick =>
    have htick (u : State) (hm : u.measured = mapTable s.measured ({ · with left := Config.samplesPerTick }))
        (ht : u.tach = mapTable s.tach ({ · with left := Config.samplesPerTick })) : PulsesWf u :=
      hs.map (fun _ hp => withLeft_wf hp (Nat.le_refl 8)) (fun _ hp => hp.withLeft (Nat.le_refl 8)) hm ht
    simp only [State.tick]
    split
    · exact htick _ rfl rfl
    · exact hs.congr rfl rfl

end Sys2Proof.Machine

/-! The channels stay in order (R59 to R70): what each function of one channel keeps, and what every step keeps. -/

namespace Sys2Proof.Machine

/-! ## What the decks do to attached cards -/

/-- An event of a deck changes channels and fans only by detaching one deck's card. -/
def Detaches (s a : State) : Prop :=
  (a.channels = s.channels ∧ a.fans = s.fans) ∨
    ∃ d : Fin 4, a.channels = (s.detach d).channels ∧ a.fans = (s.detach d).fans

theorem Detaches.refl (s : State) : Detaches s s := .inl ⟨rfl, rfl⟩

section
variable {s t : State}

theorem deckEvent_detaches (d : Fin 4) (act : Deck → Deck) :
    Detaches s ((s.popDeckEvent d).deckEvent d act) := by
  simp only [State.deckEvent]
  split
  · exact .inr ⟨d, rfl, rfl⟩
  · exact .inl ⟨rfl, rfl⟩

theorem writeCard_detaches (d : Fin 4) (immediate : Bool) (a : Answer) : Detaches s (s.writeCard d immediate a) := by
  unfold State.writeCard
  split
  · exact .refl s
  · exact .inr ⟨d, rfl, rfl⟩

theorem takeCompletion_detaches (d : Fin 4) : Detaches s (s.takeCompletion d) := by
  unfold State.takeCompletion
  split
  · split
    · exact writeCard_detaches d _ _
    · exact .inl ⟨rfl, rfl⟩
  · split
    · exact writeCard_detaches (s := { s with mail := { s.mail with completions := s.mail.completions.set d none } }) d _ _
    · exact .refl s

theorem deck_detaches {c : Instr} (hb : blockOf c = some .deck) (h : exec c s = .next t) : Detaches s t := by
  have hpublish (a : State) (ha : Detaches s a) : Detaches s (Machine.publish s a) := ha
  cases c
  case controlEvent d =>
    simp only [exec, execControlEvent] at h
    refine internal_keeps (.refl s) hpublish (fun _ => ?_) h
    split
    · exact deckEvent_detaches d _
    · exact .refl s
  case postEvent d =>
    simp only [exec, execPostEvent] at h
    refine internal_keeps (.refl s) hpublish (fun _ => ?_) h
    split
    · exact deckEvent_detaches d _
    · exact .refl s
  case cardTake =>
    simp only [exec, execCardTake] at h
    refine internal_keeps (.refl s) hpublish (fun _ => ?_) h
    split <;> exact .inl ⟨rfl, rfl⟩
  case cardCompletion d =>
    simp only [exec, execCardCompletion] at h
    refine internal_keeps (.refl s) hpublish (fun _ => ?_) h
    split
    · exact .inl ⟨rfl, rfl⟩
    · exact takeCompletion_detaches d
  case deadlineExpiry d =>
    simp only [exec, execDeadlineExpiry] at h
    refine internal_keeps (.refl s) hpublish (fun _ => ?_) h
    split
    · exact .refl s
    · exact writeCard_detaches d _ _
  all_goals cases hb

end

/-! ## One channel -/

/-- What `ChannelsWf` says of one channel whose history has a depth. -/
structure Channel.Wf (depth : Nat) (c : Channel) : Prop where
  history : c.history.length ≤ depth
  alarm : c.band = .alarm → c.summary = true ∨ c.out = true
  zero : c.zero.isSome = true → c.out = true

section
variable {c : Channel} {depth : Nat}

theorem joinHistory_length_le (depth : Nat) (h : List Int) (v : Int) : (joinHistory depth h v).length ≤ depth := by
  simp only [joinHistory, List.length_drop, List.length_append, List.length_singleton]
  omega

theorem append_wf (item : ChannelItem) (h : c.Wf item.depth) (v : Int) : (c.append item v).Wf item.depth := by
  refine ⟨joinHistory_length_le _ _ _, fun halarm => ?_, h.zero⟩
  simp only [Channel.append] at halarm ⊢
  by_cases hold : c.band = .alarm
  · exact (h.alarm hold).imp_left fun hs => by simp [hs]
  · cases hout : c.out <;> simp [halarm, hold]

theorem ordinary_wf (item : ChannelItem) (h : c.Wf item.depth) (w : Window) : (c.ordinary item w).Wf item.depth := by
  have hd : Channel.Wf item.depth { c with status := (item.judge w).1 } := ⟨h.history, h.alarm, h.zero⟩
  unfold Channel.ordinary
  simp only
  split
  · exact hd
  · exact append_wf item hd _

theorem handOver_wf (item : ChannelItem) (h : c.Wf item.depth) (sec : DWord) (w : Window) :
    (c.handOver item sec w).Wf item.depth := by
  unfold Channel.handOver
  simp only
  split
  · exact ⟨Nat.zero_le _, h.alarm, nofun⟩
  · obtain ⟨h1, h2, h3⟩ := ordinary_wf item h w
    exact ⟨h1, h2, h3⟩

theorem channelLoad_wf (c : Channel) (depth : Nat) : (c.load).Wf depth := ⟨Nat.zero_le _, nofun, nofun⟩

theorem channelReset_wf (depth : Nat) : Channel.reset.Wf depth := ⟨Nat.zero_le _, nofun, nofun⟩

theorem returnToService_wf (h : c.Wf depth) : c.returnToService.Wf depth := by
  refine ⟨h.history, fun halarm => .inl ?_, nofun⟩
  have hband : c.band = .alarm := halarm
  simp [Channel.returnToService, hband]

end

/-! ## The channel table -/

def ChannelTableWf (s : State) : Prop := ∀ c : Fin 12, s.channels[c].Wf s.active.channels[c].depth

theorem channelsWf_iff {s : State} : ChannelsWf s ↔ PulsesWf s ∧ ChannelTableWf s := by
  constructor
  · rintro ⟨hm, ht, hc⟩
    refine ⟨⟨fun c => ?_, fun f => ?_⟩, fun c => ?_⟩
    · obtain ⟨h1, h2, h3, h4⟩ := hm c
      exact ⟨h1, h2, h3, h4⟩
    · obtain ⟨h1, h2, h3, h4, h5, h6⟩ := ht f
      exact ⟨⟨h1, h2, h3, h6⟩, h4, h5⟩
    · obtain ⟨h1, h2, h3⟩ := hc c
      exact ⟨h1, h2, h3⟩
  · rintro ⟨⟨hm, ht⟩, hc⟩
    refine ⟨fun c => ?_, fun f => ?_, fun c => ⟨(hc c).history, (hc c).alarm, (hc c).zero⟩⟩
    · obtain ⟨h1, h2, h3, h4⟩ := hm c
      exact ⟨h1, h2, h3, h4⟩
    · obtain ⟨⟨h1, h2, h3, h6⟩, h4, h5⟩ := ht f
      exact ⟨h1, h2, h3, h4, h5, h6⟩

section
variable {s : State}

theorem ChannelTableWf.congr {t : State} (h : ChannelTableWf s) (hchannels : t.channels = s.channels)
    (hitems : t.active.channels = s.active.channels) : ChannelTableWf t := by
  unfold ChannelTableWf
  rw [hchannels, hitems]
  exact h

theorem ChannelTableWf.set {t : State} (h : ChannelTableWf s) (c : Fin 12) {n : Channel}
    (hn : n.Wf t.active.channels[c].depth) (hchannels : t.channels = s.channels.set c n)
    (hitems : ∀ k, k ≠ c → t.active.channels[k] = s.active.channels[k]) : ChannelTableWf t := by
  intro k
  rw [hchannels]
  by_cases hk : k = c
  · subst hk
    have hset : (s.channels.set k n)[k] = n := Vector.getElem_set_self _
    rw [hset]
    exact hn
  · rw [set_get_other _ _ hk, hitems k hk]
    exact h k

theorem ChannelTableWf.reply (h : ChannelTableWf s) (t : Take) (a : Answer) : ChannelTableWf (s.reply t a) :=
  h.congr rfl rfl

theorem ChannelTableWf.publish {b : State} (h : ChannelTableWf s) : ChannelTableWf (publish b s) := h.congr rfl rfl

theorem ChannelTableWf.detach (h : ChannelTableWf s) (d : Fin 4) : ChannelTableWf (s.detach d) := by
  intro c
  rw [detach_channel]
  obtain ⟨h1, h2, h3⟩ := h c
  split
  next hcard =>
    refine ⟨h1, h2, fun _ => h3 ?_⟩
    obtain ⟨z, hz, -⟩ := Option.bind_eq_some_iff.mp hcard
    exact Option.isSome_iff_exists.mpr ⟨z, hz⟩
  · exact ⟨h1, h2, h3⟩

theorem ChannelTableWf.takeWindow (h : ChannelTableWf s) (c : Fin 12) (w : Window) : ChannelTableWf (s.takeWindow c w) := by
  have hd := handOver_wf s.active.channels[c] (h c) s.regs.seconds w
  simp only [State.takeWindow]
  split
  · refine h.set c ?_ rfl fun k hk => ?_
    · simp only [State.takeZero, modify_get_same]
      exact hd
    · simp only [State.takeZero, modify_get_other _ _ hk]
  · exact h.set c hd rfl fun _ _ => rfl

theorem ChannelTableWf.zeroChannel (h : ChannelTableWf s) (c : Fin 12) (t : Take) : ChannelTableWf (s.zeroChannel c t) := by
  unfold State.zeroChannel
  extract_lets o pend
  split
  · exact h.reply t _
  next hout =>
    have hpend (card : Option (Fin 4)) : ChannelTableWf (pend card) :=
      h.set c (n := { o with zero := some { card := card } })
        ⟨(h c).history, (h c).alarm, fun _ => Bool.eq_true_of_not_eq_false hout⟩ rfl fun _ _ => rfl
    split
    · exact h.reply t _
    split
    · exact (hpend _).congr rfl rfl
    · exact (hpend none).reply t _

theorem ChannelTableWf.clearSummary (h : ChannelTableWf s) (c : Fin 12) (t : Take) : ChannelTableWf (s.clearSummary c t) := by
  unfold State.clearSummary
  simp only
  split
  · exact h.reply t _
  next hband =>
    refine ChannelTableWf.reply ?_ t _
    exact h.set c (n := { s.channels[c] with summary := false })
      ⟨(h c).history, fun ha => absurd ha hband, (h c).zero⟩ rfl fun _ _ => rfl

theorem ChannelTableWf.setService (h : ChannelTableWf s) (c : Fin 12) (out : Bool) : ChannelTableWf (s.setService c out) := by
  unfold State.setService
  simp only
  split
  · exact h
  split
  · exact h.set c (n := { s.channels[c] with out := true }) ⟨(h c).history, fun _ => .inr rfl, fun _ => rfl⟩ rfl
      fun _ _ => rfl
  · exact h.set c (returnToService_wf (h c)) rfl fun _ _ => rfl

theorem ChannelTableWf.event {c : Instr} {t : State} (hb : blockOf c = some .air) (h : exec c s = .next t)
    (hs : ChannelTableWf s) : ChannelTableWf t := by
  have hpublish (a : State) (ha : ChannelTableWf a) : ChannelTableWf (Machine.publish s a) := ha.publish
  cases c
  case windowHandover c =>
    simp only [exec, execWindowHandover] at h
    refine internal_keeps hs hpublish (fun _ => ?_) h
    split
    · exact hs
    · exact hs.takeWindow c _
  case markCard => exact internal_keeps hs hpublish (fun _ => dispatch_keeps hs fun t => hs.reply t _) h
  case readCard =>
    exact internal_keeps hs hpublish (fun _ => dispatch_keeps hs fun t =>
      onTarget_keeps (hs.reply t _) fun _ => hs.reply t _) h
  case zeroCard =>
    exact internal_keeps hs hpublish (fun _ => dispatch_keeps hs fun t =>
      onTarget_keeps (hs.reply t _) fun c => hs.zeroChannel c t) h
  case clearSummaryCard =>
    exact internal_keeps hs hpublish (fun _ => dispatch_keeps hs fun t =>
      onTarget_keeps (hs.reply t _) fun c => hs.clearSummary c t) h
  case channelServiceCard =>
    refine internal_keeps hs hpublish (fun _ => dispatch_keeps hs fun t =>
      onTarget_keeps (hs.reply t _) fun c => ?_) h
    unfold State.channelService
    split
    · exact hs.reply t _
    · exact (hs.setService c _).reply t _
  all_goals cases hb

theorem ChannelTableWf.commit (h : ChannelTableWf s) (r : ItemRef) : ChannelTableWf (s.commit r) := by
  cases r with
  | span | gate | zone | template | link | door => exact h.congr rfl rfl
  | gallery =>
    simp only [State.commit, State.loadGallery]
    split <;> exact h.congr rfl rfl
  | channel c =>
    refine h.set c (channelLoad_wf s.channels[c] _) rfl fun k hk => ?_
    exact set_get_other _ _ hk
  | fan f =>
    refine h.congr ?_ ?_ <;>
    · simp only [State.commit, State.loadFan]
      split <;> rfl

end

theorem ChannelTableWf.reset : ChannelTableWf .reset := by
  intro c
  have hc : State.reset.channels[c] = Channel.reset := by simp [State.reset]
  rw [hc]
  exact channelReset_wf _

theorem ChannelTableWf.enterRunning (s : State) : ChannelTableWf s.enterRunning := by
  intro c
  have hc : s.enterRunning.channels[c] = Channel.reset := by simp [State.enterRunning]
  rw [hc]
  exact channelReset_wf _

/-- The blocks whose events may touch the channels. -/
def Block.isChannel (b : Block) : Bool :=
  match b with
  | .air | .deck | .load => true
  | _ => false

theorem everyStepKeepsTheChannelTable : KeptByEveryStep ChannelTableWf := by
  refine keptByEveryStep_of_events Block.isChannel (fun h hs => hs.congr h.channels (by rw [h.active])) .reset
    (fun s _ => .enterRunning s) (fun {b _ _} hb hframe hs => ?_) (fun {c b s t} hb hc h hs => ?_)
  · have hleaves := hframe.leaves
    cases b
    case air | deck | load => cases hb
    all_goals
      unfold Block.Leaves at hleaves
      rw [hleaves]
      exact hs.congr rfl rfl
  · cases b
    case air => exact hs.event hc h
    case deck =>
      have hactive : t.active = s.active := by
        obtain rfl | ⟨-, a, rfl, hframe⟩ := exec_event hc h
        · rfl
        · have hleaves := hframe.leaves
          unfold Block.Leaves at hleaves
          rw [hleaves]
          rfl
      obtain ⟨hchannels, -⟩ | ⟨d, hchannels, -⟩ := deck_detaches hc h
      · exact hs.congr hchannels (by rw [hactive])
      · exact (hs.detach d).congr hchannels (by rw [hactive]; rfl)
    case load =>
      cases c
      case loadCard =>
        exact loadCard_keeps hs (fun a ha => ha.publish) (fun a t ans ha => ha.reply t ans)
          (fun r _ _ _ _ => hs.commit r) h
      all_goals cases hc
    all_goals cases hb

theorem everyStepKeepsTheChannels : KeptByEveryStep ChannelsWf := by
  intro s t hs h
  obtain ⟨hpulses, htable⟩ := channelsWf_iff.mp hs
  exact channelsWf_iff.mpr ⟨everyStepKeepsThePulses s t hpulses h, everyStepKeepsTheChannelTable s t htable h⟩

theorem ChannelsWf.reset : ChannelsWf .reset := channelsWf_iff.mpr ⟨.reset, .reset⟩

end Sys2Proof.Machine

/-! The zones stay in order (R76 to R83): what each function of one zone keeps, and what every step keeps. -/

namespace Sys2Proof.Machine

/-! ## One zone -/

/-- What `ZonesWf` says of one zone, and whether its creation request waits for an answer. -/
structure Zone.Wf (waits : Bool) (o : Zone) : Prop where
  ident : o.ident.isSome = true ↔ o.state = .triggered
  confirm : o.confirm.isSome = true ↔ o.state = .confirming
  evidence : o.state = .confirming ∨ o.state = .blocked ∨ o.state = .held → o.evidence = true
  asked : waits = true → o.evidence = true ∧ (o.state = .quiet ∨ o.state = .confirming ∨ o.state = .blocked)
  quiet : o.state = .quiet → o.evidence = true → waits = true

section
variable {o : Zone}

/-- A zone that asks at once has evidence in QUIET; any other zone waits for no answer after a re-evaluation. -/
theorem reevaluate_wf (h : o.Wf false) (item : ZoneItem) (now : Nat) (sec : DWord) (worst : Band) (ev : Bool) :
    (o.reevaluate item now sec worst ev).Wf (o.asksAtOnce item ev) := by
  obtain ⟨hident, hconfirm, hevidence, -, hquiet⟩ := h
  have hcalm : o.state = .quiet → o.evidence = false := fun hs => by simpa using hquiet hs
  unfold Zone.reevaluate Zone.asksAtOnce
  simp only
  split
  next hsame =>
    subst hsame
    simp only [Bool.and_not_self, Bool.false_and]
    exact ⟨hident, hconfirm, hevidence, nofun, hquiet⟩
  next hchanged =>
    cases ev with
    | true =>
      have hold : o.evidence = false := by simpa using Ne.symm hchanged
      have hnone : ¬(o.state = .confirming ∨ o.state = .blocked ∨ o.state = .held) := fun hs => by simp [hevidence hs] at hold
      push Not at hnone
      simp only [hold, if_true]
      by_cases hs : o.state = .quiet
      · by_cases htime : item.confirmTime = 0
        · constructor <;> simp [hident, hconfirm, hs, htime]
        · constructor <;> simp [hident, hs, htime]
      · constructor <;> simp [hident, hconfirm, hs]
    | false =>
      simp only [Bool.false_eq_true, if_false, Bool.false_and]
      cases hs : o.state <;> simp only
      case confirming => exact ⟨by simp [hident, hs], by simp, by simp, nofun, by simp⟩
      case blocked | held => exact ⟨by simp [hident, hs], by simp [hconfirm, hs], by simp, nofun, by simp⟩
      case quiet | triggered =>
        exact ⟨by simp [hident, hs], by simp [hconfirm, hs], by simp, nofun, by simp⟩

theorem Zone.Wf.asks (h : o.Wf false) (hs : o.state = .confirming ∨ o.state = .blocked) : o.Wf true := by
  obtain ⟨hident, hconfirm, hevidence, -, hquiet⟩ := h
  exact ⟨hident, hconfirm, hevidence, fun _ => ⟨hevidence (hs.imp_right .inl), .inr hs⟩, fun _ _ => rfl⟩

theorem created_wf (i : Ident) (o : Zone) : (o.created i).Wf false := by
  constructor <;> simp [Zone.created]

theorem full_wf (h : o.Wf true) : o.full.Wf false := by
  constructor <;> simp [Zone.full, (h.asked rfl).1]

theorem freed_wf (i : Ident) (h : o.Wf false) : (o.freed i).Wf false := by
  unfold Zone.freed
  split
  next hs =>
    have hconfirm : o.confirm = none := by simpa [hs.1] using h.confirm
    cases he : o.evidence <;> constructor <;> simp [hconfirm]
  · exact h

theorem zoneReset_wf : Zone.reset.Wf false := by
  constructor <;> simp [Zone.reset]

end

/-! ## The zone table -/

theorem zonesWf_iff {s : State} : ZonesWf s ↔ ∀ z : Fin 8, s.zones[z].Wf s.mail.requests[z].isSome := by
  refine forall_congr' fun z => ⟨?_, ?_⟩
  · rintro ⟨h1, h2, h3, h4, h5⟩
    exact ⟨h1, h2, h3, h4, h5⟩
  · rintro ⟨h1, h2, h3, h4, h5⟩
    exact ⟨h1, h2, h3, h4, h5⟩

section
variable {s : State} {z : Fin 8}

theorem ZonesWf.wf (h : ZonesWf s) (z : Fin 8) : s.zones[z].Wf s.mail.requests[z].isSome := zonesWf_iff.mp h z

theorem ZonesWf.wf_free (h : ZonesWf s) (hfree : s.zoneFree z = true) : s.zones[z].Wf false := by
  have hz := h.wf z
  rw [State.zoneFree, Option.isNone_iff_eq_none] at hfree
  rwa [hfree] at hz

theorem ZonesWf.congr {t : State} (h : ZonesWf s) (hzones : t.zones = s.zones) (hrequests : t.mail.requests = s.mail.requests) :
    ZonesWf t := by
  unfold ZonesWf
  rw [hzones, hrequests]
  exact h

/-- One zone and its request change together. -/
theorem ZonesWf.change {t : State} (h : ZonesWf s) (z : Fin 8) (hz : t.zones[z].Wf t.mail.requests[z].isSome)
    (hzones : ∀ k, k ≠ z → t.zones[k] = s.zones[k]) (hrequests : ∀ k, k ≠ z → t.mail.requests[k] = s.mail.requests[k]) :
    ZonesWf t := by
  refine zonesWf_iff.mpr fun k => ?_
  by_cases hk : k = z
  · subst hk; exact hz
  · rw [hzones k hk, hrequests k hk]
    exact h.wf k

theorem ZonesWf.publish {b : State} (h : ZonesWf s) : ZonesWf (publish b s) := h.congr rfl rfl

theorem ZonesWf.reply (h : ZonesWf s) (t : Take) (a : Answer) : ZonesWf (s.reply t a) := h.congr rfl rfl

theorem request_ask (z : Fin 8) (s : State) : (s.ask z).mail.requests[z].isSome = true := by
  have hset : (s.ask z).mail.requests[z] = some (s.requestOf z) := Vector.getElem_set_self _
  rw [hset]
  rfl

theorem ZonesWf.ask (h : ZonesWf s) (hz : s.zones[z].Wf true) : ZonesWf (s.ask z) := by
  refine h.change z ?_ (fun _ _ => rfl) fun k hk => set_get_other _ _ hk
  rw [request_ask]
  exact hz

theorem ZonesWf.reevaluate (h : ZonesWf s) (hfree : s.zoneFree z = true) : ZonesWf (s.reevaluate z) := by
  have hnone : s.mail.requests[z] = none := by simpa [State.zoneFree] using hfree
  have hwf := reevaluate_wf (h.wf_free hfree) s.active.zones[z] s.now s.regs.seconds (s.worstBand z) (s.evidence z)
  have hzone (l : Vector Zone 8) (n : Zone) : (l.set z n)[z] = n := Vector.getElem_set_self _
  simp only [State.reevaluate]
  split
  next hasks =>
    rw [hasks] at hwf
    refine h.change z ?_ (fun k hk => set_get_other _ _ hk) fun k hk => set_get_other _ _ hk
    rw [request_ask]
    simpa only [State.ask, hzone] using hwf
  next hasks =>
    rw [Bool.eq_false_iff.mpr hasks] at hwf
    refine h.change z ?_ (fun k hk => set_get_other _ _ hk) fun _ _ => rfl
    simpa only [hzone, hnone, Option.isSome_none] using hwf

theorem ZonesWf.event {c : Instr} {t : State} (hb : blockOf c = some .zone) (h : exec c s = .next t) (hs : ZonesWf s) :
    ZonesWf t := by
  have hpublish (a : State) (ha : ZonesWf a) : ZonesWf (Machine.publish s a) := ha.publish
  cases c
  case zoneReevaluation z =>
    simp only [exec, execZoneReevaluation] at h
    refine internal_keeps hs hpublish (fun hg => ?_) h
    have hm : ZonesWf { s with mail := { s.mail with reevaluations := modify s.mail.reevaluations z (· - 1) } } :=
      hs.congr rfl rfl
    exact hm.reevaluate (Bool.and_eq_true _ _ ▸ hg).2
  case confirmTimerExpiry z =>
    simp only [exec, execConfirmTimerExpiry] at h
    refine internal_keeps hs hpublish (fun hg => ?_) h
    simp only [State.confirmDue, Bool.and_eq_true, decide_eq_true_eq] at hg
    obtain ⟨⟨hstate, -⟩, hfree⟩ := hg
    exact hs.ask ((hs.wf_free hfree).asks (.inl hstate))
  case slotFreed z =>
    simp only [exec, execSlotFreed] at h
    refine internal_keeps hs hpublish (fun hg => ?_) h
    have hm : ZonesWf { s with mail := { s.mail with slotFreed := modify s.mail.slotFreed z (· - 1) } } := hs.congr rfl rfl
    split
    next hstate => exact hm.ask ((hs.wf_free (Bool.and_eq_true _ _ ▸ hg).2).asks (.inr hstate))
    · exact hm
  case incidentFreed z =>
    simp only [exec, execIncidentFreed] at h
    refine internal_keeps hs hpublish (fun hg => ?_) h
    split
    · exact hs
    next i rest _ =>
      have hfree := (Bool.and_eq_true _ _ ▸ hg).2
      have hnone : s.mail.requests[z] = none := by simpa [State.zoneFree] using hfree
      refine hs.change z ?_ (fun k hk => modify_get_other _ _ hk) fun _ _ => rfl
      simp only [modify_get_same, hnone]
      exact freed_wf i (hs.wf_free hfree)
  all_goals cases hb

/-! ## Answers of the incident unit -/

/-- The decision of a request answers its zone: created, or the table is full. -/
theorem ZonesWf.decideRequest (h : ZonesWf s) {q : CreationRequest} (hq : s.mail.requests[z] = some q) :
    ZonesWf (s.decideRequest z q) := by
  have hz := h.wf z
  rw [hq] at hz
  have hanswer (p : State) (hzones : p.zones = s.zones) (hrequests : p.mail.requests = s.mail.requests) (f : Zone → Zone)
      (hf : (f s.zones[z]).Wf false) :
      ZonesWf { p with zones := modify p.zones z f, mail := { p.mail with requests := p.mail.requests.set z none } } := by
    refine h.change z ?_ (fun k hk => ?_) fun k hk => ?_
    · have hset : (p.mail.requests.set z none)[z] = none := Vector.getElem_set_self _
      simp only [modify_get_same, hzones, hset]
      exact hf
    · simp only [modify_get_other _ _ hk, hzones]
    · rw [← hrequests]
      exact set_get_other _ _ hk
  simp only [State.decideRequest]
  split
  · exact hanswer (s.incidentEvent _) rfl rfl _ (full_wf hz)
  · exact hanswer (s.incidentEvent _) rfl rfl _ (created_wf _ _)

theorem ZonesWf.request {c : Instr} {t : State} (hb : blockOf c = some .request) (h : exec c s = .next t) (hs : ZonesWf s) :
    ZonesWf t := by
  cases c
  case creationRequest z =>
    simp only [exec, execCreationRequest] at h
    refine internal_keeps hs (fun a ha => ha.publish) (fun _ => ?_) h
    split
    · exact hs
    next q hq => exact hs.decideRequest hq
  all_goals cases hb

/-- A DECLARE on a zone waits until the zone's request has been answered. -/
theorem ZonesWf.declareOn (h : ZonesWf s) (zone : Option (Fin 8)) (t : Take)
    (hfree : ∀ z, zone = some z → s.zoneFree z = true) : ZonesWf (s.declareOn zone t) := by
  unfold State.declareOn
  extract_lets position busy
  clear_value position busy
  split
  · exact h.reply t _
  split
  · exact h.reply t _
  · simp only [State.declare]
    split
    · exact ZonesWf.reply (h.congr (t := s.incidentEvent _) rfl rfl) t _
    next i k _ =>
      refine ZonesWf.reply ?_ t _
      cases zone with
      | none => exact h.congr rfl rfl
      | some z =>
        refine h.change z ?_ (fun k hk => modify_get_other _ _ hk) fun _ _ => rfl
        have hnone : s.mail.requests[z] = none := by simpa [State.zoneFree] using hfree z rfl
        simp only [modify_get_same, incidentEvent_requests, hnone]
        exact created_wf _ _

theorem declareTarget_zone {w : Word} {zone : Option (Fin 8)} {z : Fin 8} (h : declareTarget w = some zone)
    (hz : zone = some z) : targetIndex 8 w = some z := by
  subst hz
  unfold declareTarget at h
  split at h
  · cases h
  · simpa using h

theorem ZonesWf.incident {c : Instr} {t : State} (hb : blockOf c = some .incident) (h : exec c s = .next t)
    (hs : ZonesWf s) : ZonesWf t := by
  have hpublish (a : State) (ha : ZonesWf a) : ZonesWf (Machine.publish s a) := ha.publish
  have hevent (p : State) (hp : ZonesWf p) (act : IncidentUnit → IncidentStep) : ZonesWf (p.incidentEvent act) :=
    hp.congr rfl rfl
  have hslot (k : Fin 4) (act : Incident → IncidentUnit → IncidentStep) : ZonesWf (s.slotEvent k act) := by
    unfold State.slotEvent
    split
    · exact hs
    · exact hevent s hs _
  have hcard (t : Take) {act : Fin 4 → Incident → Take → State → State} (hact : ∀ k r, ZonesWf (act k r t s)) :
      ZonesWf (State.onIncident act t s) := by
    unfold State.onIncident
    simp only
    split
    · exact hs.reply t _
    split
    · exact hs.reply t _
    · exact hact _ _
  cases c
  case notice =>
    simp only [exec, execNotice] at h
    refine internal_keeps hs hpublish (fun _ => ?_) h
    split
    · exact hs
    next rest _ => exact hevent { s with mail := { s.mail with notices := rest } } (hs.congr rfl rfl) _
  case deficitDelivery =>
    simp only [exec, execDeficitDelivery] at h
    refine internal_keeps hs hpublish (fun _ => ?_) h
    split
    · exact hs
    · exact hs.congr rfl rfl
  case clearedEntryExpiry =>
    simp only [exec, execClearedEntryExpiry] at h
    exact internal_keeps hs hpublish (fun _ => hs.congr rfl rfl) h
  case refreshTimerExpiry k => exact internal_keeps hs hpublish (fun _ => hslot k _) h
  case staleTimerExpiry k => exact internal_keeps hs hpublish (fun _ => hslot k _) h
  case clearingTimerExpiry k => exact internal_keeps hs hpublish (fun _ => hslot k _) h
  case acknowledgeCard =>
    exact internal_keeps hs hpublish (fun _ => dispatch_keeps hs fun t =>
      hcard t fun k r => ZonesWf.reply (hevent s hs _) t _) h
  case clearCard =>
    refine internal_keeps hs hpublish (fun _ => dispatch_keeps hs fun t => hcard t fun k r => ?_) h
    simp only [State.clearIncident]
    split
    · exact hs.reply t _
    · exact ZonesWf.reply (hevent s hs _) t _
  case declareCard =>
    simp only [exec, execDeclareCard] at h
    refine internal_keeps hs hpublish (fun hg => ?_) h
    unfold State.dispatch
    split
    · exact hs
    next t ht =>
      simp only
      split
      · exact hs.reply t _
      next zone htarget =>
        refine hs.declareOn zone t fun z hz => ?_
        have hfree := (Bool.and_eq_true _ _ ▸ hg).2
        simpa [State.declareFree, ht, declareTarget_zone htarget hz] using hfree
  all_goals cases hb

end

theorem ZonesWf.reset : ZonesWf .reset := by
  refine zonesWf_iff.mpr fun z => ?_
  have hz : State.reset.zones[z] = Zone.reset := by simp [State.reset]
  have hrequest : State.reset.mail.requests[z] = none := by simp [State.reset, Mail.empty]
  rw [hz, hrequest]
  exact zoneReset_wf

theorem ZonesWf.enterRunning (s : State) : ZonesWf s.enterRunning := by
  refine zonesWf_iff.mpr fun z => ?_
  have hz : s.enterRunning.zones[z] = Zone.reset := by simp [State.enterRunning]
  have hrequest : s.enterRunning.mail.requests[z] = none := by simp [State.enterRunning, Mail.empty]
  rw [hz, hrequest]
  exact zoneReset_wf

/-- The blocks whose events may touch the zones. -/
def Block.isZone (b : Block) : Bool :=
  match b with
  | .zone | .request | .incident => true
  | _ => false

theorem everyStepKeepsTheZones : KeptByEveryStep ZonesWf := by
  refine keptByEveryStep_of_events Block.isZone (fun h hs => hs.congr h.zones h.requests) .reset
    (fun s _ => .enterRunning s) (fun {b _ _} hb hframe hs => ?_) (fun {c b s t} hb hc h hs => ?_)
  · have hleaves := hframe.leaves
    cases b
    case zone | request | incident => cases hb
    all_goals
      unfold Block.Leaves at hleaves
      exact hs.congr (by rw [hleaves]) (hframe.requests rfl)
  · cases b
    case zone => exact hs.event hc h
    case request => exact hs.request hc h
    case incident => exact hs.incident hc h
    all_goals cases hb

/-- Settles O55: the pulse inputs, the channel table and the zone table are each kept by every step. -/
theorem everyStepKeepsChannelsAndZonesInOrder : Obligations.EveryStepKeepsChannelsAndZonesInOrder :=
  ⟨everyStepKeepsTheChannels, everyStepKeepsTheZones⟩

end Sys2Proof.Machine

/-! What the operations of the fan controller do to one fan and to its place in the start queue (R92 to R102). -/

namespace Sys2Proof.Machine

/-! ## Classes of the start queue -/

theorem priority_iff (o : Owner) : o.priority = true ↔ o = .incident ∨ o = .gallery := by
  cases o <;> simp [Owner.priority]

theorem sameClass_iff (e k : Fan) : SameClass e k ↔ e.owner.priority = k.owner.priority := by
  unfold SameClass
  rw [← priority_iff, ← priority_iff]
  exact Bool.eq_iff_iff.symm

theorem classesInOrder_iff (u : FanUnit) : ClassesInOrder u ↔
    u.queue.Pairwise fun f g => u.fans[g].owner.priority = true → u.fans[f].owner.priority = true := by
  simp only [ClassesInOrder, priority_iff]

/-- A list whose entries of one class stand before the others is made of the two classes. -/
theorem filter_append_filter_not {α : Type} {p : α → Bool} {l : List α} (h : l.Pairwise fun a b => p b = true → p a = true) :
    l.filter p ++ l.filter (fun a => !p a) = l := by
  induction l with
  | nil => rfl
  | cons a l ih =>
    obtain ⟨ha, hl⟩ := List.pairwise_cons.mp h
    cases hp : p a with
    | true => simp [hp, ih hl]
    | false =>
      have hnone : ∀ b ∈ l, p b = false := fun b hb => by simpa [hp] using ha b hb
      have hempty : l.filter p = [] := List.filter_eq_nil_iff.mpr fun b hb => by simp [hnone b hb]
      have hall : l.filter (fun a => !p a) = l := List.filter_eq_self.mpr fun b hb => by simp [hnone b hb]
      simp [hp, hempty, hall]

/-- Units with the same queue and the same class of every queued fan. -/
theorem ClassesInOrder.congr {u v : FanUnit} (h : ClassesInOrder u) (hqueue : v.queue = u.queue)
    (hclass : ∀ k ∈ u.queue, v.fans[k].owner.priority = u.fans[k].owner.priority) : ClassesInOrder v := by
  rw [classesInOrder_iff] at h ⊢
  rw [hqueue]
  refine h.imp_of_mem fun {a b} ha hb hab => ?_
  rw [hclass a ha, hclass b hb]
  exact hab

/-! ## Joining and leaving the queue -/

section
variable (u : FanUnit) (f : Fin 8)

@[simp] theorem joinQueue_fans : (u.joinQueue f).fans = u.fans := by
  unfold FanUnit.joinQueue
  split
  · rfl
  · split <;> rfl

theorem joinQueue_of_mem {u : FanUnit} {f : Fin 8} (h : f ∈ u.queue) : u.joinQueue f = u := by
  unfold FanUnit.joinQueue
  rw [if_pos (List.contains_iff_mem.mpr h)]

/-- A fan joins at the end of its class (R102). -/
theorem joinQueue_queue {u : FanUnit} {f : Fin 8} (h : f ∉ u.queue) : (u.joinQueue f).queue =
    if u.fans[f].owner.priority then
      u.queue.filter (fun g => u.fans[g].owner.priority) ++ f :: u.queue.filter (fun g => !u.fans[g].owner.priority)
    else u.queue ++ [f] := by
  unfold FanUnit.joinQueue
  rw [if_neg (mt List.contains_iff_mem.mp h)]
  split <;> rfl

theorem mem_joinQueue {k : Fin 8} : k ∈ (u.joinQueue f).queue ↔ k = f ∨ k ∈ u.queue := by
  by_cases h : f ∈ u.queue
  · rw [joinQueue_of_mem h]
    exact ⟨.inr, fun hk => hk.elim (fun e => e ▸ h) id⟩
  · rw [joinQueue_queue h]
    split
    · simp only [List.mem_append, List.mem_cons, List.mem_filter]
      cases hp : u.fans[k].owner.priority <;> simp only [Bool.not_false, Bool.not_true] <;> tauto
    · simp [or_comm]

theorem mem_leaveQueue {k : Fin 8} : k ∈ (u.leaveQueue f).queue ↔ k ≠ f ∧ k ∈ u.queue := by
  simp [and_comm]

theorem nodup_joinQueue {u : FanUnit} (h : u.queue.Nodup) : (u.joinQueue f).queue.Nodup := by
  by_cases hf : f ∈ u.queue
  · rwa [joinQueue_of_mem hf]
  · rw [joinQueue_queue hf]
    split
    · refine List.nodup_append.mpr ⟨h.filter _, List.nodup_cons.mpr ⟨fun hm => hf (List.mem_of_mem_filter hm), h.filter _⟩, ?_⟩
      rintro a ha b hb rfl
      rcases List.mem_cons.mp hb with rfl | hb
      · exact hf (List.mem_of_mem_filter ha)
      · simp_all
    · refine List.nodup_append.mpr ⟨h, List.nodup_singleton f, ?_⟩
      rintro a ha b hb rfl
      rw [List.mem_singleton] at hb
      exact hf (hb ▸ ha)

theorem classesInOrder_joinQueue {u : FanUnit} (h : ClassesInOrder u) : ClassesInOrder (u.joinQueue f) := by
  by_cases hf : f ∈ u.queue
  · rwa [joinQueue_of_mem hf]
  · rw [classesInOrder_iff] at h ⊢
    rw [joinQueue_queue hf, joinQueue_fans]
    split
    next hp =>
      refine List.pairwise_append.mpr ⟨h.filter _, List.pairwise_cons.mpr ⟨fun _ _ _ => hp, h.filter _⟩, fun a ha _ _ _ => ?_⟩
      exact (List.mem_filter.mp ha).2
    next hp =>
      refine List.pairwise_append.mpr ⟨h, List.pairwise_singleton _ f, fun a _ b hb hpb => ?_⟩
      rw [List.mem_singleton] at hb
      exact absurd (hb ▸ hpb) hp

/-- The other fans keep their order. -/
theorem joinQueue_others {u : FanUnit} (h : ClassesInOrder u) :
    (u.joinQueue f).queue.filter (fun g => decide (g ≠ f)) = u.queue.filter fun g => decide (g ≠ f) := by
  by_cases hf : f ∈ u.queue
  · rw [joinQueue_of_mem hf]
  · rw [joinQueue_queue hf]
    split
    · rw [classesInOrder_iff] at h
      rw [List.filter_append, List.filter_cons_of_neg (by simp), ← List.filter_append, filter_append_filter_not h]
    · simp

/-- A fan at the end of its class. -/
def FanUnit.Back (u : FanUnit) (f : Fin 8) : Prop :=
  ∀ j ∈ u.queue, j ≠ f → SameClass u.fans[j] u.fans[f] → [j, f].Sublist u.queue

theorem joinQueue_back {u : FanUnit} {f : Fin 8} (h : f ∉ u.queue) : (u.joinQueue f).Back f := by
  intro j hj hne hclass
  have hmem : j ∈ u.queue := ((mem_joinQueue u f).mp hj).resolve_left hne
  rw [joinQueue_fans, sameClass_iff] at hclass
  rw [joinQueue_queue h]
  split
  next hp =>
    have hjp : j ∈ u.queue.filter fun g => u.fans[g].owner.priority := List.mem_filter.mpr ⟨hmem, hclass.trans hp⟩
    exact (List.singleton_sublist.mpr hjp).append (List.singleton_sublist.mpr List.mem_cons_self)
  · exact (List.singleton_sublist.mpr hmem).append (List.Sublist.refl [f])

end

/-! ## Operations at one fan -/

/-- What an operation at one fan does to the other fans and to the queue. -/
structure OneFan (f : Fin 8) (u v : FanUnit) : Prop where
  touches : Touches f u v
  zoneDemand : v.zoneDemand = u.zoneDemand
  galleryDemand : v.galleryDemand = u.galleryDemand
  starting : v.fans[f].state = .starting → u.fans[f].state = .starting
  member : ∀ k : Fin 8, k ≠ f → (k ∈ v.queue ↔ k ∈ u.queue)
  nodup : u.queue.Nodup → v.queue.Nodup
  classes : ClassesInOrder u → ClassesInOrder v
  others : ClassesInOrder u →
    v.queue.filter (fun g => decide (g ≠ f)) = u.queue.filter fun g => decide (g ≠ f)

theorem OneFan.refl (f : Fin 8) (u : FanUnit) : OneFan f u u :=
  ⟨.refl f u, rfl, rfl, id, fun _ _ => .rfl, id, id, fun _ => rfl⟩

theorem OneFan.trans {f : Fin 8} {u v w : FanUnit} (h : OneFan f u v) (k : OneFan f v w) : OneFan f u w where
  touches := h.touches.trans k.touches
  zoneDemand := k.zoneDemand.trans h.zoneDemand
  galleryDemand := k.galleryDemand.trans h.galleryDemand
  starting := h.starting ∘ k.starting
  member j hj := (k.member j hj).trans (h.member j hj)
  nodup := k.nodup ∘ h.nodup
  classes := k.classes ∘ h.classes
  others hu := (k.others (h.classes hu)).trans (h.others hu)

section
variable (x : Ctx) (f : Fin 8) (u : FanUnit)

/-- A change of one fan that keeps its class. -/
theorem change_oneFan {f : Fin 8} {u : FanUnit} {g : Fan → Fan} (hattached : (g u.fans[f]).attached = u.fans[f].attached)
    (howner : f ∈ u.queue → (g u.fans[f]).owner.priority = u.fans[f].owner.priority)
    (hstate : (g u.fans[f]).state = .starting → u.fans[f].state = .starting) : OneFan f u (u.change f g) where
  touches := change_touches u f g hattached
  zoneDemand := rfl
  galleryDemand := rfl
  starting := by rw [change_same]; exact hstate
  member _ _ := .rfl
  nodup := id
  classes h := h.congr rfl fun k hk => by
    by_cases hkf : k = f
    · subst hkf; rw [change_same]; exact howner hk
    · rw [change_other u g hkf]
  others _ := rfl

theorem leaveQueue_oneFan : OneFan f u (u.leaveQueue f) where
  touches := ⟨fun _ _ => rfl, rfl⟩
  zoneDemand := rfl
  galleryDemand := rfl
  starting := id
  member k hk := by rw [mem_leaveQueue]; exact and_iff_right hk
  nodup h := h.filter _
  classes h := List.Pairwise.filter _ h
  others _ := by rw [leaveQueue_queue, List.filter_filter]; simp

theorem joinQueue_oneFan : OneFan f u (u.joinQueue f) where
  touches := ⟨fun _ _ => by rw [joinQueue_fans], by rw [joinQueue_fans]⟩
  zoneDemand := by unfold FanUnit.joinQueue; split; exacts [rfl, by split <;> rfl]
  galleryDemand := by unfold FanUnit.joinQueue; split; exacts [rfl, by split <;> rfl]
  starting := by rw [joinQueue_fans]; exact id
  member k hk := by rw [mem_joinQueue]; exact or_iff_right hk
  nodup := nodup_joinQueue f
  classes := classesInOrder_joinQueue f
  others := joinQueue_others f

@[simp] theorem enter_fan (st : FanState) : (u.enter x f st).fans[f] = Fan.enter x x.cfg.fans[f] st u.fans[f] := by
  show (u.change f _).fans[f] = _
  rw [change_same]

theorem not_mem_enter (st : FanState) : f ∉ (u.enter x f st).queue := by simp

theorem enter_oneFan {st : FanState} (hst : st ≠ .starting) : OneFan f u (u.enter x f st) :=
  (change_oneFan (g := Fan.enter x x.cfg.fans[f] st) rfl (fun _ => rfl) fun h => absurd h hst).trans (leaveQueue_oneFan f _)

@[simp] theorem enterFaulted_fan (c : FanFault) :
    (u.enterFaulted x f c).fans[f] = { Fan.enter x x.cfg.fans[f] .faulted u.fans[f] with cause := c } := by
  unfold FanUnit.enterFaulted
  rw [change_same, enter_fan]

theorem not_mem_enterFaulted (c : FanFault) : f ∉ (u.enterFaulted x f c).queue := not_mem_enter x f u .faulted

theorem enterFaulted_oneFan (c : FanFault) : OneFan f u (u.enterFaulted x f c) :=
  (enter_oneFan x f u (st := .faulted) nofun).trans (change_oneFan (g := ({ · with cause := c })) rfl (fun _ => rfl) id)

theorem enterChecked_oneFan {st : FanState} (hst : st ≠ .starting) : OneFan f u (u.enterChecked x f st) := by
  unfold FanUnit.enterChecked
  split
  · exact (enter_oneFan x f u hst).trans (enterFaulted_oneFan x f _ _)
  · exact enter_oneFan x f u hst

theorem not_mem_enterChecked (st : FanState) : f ∉ (u.enterChecked x f st).queue := by
  unfold FanUnit.enterChecked
  split
  · exact not_mem_enterFaulted x f _ _
  · exact not_mem_enter x f u st

@[simp] theorem enterQueued_fan : (u.enterQueued x f).fans[f] = Fan.enter x x.cfg.fans[f] .queued u.fans[f] := by
  unfold FanUnit.enterQueued
  rw [joinQueue_fans, change_same]

theorem mem_enterQueued : f ∈ (u.enterQueued x f).queue := (mem_joinQueue _ f).mpr (.inl rfl)

theorem enterQueued_oneFan : OneFan f u (u.enterQueued x f) :=
  (change_oneFan (g := Fan.enter x x.cfg.fans[f] .queued) rfl (fun _ => rfl) nofun).trans (joinQueue_oneFan f _)

theorem leaveStopped_oneFan : OneFan f u (u.leaveStopped x f) := by
  unfold FanUnit.leaveStopped
  split
  · exact .refl f u
  split
  · exact enterFaulted_oneFan x f u _
  · exact (change_oneFan rfl (fun _ => rfl) id).trans (enterQueued_oneFan x f _)

theorem checkRundown_oneFan : OneFan f u (u.checkRundown x f) := by
  unfold FanUnit.checkRundown
  split
  · split
    · exact enterQueued_oneFan x f u
    · exact (enter_oneFan x f u (st := .stopped) nofun).trans (leaveStopped_oneFan x f _)
  · exact .refl f u

theorem enterStopping_oneFan : OneFan f u (u.enterStopping x f) := by
  unfold FanUnit.enterStopping
  split
  · exact enterChecked_oneFan x f u nofun
  · exact (enter_oneFan x f u (st := .stopping) nofun).trans (checkRundown_oneFan x f _)

theorem restartClock_oneFan : OneFan f u (u.restartClock x f) := change_oneFan rfl (fun _ => rfl) id

theorem pursue_oneFan : OneFan f u (u.pursue x f) := by
  unfold FanUnit.pursue
  simp only
  split
  · exact leaveStopped_oneFan x f u
  · split
    · exact .refl f u
    · exact (enter_oneFan x f u (st := .stopped) nofun).trans (leaveStopped_oneFan x f _)
  · split
    · exact .refl f u
    · exact enterStopping_oneFan x f u
  · split
    · exact change_oneFan rfl (fun _ => rfl) id
    · exact enterStopping_oneFan x f u
  · split
    · split
      · exact joinQueue_oneFan f u
      · exact .refl f u
    · exact leaveQueue_oneFan f u
  · exact .refl f u

/-! ## The claim -/

/-- A claim changes the owner and the target of its fan. -/
@[simp] theorem claim_fan :
    (u.claim x f).fans[f] = { u.fans[f] with owner := u.ownerOf x.cfg f, target := u.targetOf x.cfg f } := by
  unfold FanUnit.claim
  simp only
  split
  · simp only [joinQueue_fans, leaveQueue_fans, change_same]
  · simp only [change_same]

theorem mem_claim : f ∈ (u.claim x f).queue ↔ f ∈ u.queue := by
  unfold FanUnit.claim
  simp only
  split
  next h => exact iff_of_true ((mem_joinQueue _ f).mpr (.inl rfl)) (List.contains_iff_mem.mp h.1)
  · exact .rfl

/-- A claim that keeps the class of its fan leaves the queue alone; another one requeues it. -/
theorem claim_cases : ((u.claim x f).queue = u.queue ∧
      (f ∈ u.queue → (u.claim x f).fans[f].owner.priority = u.fans[f].owner.priority)) ∨
    (f ∈ u.queue ∧ (u.claim x f).fans[f].owner.priority ≠ u.fans[f].owner.priority ∧ (u.claim x f).Back f) := by
  rw [claim_fan]
  unfold FanUnit.claim
  simp only
  split
  next h =>
    refine .inr ⟨List.contains_iff_mem.mp h.1, h.2, joinQueue_back ?_⟩
    simp
  next h =>
    refine .inl ⟨rfl, fun hf => ?_⟩
    by_contra hne
    exact h ⟨List.contains_iff_mem.mpr hf, hne⟩

theorem claim_oneFan : OneFan f u (u.claim x f) := by
  have hleft (g : Fan → Fan) (hg : ∀ e, (g e).attached = e.attached ∧ (g e).state = e.state) :
      OneFan f u ((u.change f g).leaveQueue f) := by
    have hsame : (u.change f g).leaveQueue f = (u.leaveQueue f).change f g := rfl
    rw [hsame]
    refine (leaveQueue_oneFan f u).trans (change_oneFan (hg _).1 (fun h => ?_) fun h => ?_)
    · exact absurd h (by simp)
    · rwa [(hg _).2] at h
  unfold FanUnit.claim
  simp only
  split
  · exact (hleft (fun e => { e with owner := u.ownerOf x.cfg f, target := u.targetOf x.cfg f })
      fun _ => ⟨rfl, rfl⟩).trans (joinQueue_oneFan f _)
  next h =>
    refine change_oneFan rfl (fun hf => ?_) id
    by_contra hne
    exact h ⟨List.contains_iff_mem.mpr hf, hne⟩

theorem recompute_oneFan : OneFan f u (u.recompute x f) := by
  unfold FanUnit.recompute
  simp only
  split
  · exact claim_oneFan x f u
  · exact (claim_oneFan x f u).trans (pursue_oneFan x f _)

end

/-! ## The place of the fan -/

theorem sameDirection_iff (e : Fan) : e.sameDirection = true ↔ e.drivesTarget := by
  unfold Fan.sameDirection Fan.drivesTarget
  cases h : e.target with
  | stop => simp
  | run dir speed =>
    have hdir : (decide (dir = .rev) == e.reverse) = true ↔ (dir = .rev ↔ e.reverse = true) := by
      cases dir <;> cases e.reverse <;> simp
    rw [hdir]
    simp

/-- Where an operation at a fan leaves it in the queue: the queue is as it was, the fan is out of it, or the fan stands at the end
of its class and has not kept its place. -/
inductive Placed (f : Fin 8) (u v : FanUnit) : Prop
  | kept (hqueue : v.queue = u.queue) (hclass : f ∈ u.queue → SameClass u.fans[f] v.fans[f])
      (hreverse : f ∈ u.queue → u.fans[f].state = .queued → v.fans[f].reverse = u.fans[f].reverse)
  | gone (h : f ∉ v.queue)
  | back (h : v.Back f) (hmoved : ¬KeepsPlace u v (· = f) f)

section
variable {f : Fin 8} {u v w : FanUnit}

theorem SameClass.refl (e : Fan) : SameClass e e := Iff.rfl

theorem SameClass.trans {a b c : Fan} (h : SameClass a b) (k : SameClass b c) : SameClass a c := Iff.trans h k

theorem SameClass.symm {a b : Fan} (h : SameClass a b) : SameClass b a := Iff.symm h

theorem SameClass.of_owner {a b : Fan} (h : b.owner = a.owner) : SameClass a b := by
  unfold SameClass
  rw [h]

theorem FanUnit.Back.congr (h : v.Back f) (hqueue : w.queue = v.queue) (hclass : ∀ k : Fin 8, SameClass v.fans[k] w.fans[k]) :
    w.Back f := by
  intro j hj hne hsame
  rw [hqueue] at hj ⊢
  exact h j hj hne ((hclass j).trans (hsame.trans (hclass f).symm))

theorem Placed.refl (f : Fin 8) (u : FanUnit) : Placed f u u := .kept rfl (fun _ => .refl _) fun _ _ => rfl

/-- An operation that leaves the queue, the owners and, where it counts, the drive direction. -/
theorem Placed.keep (h : Placed f u v) (hqueue : w.queue = v.queue) (hother : ∀ k : Fin 8, k ≠ f → w.fans[k] = v.fans[k])
    (howner : w.fans[f].owner = v.fans[f].owner)
    (hreverse : u.fans[f].state = .queued ∨ u.fans[f].state = .stopping → w.fans[f].reverse = v.fans[f].reverse) :
    Placed f u w := by
  have hclass : ∀ k : Fin 8, SameClass v.fans[k] w.fans[k] := fun k => by
    by_cases hk : k = f
    · subst hk; exact .of_owner howner
    · rw [hother k hk]; exact .refl _
  cases h with
  | kept hq hc hr =>
    exact .kept (hqueue.trans hq) (fun hf => (hc hf).trans (hclass f)) fun hf hs => (hreverse (.inl hs)).trans (hr hf hs)
  | gone h => exact .gone (by rwa [hqueue])
  | back hb hm =>
    refine .back (hb.congr hqueue hclass) fun ⟨hmem, hsame, hacted⟩ => hm ⟨hmem, hsame.trans (hclass f).symm, fun ha => ?_⟩
    obtain ⟨hstate, hout, hrev⟩ := hacted ha
    exact ⟨hstate, hout, (hreverse hstate).symm.trans hrev⟩

/-- A fan that joins a queue it is not in. -/
theorem Placed.join (hf : f ∉ v.queue) (hmoved : ¬KeepsPlace u (v.joinQueue f) (· = f) f) : Placed f u (v.joinQueue f) :=
  .back (joinQueue_back hf) hmoved

/-- A fan whose state and service allow no claim to its old place. -/
theorem not_keepsPlace_of_state (h : u.fans[f].state ≠ .queued ∧ u.fans[f].state ≠ .stopping) :
    ¬KeepsPlace u v (· = f) f := fun ⟨_, _, hacted⟩ => (hacted rfl).1.elim h.1 h.2

theorem not_keepsPlace_of_not_mem (h : f ∉ u.queue) : ¬KeepsPlace u v (· = f) f := fun hk => h hk.1

theorem claim_placed (x : Ctx) (f : Fin 8) (u : FanUnit) : Placed f u (u.claim x f) := by
  obtain ⟨hqueue, hclass⟩ | ⟨-, hclass, hback⟩ := claim_cases x f u
  · refine .kept hqueue (fun hf => (sameClass_iff _ _).mpr (hclass hf).symm) fun _ _ => ?_
    rw [claim_fan]
  · exact .back hback fun ⟨_, hsame, _⟩ => hclass ((sameClass_iff _ _).mp hsame).symm

/-- A fan that is out of the queue stays out, or joins at the end of its class. -/
theorem leaveStopped_gone_or_back (x : Ctx) (hf : f ∉ v.queue) :
    f ∉ (v.leaveStopped x f).queue ∨ (v.leaveStopped x f).Back f := by
  unfold FanUnit.leaveStopped
  split
  · exact .inl hf
  split
  · exact .inl (not_mem_enterFaulted x f v _)
  · exact .inr (joinQueue_back hf)

theorem enterStopping_gone_or_back (x : Ctx) (f : Fin 8) (v : FanUnit) :
    f ∉ (v.enterStopping x f).queue ∨ (v.enterStopping x f).Back f := by
  unfold FanUnit.enterStopping FanUnit.checkRundown
  split
  · exact .inl (not_mem_enterChecked x f v _)
  split
  · rw [if_neg (by simp)]
    exact leaveStopped_gone_or_back x (not_mem_enter x f _ _)
  · exact .inl (not_mem_enter x f v _)

theorem Placed.of_gone_or_back (h : f ∉ v.queue ∨ v.Back f) (hmoved : ¬KeepsPlace u v (· = f) f) : Placed f u v :=
  h.elim .gone fun hb => .back hb hmoved

/-- A fan that was out of the queue or at its end stays so where the queue is kept. -/
theorem Placed.gone_or_back (h : Placed f v w) (hother : ∀ k : Fin 8, k ≠ f → w.fans[k] = v.fans[k])
    (hv : f ∉ v.queue ∨ v.Back f) : f ∉ w.queue ∨ w.Back f := by
  cases h with
  | kept hq hc _ =>
    by_cases hf : f ∈ v.queue
    · refine .inr ((hv.resolve_left (not_not_intro hf)).congr hq fun k => ?_)
      by_cases hk : k = f
      · subst hk; exact hc hf
      · rw [hother k hk]; exact .refl _
    · exact .inl (by rwa [hq])
  | gone h => exact .inl h
  | back hb _ => exact .inr hb

/-- The drive direction that `leaveStopped` takes up differs from the old one if that did not drive the target. -/
theorem leaveStopped_reverse_ne (x : Ctx) (hdirection : ¬v.fans[f].sameDirection = true) (hmem : f ∈ (v.leaveStopped x f).queue)
    (hf : f ∉ v.queue) : (v.leaveStopped x f).fans[f].reverse ≠ v.fans[f].reverse := by
  unfold FanUnit.leaveStopped at hmem ⊢
  split at hmem
  · exact absurd hmem hf
  next dir speed htarget =>
    split at hmem
    · exact absurd hmem (not_mem_enterFaulted x f v _)
    next hfault =>
      rw [if_neg hfault, enterQueued_fan, change_same]
      intro hsame
      have hreverse : decide (dir = .rev) = v.fans[f].reverse := hsame
      refine hdirection ((sameDirection_iff _).mpr ⟨dir, speed, htarget, ?_⟩)
      rw [← hreverse, decide_eq_true_eq]

/-- What an owner and its target do to the place of the fan. -/
theorem recompute_placed (x : Ctx) (f : Fin 8) (u : FanUnit) : Placed f u (u.recompute x f) := by
  have hclaim := claim_placed x f u
  have hfan := claim_fan x f u
  have hmem := mem_claim x f u
  unfold FanUnit.recompute
  simp only
  split
  · exact hclaim
  generalize u.claim x f = v at hclaim hfan hmem
  have hstate : v.fans[f].state = u.fans[f].state := by rw [hfan]
  have hreverse : v.fans[f].reverse = u.fans[f].reverse := by rw [hfan]
  unfold FanUnit.pursue
  simp only
  rw [hstate]
  have hstopping (hs : u.fans[f].state ≠ .queued ∧ u.fans[f].state ≠ .stopping) : Placed f u (v.enterStopping x f) :=
    .of_gone_or_back (enterStopping_gone_or_back x f v) (not_keepsPlace_of_state hs)
  split
  next hs =>
    have hmoved {w : FanUnit} : ¬KeepsPlace u w (· = f) f := not_keepsPlace_of_state (by rw [hs]; exact ⟨nofun, nofun⟩)
    by_cases hf : f ∈ v.queue
    · unfold FanUnit.leaveStopped
      split
      · exact hclaim
      split
      · exact .gone (not_mem_enterFaulted x f v _)
      next dir _ _ _ =>
        unfold FanUnit.enterQueued
        rw [joinQueue_of_mem (by exact hf)]
        refine hclaim.keep rfl (fun k hk => ?_) ?_ (by rw [hs]; exact nofun)
        · rw [change_other _ _ hk, change_other _ _ hk]
        · rw [change_same, change_same]; rfl
    · exact .of_gone_or_back (leaveStopped_gone_or_back x hf) hmoved
  next hs =>
    split
    · exact hclaim
    next hdirection =>
      have hout := not_mem_enter x f v .stopped
      by_cases hmem : f ∈ ((v.enter x f .stopped).leaveStopped x f).queue
      · refine .back ((leaveStopped_gone_or_back x hout).resolve_left (not_not_intro hmem)) fun ⟨_, _, hacted⟩ => ?_
        have hd : ¬(v.enter x f .stopped).fans[f].sameDirection = true := by
          rw [enter_fan]; exact hdirection
        refine leaveStopped_reverse_ne x hd hmem hout ?_
        rw [enter_fan]
        exact (hacted rfl).2.2.trans hreverse.symm
      · exact .gone hmem
  next hs =>
    split
    · exact hclaim
    · exact hstopping (by rw [hs]; exact ⟨nofun, nofun⟩)
  next hs =>
    split
    · refine hclaim.keep rfl (fun k hk => change_other _ _ hk) ?_ fun _ => ?_ <;> rw [change_same]
    · exact hstopping (by rw [hs]; exact ⟨nofun, nofun⟩)
  next hs =>
    split
    · split
      · by_cases hf : f ∈ v.queue
        · rw [joinQueue_of_mem hf]; exact hclaim
        · exact .join hf (not_keepsPlace_of_not_mem (mt hmem.mpr hf))
      · exact hclaim
    · exact .gone (by simp)
  · exact hclaim

/-! ## The order of the queue -/

/-- Two fans other than `f` keep their order under an operation at `f`. -/
theorem OneFan.sublist {j k : Fin 8} (h : OneFan f u v) (hu : ClassesInOrder u) (hj : j ≠ f) (hk : k ≠ f)
    (hs : [j, k].Sublist u.queue) : [j, k].Sublist v.queue := by
  have hfilter := hs.filter fun g => decide (g ≠ f)
  rw [← h.others hu] at hfilter
  simp only [hj, hk, ne_eq, not_false_iff, decide_true, List.filter_cons_of_pos, List.filter_nil] at hfilter
  exact hfilter.trans List.filter_sublist

/-- An operation at one fan leaves the queue in its order. -/
theorem OneFan.queueInOrder (h : OneFan f u v) (hp : Placed f u v) (hu : ClassesInOrder u) : QueueInOrder u v (· = f) := by
  intro j k hjk hj hjv
  have hpair (hkv : k = f → k ∈ v.queue) (hkeeps : KeepsPlace u v (· = f) j ∧ KeepsPlace u v (· = f) k)
      (hs : [j, k].Sublist u.queue) : [j, k].Sublist v.queue := by
    by_cases hf : j = f ∨ k = f
    · have hfv : f ∈ v.queue := hf.elim (fun e => e ▸ hjv) fun e => e ▸ hkv e
      have hfk : KeepsPlace u v (· = f) f := hf.elim (fun e => e ▸ hkeeps.1) fun e => e ▸ hkeeps.2
      cases hp with
      | kept hq _ _ => rwa [hq]
      | gone hg => exact absurd hfv hg
      | back _ hm => exact absurd hfk hm
    · push Not at hf
      exact h.sublist hu hf.1 hf.2 hs
  refine ⟨fun hk hkv hs => hpair hkv ⟨hj, hk⟩ hs, ?_⟩
  rintro rfl hkv hclass hjoins
  cases hp with
  | kept hq hc hr =>
    have hku : k ∈ u.queue := hq ▸ hkv
    obtain hnot | hnot | ⟨hs, hrev⟩ := hjoins
    · exact absurd hku hnot
    · exact absurd (hc hku) hnot
    · exact absurd (hr hku hs) hrev
  | gone hg => exact absurd hkv hg
  | back hb _ => exact hb j hjv hjk hclass

/-- An operation at one more fan, that no earlier one touches. -/
theorem QueueInOrder.trans {acted : Fin 8 → Prop} (h : QueueInOrder u v (· = f)) (k : QueueInOrder v w acted)
    (hf : ¬acted f) (hone : OneFan f u v)
    (hrest : ∀ j : Fin 8, ¬acted j → w.fans[j] = v.fans[j] ∧ (j ∈ w.queue ↔ j ∈ v.queue)) :
    QueueInOrder u w fun j => j = f ∨ acted j := by
  have hkeeps {j : Fin 8} (hj : KeepsPlace u w (fun j => j = f ∨ acted j) j) (hjw : j ∈ w.queue) :
      KeepsPlace u v (· = f) j ∧ j ∈ v.queue ∧ KeepsPlace v w acted j := by
    obtain ⟨hmem, hclass, hacted⟩ := hj
    by_cases hjf : j = f
    · subst hjf
      obtain ⟨hfan, hqueue⟩ := hrest j hf
      rw [hfan] at hclass hacted
      have hjv := hqueue.mp hjw
      exact ⟨⟨hmem, hclass, fun _ => hacted (.inl rfl)⟩, hjv, hjv, by rw [hfan]; exact .refl _, fun ha => absurd ha hf⟩
    · have hfan := hone.touches.other j hjf
      have hjv := (hone.member j hjf).mpr hmem
      refine ⟨⟨hmem, by rw [hfan]; exact .refl _, fun ha => absurd ha hjf⟩, hjv, hjv, ?_, fun ha => ?_⟩
      · rw [hfan]; exact hclass
      · rw [hfan]; exact hacted (.inr ha)
  have hmem {j : Fin 8} (hj : KeepsPlace u w (fun j => j = f ∨ acted j) j) (hjw : j = f ∨ acted j → j ∈ w.queue) :
      j ∈ w.queue := by
    by_cases ha : j = f ∨ acted j
    · exact hjw ha
    · push Not at ha
      exact (hrest j ha.2).2.mpr ((hone.member j ha.1).mpr hj.1)
  intro j k' hjk hj hjw
  obtain ⟨hju, hjv, hjvw⟩ := hkeeps hj hjw
  refine ⟨fun hk hkw hs => ?_, fun hacted hkw hclass hjoins => ?_⟩
  · have hkw' := hmem hk hkw
    obtain ⟨hku, hkv, hkvw⟩ := hkeeps hk hkw'
    exact (k j k' hjk hjvw hjw).1 hkvw (fun _ => hkw') ((h j k' hjk hju hjv).1 hku (fun _ => hkv) hs)
  · by_cases hkf : k' = f
    · subst hkf
      obtain ⟨hfan, hqueue⟩ := hrest k' hf
      have hkv := hqueue.mp hkw
      unfold JoinsBack at hjoins
      rw [hfan] at hjoins hclass
      have hs := (h j k' hjk hju hjv).2 rfl hkv (hjvw.2.1.trans hclass) hjoins
      have hkeep : KeepsPlace v w acted k' := ⟨hkv, by rw [hfan]; exact .refl _, fun ha => absurd ha hf⟩
      exact (k j k' hjk hjvw hjw).1 hkeep (fun ha => absurd ha hf) hs
    · have hfan := hone.touches.other k' hkf
      refine (k j k' hjk hjvw hjw).2 (hacted.resolve_left hkf) hkw hclass ?_
      unfold JoinsBack at hjoins ⊢
      rw [hfan, hone.member k' hkf]
      exact hjoins

end

end Sys2Proof.Machine

/-! The state of a fan agrees with its contacts, its target and its place in the queue (R92 to R103): what each operation of the
fan controller needs and keeps. -/

namespace Sys2Proof.Machine

/-! ## What a fan keeps while its drive moves -/

/-- A fan that has moved through the state machine: what the claims read is as it was. -/
def Fan.Moved (e n : Fan) : Prop :=
  n = { e with
    state := n.state, entered := n.entered, cause := n.cause, supervised := n.supervised, underspeed := n.underspeed
    rundownFrom := n.rundownFrom, startLimitDue := n.startLimitDue, settleDue := n.settleDue, reverse := n.reverse
    attached := n.attached }

theorem Fan.Moved.refl (e : Fan) : e.Moved e := rfl

theorem Fan.Moved.trans {e n m : Fan} (h : e.Moved n) (k : n.Moved m) : e.Moved m := by
  unfold Fan.Moved at h k ⊢
  exact k.trans (congrArg (fun t : Fan => { t with
    state := m.state, entered := m.entered, cause := m.cause, supervised := m.supervised, underspeed := m.underspeed
    rundownFrom := m.rundownFrom, startLimitDue := m.startLimitDue, settleDue := m.settleDue, reverse := m.reverse
    attached := m.attached }) h)

section
variable (x : Ctx) (f : Fin 8) (u : FanUnit)

theorem enter_moved (st : FanState) : u.fans[f].Moved (u.enter x f st).fans[f] := by rw [enter_fan]; rfl

theorem enterFaulted_moved (c : FanFault) : u.fans[f].Moved (u.enterFaulted x f c).fans[f] := by rw [enterFaulted_fan]; rfl

theorem enterQueued_moved : u.fans[f].Moved (u.enterQueued x f).fans[f] := by rw [enterQueued_fan]; rfl

theorem change_moved {g : Fan → Fan} (hg : u.fans[f].Moved (g u.fans[f])) : u.fans[f].Moved (u.change f g).fans[f] := by
  rwa [change_same]

theorem enterChecked_moved (st : FanState) : u.fans[f].Moved (u.enterChecked x f st).fans[f] := by
  unfold FanUnit.enterChecked
  split
  · exact (enter_moved x f u st).trans (enterFaulted_moved x f _ _)
  · exact enter_moved x f u st

theorem leaveStopped_moved : u.fans[f].Moved (u.leaveStopped x f).fans[f] := by
  unfold FanUnit.leaveStopped
  split
  · exact .refl _
  split
  · exact enterFaulted_moved x f u _
  next dir _ _ _ =>
    exact (change_moved f u (g := ({ · with reverse := decide (dir = .rev) })) rfl).trans (enterQueued_moved x f _)

theorem checkRundown_moved : u.fans[f].Moved (u.checkRundown x f).fans[f] := by
  unfold FanUnit.checkRundown
  split
  · split
    · exact enterQueued_moved x f u
    · exact (enter_moved x f u .stopped).trans (leaveStopped_moved x f _)
  · exact .refl _

theorem enterStopping_moved : u.fans[f].Moved (u.enterStopping x f).fans[f] := by
  unfold FanUnit.enterStopping
  split
  · exact enterChecked_moved x f u .stopping
  · exact (enter_moved x f u .stopping).trans (checkRundown_moved x f _)

theorem restartClock_moved : u.fans[f].Moved (u.restartClock x f).fans[f] :=
  change_moved f u (g := ({ · with rundownFrom := x.now })) rfl

theorem pursue_moved : u.fans[f].Moved (u.pursue x f).fans[f] := by
  unfold FanUnit.pursue
  simp only
  split
  · exact leaveStopped_moved x f u
  · split
    · exact .refl _
    · exact (enter_moved x f u .stopped).trans (leaveStopped_moved x f _)
  · split
    · exact .refl _
    · exact enterStopping_moved x f u
  · split
    · exact change_moved f u rfl
    · exact enterStopping_moved x f u
  · split
    · split
      · simp only [joinQueue_fans]; exact .refl _
      · exact .refl _
    · exact .refl _
  · exact .refl _

theorem recompute_moved : (u.claim x f).fans[f].Moved (u.recompute x f).fans[f] := by
  unfold FanUnit.recompute
  simp only
  split
  · exact .refl _
  · exact pursue_moved x f _

theorem start_moved : u.fans[f].Moved (u.start x f).fans[f] := by
  unfold FanUnit.start
  simp only
  split
  · exact (enterChecked_moved x f u _).trans (enter_moved x f _ _)
  · exact enterChecked_moved x f u _

end

/-! ## Owner and target -/

section
variable {cfg : ActiveConfig} {u v : FanUnit} {f : Fin 8}

/-- Ownership reads what a moving fan keeps. -/
theorem OwnedByHighest.congr (h : OwnedByHighest cfg u f) (hmoved : u.fans[f].Moved v.fans[f])
    (hdemand : v.galleryDemand = u.galleryDemand ∨ cfg.fans[f].role ≠ .gallery) : OwnedByHighest cfg v f := by
  have hgallery : (cfg.fans[f].role = .gallery ∧ v.galleryDemand ≠ .idle) ↔
      (cfg.fans[f].role = .gallery ∧ u.galleryDemand ≠ .idle) := by
    rcases hdemand with hd | hd
    · rw [hd]
    · exact iff_of_false (fun h => hd h.1) fun h => hd h.1
  unfold OwnedByHighest at h ⊢
  simp only [hgallery]
  rw [hmoved]
  exact h

theorem FollowsOwner.congr (h : FollowsOwner cfg u f) (hmoved : u.fans[f].Moved v.fans[f])
    (hdemand : v.galleryDemand = u.galleryDemand) : FollowsOwner cfg v f := by
  unfold FollowsOwner at h ⊢
  simp only [hdemand]
  rw [hmoved]
  exact h

theorem claim_galleryDemand (x : Ctx) (f : Fin 8) (u : FanUnit) : (u.claim x f).galleryDemand = u.galleryDemand :=
  (claim_oneFan x f u).galleryDemand

theorem claim_owned (x : Ctx) (f : Fin 8) (u : FanUnit) : OwnedByHighest x.cfg (u.claim x f) f := by
  unfold OwnedByHighest
  rw [claim_fan, claim_galleryDemand]
  refine ⟨fun hout => ?_, fun hout hlocal => ?_, fun hout hlocal hi => ?_, fun hout hlocal hg => ?_,
    fun hout hlocal hi hg => ?_⟩
  all_goals
    simp only at *
    unfold FanUnit.ownerOf
    simp only
  · rw [if_pos hout]
  · rw [if_neg (by rw [hout]; exact nofun), if_pos hlocal]
  · rw [if_neg (by rw [hout]; exact nofun), if_neg (by rw [hlocal]; exact nofun), if_pos hi]
  · rw [if_neg (by rw [hout]; exact nofun), if_neg (by rw [hlocal]; exact nofun), if_neg (fun hi => ?_), if_pos hg]
    exact nomatch hi.1.symm.trans hg.1
  · rw [if_neg (by rw [hout]; exact nofun), if_neg (by rw [hlocal]; exact nofun), if_neg hi, if_neg hg]

theorem claim_follows (x : Ctx) (f : Fin 8) (u : FanUnit) : FollowsOwner x.cfg (u.claim x f) f := by
  unfold FollowsOwner
  rw [claim_fan, claim_galleryDemand]
  simp only [FanUnit.targetOf]
  refine ⟨fun ho => ?_, fun ho => ⟨fun dir speed hi => ?_, fun hi => ?_, fun old hi he => ?_⟩,
    fun ho => ⟨fun hd => ?_, fun hd => ?_, fun hd => ?_⟩, fun ho => ⟨fun dir speed hr => ?_, fun hr hd => ?_, fun hr hd => ?_,
      fun hr hd => ?_⟩⟩
  · rcases ho with ho | ho <;> rw [ho]
  all_goals rw [ho]; simp only
  · unfold Fan.placedTarget; rw [hi]; rfl
  · unfold Fan.placedTarget; rw [hi]
  · unfold Fan.placedTarget; rw [hi, he]; rfl
  · rw [hd]; rfl
  · rw [hd]; rfl
  · rw [hd]; rfl
  · unfold Fan.hostTarget; rw [hr]; rfl
  · unfold Fan.hostTarget; rw [hr, hd]; rfl
  · unfold Fan.hostTarget; rw [hr, hd]; rfl
  · unfold Fan.hostTarget; rw [hr, hd]; rfl

theorem recompute_owned (x : Ctx) (f : Fin 8) (u : FanUnit) : OwnedByHighest x.cfg (u.recompute x f) f :=
  (claim_owned x f u).congr (recompute_moved x f u)
    (.inl ((recompute_oneFan x f u).galleryDemand.trans (claim_galleryDemand x f u).symm))

theorem recompute_follows (x : Ctx) (f : Fin 8) (u : FanUnit) : FollowsOwner x.cfg (u.recompute x f) f :=
  (claim_follows x f u).congr (recompute_moved x f u)
    ((recompute_oneFan x f u).galleryDemand.trans (claim_galleryDemand x f u).symm)

end

/-! ## State, contacts and queue agree -/

/-- The state of a fan agrees with its contacts, its cause and its place in the queue. -/
structure Fan.Settled (item : FanItem) (waits : Prop) (e : Fan) : Prop where
  queue : waits → e.state = .queued ∨ (e.state = .stopping ∧ item.flyingRestart = true)
  queued : e.state = .queued → waits
  service : e.state = .service ↔ e.out = true
  panel : e.state = .localPanel ↔ e.localSwitch = true ∧ e.out = false
  cause : e.state = .faulted ↔ e.cause ≠ .none

/-- The target of a fan agrees with its state and its place in the queue. -/
structure Fan.OnTarget (waits : Prop) (e : Fan) : Prop where
  drives : waits ∨ e.state = .starting ∨ e.state = .running → e.drivesTarget
  rests : e.state = .service ∨ e.state = .localPanel → e.target = .stop

/-- What `FansWf` says of one fan besides its owner. -/
structure FanUnit.Sound (item : FanItem) (u : FanUnit) (f : Fin 8) : Prop where
  settled : u.fans[f].Settled item (f ∈ u.queue)
  target : u.fans[f].OnTarget (f ∈ u.queue)

/-- No switch takes the fan out of the controller's hands. -/
def Fan.Controlled (e : Fan) : Prop := e.out = false ∧ e.localSwitch = false

section
variable {item : FanItem} {waits : Prop} {e : Fan}

theorem Fan.Settled.controlled (h : e.Settled item waits) (hs : e.state ≠ .service) (hl : e.state ≠ .localPanel) :
    e.Controlled := by
  have hout : e.out = false := by simpa using mt h.service.mpr hs
  refine ⟨hout, ?_⟩
  by_contra hlocal
  exact hl (h.panel.mpr ⟨by simpa using hlocal, hout⟩)

/-- A controlled fan in a state of its own. -/
theorem Fan.Controlled.settled (h : e.Controlled) (hs : e.state ≠ .service) (hl : e.state ≠ .localPanel)
    (hc : e.state = .faulted ↔ e.cause ≠ .none)
    (hq : waits → e.state = .queued ∨ (e.state = .stopping ∧ item.flyingRestart = true)) (hw : e.state = .queued → waits) :
    e.Settled item waits where
  queue := hq
  queued := hw
  service := iff_of_false hs (by rw [h.1]; exact nofun)
  panel := iff_of_false hl (by rw [h.2]; exact fun h => nomatch h.1)
  cause := hc

end

section
variable {x : Ctx} {f : Fin 8} {u : FanUnit} {item : FanItem}

/-- Entering a state of the drive: STOPPED or STOPPING, or STARTING or RUNNING on the target. -/
theorem enter_sound (h : u.fans[f].Controlled) {st : FanState}
    (hst : st = .stopped ∨ st = .stopping ∨ ((st = .starting ∨ st = .running) ∧ u.fans[f].drivesTarget)) :
    (u.enter x f st).Sound item f := by
  have hn : st ≠ .service ∧ st ≠ .localPanel ∧ st ≠ .faulted ∧ st ≠ .queued := by
    rcases hst with rfl | rfl | ⟨rfl | rfl, -⟩ <;> simp
  have hout := not_mem_enter x f u st
  constructor
  · rw [enter_fan]
    refine Fan.Controlled.settled h hn.1 hn.2.1 (iff_of_false hn.2.2.1 (not_not_intro rfl)) (fun hm => absurd hm hout)
      fun hq => absurd hq hn.2.2.2
  · rw [enter_fan]
    refine ⟨fun hd => ?_, fun hr => hr.elim (fun e => absurd e hn.1) fun e => absurd e hn.2.1⟩
    rcases hst with rfl | rfl | ⟨-, hdrives⟩
    · exact absurd (hd.resolve_left hout) (by simp [Fan.enter])
    · exact absurd (hd.resolve_left hout) (by simp [Fan.enter])
    · exact hdrives

theorem enterFaulted_sound (h : u.fans[f].Controlled) {c : FanFault} (hc : c ≠ .none) : (u.enterFaulted x f c).Sound item f := by
  have hout := not_mem_enterFaulted x f u c
  constructor
  · rw [enterFaulted_fan]
    exact Fan.Controlled.settled h nofun nofun (iff_of_true rfl hc) (fun hm => absurd hm hout) nofun
  · rw [enterFaulted_fan]
    exact ⟨fun hd => absurd (hd.resolve_left hout) (by simp [Fan.enter]), nofun⟩

theorem enterChecked_sound (h : u.fans[f].Controlled) {st : FanState}
    (hst : st = .stopped ∨ st = .stopping ∨ ((st = .starting ∨ st = .running) ∧ u.fans[f].drivesTarget)) :
    (u.enterChecked x f st).Sound item f := by
  unfold FanUnit.enterChecked
  split
  · refine enterFaulted_sound ?_ nofun
    rw [enter_fan]
    exact h
  · exact enter_sound h hst

theorem enterQueued_sound (h : u.fans[f].Controlled) (hd : u.fans[f].drivesTarget) : (u.enterQueued x f).Sound item f := by
  have hin := mem_enterQueued x f u
  constructor
  · rw [enterQueued_fan]
    exact Fan.Controlled.settled h nofun nofun (iff_of_false nofun (not_not_intro rfl)) (fun _ => .inl rfl) fun _ => hin
  · rw [enterQueued_fan]
    exact ⟨fun _ => hd, nofun⟩

/-- A fan in STOPPED leaves it for its target. -/
theorem leaveStopped_sound (h : u.fans[f].Settled item (f ∈ u.queue)) (hs : u.fans[f].state = .stopped) :
    (u.leaveStopped x f).Sound item f := by
  have hcontrolled : u.fans[f].Controlled := h.controlled (by rw [hs]; exact nofun) (by rw [hs]; exact nofun)
  unfold FanUnit.leaveStopped
  split
  · refine ⟨h, fun hd => ?_, fun hr => ?_⟩
    · rw [hs] at hd
      rcases hd with hm | hd | hd
      · have hq := h.queue hm
        rw [hs] at hq
        exact (hq.elim nofun fun hq => nomatch hq.1)
      · cases hd
      · cases hd
    · rw [hs] at hr
      exact hr.elim nofun nofun
  split
  · exact enterFaulted_sound hcontrolled nofun
  next dir speed htarget hfault =>
    refine enterQueued_sound ?_ ?_
    · rw [change_same]; exact hcontrolled
    · rw [change_same]
      exact ⟨dir, speed, htarget, decide_eq_true_iff.symm⟩

theorem stopped_leaveStopped_sound (h : u.fans[f].Controlled) :
    ((u.enter x f .stopped).leaveStopped x f).Sound item f :=
  leaveStopped_sound (enter_sound h (.inl rfl)).settled (by rw [enter_fan]; rfl)

/-- A fan in STOPPING stays there, or leaves it for its target. -/
theorem checkRundown_sound (h : u.Sound item f) (hs : u.fans[f].state = .stopping) : (u.checkRundown x f).Sound item f := by
  have hcontrolled := h.settled.controlled (by rw [hs]; exact nofun) (by rw [hs]; exact nofun)
  unfold FanUnit.checkRundown
  split
  · split
    next hin => exact enterQueued_sound hcontrolled (h.target.drives (.inl (List.contains_iff_mem.mp hin)))
    · exact stopped_leaveStopped_sound hcontrolled
  · exact h

theorem enterStopping_sound (h : u.fans[f].Controlled) : (u.enterStopping x f).Sound item f := by
  unfold FanUnit.enterStopping
  split
  · exact enterChecked_sound h (.inr (.inl rfl))
  · exact checkRundown_sound (enter_sound h (.inr (.inl rfl))) (by rw [enter_fan]; rfl)

/-- A fan whose target has changed takes it up. -/
theorem pursue_sound (hitem : item = x.cfg.fans[f]) (h : u.fans[f].Settled item (f ∈ u.queue))
    (hrests : u.fans[f].state = .service ∨ u.fans[f].state = .localPanel → u.fans[f].target = .stop) :
    (u.pursue x f).Sound item f := by
  subst hitem
  have hcontrolled := h.controlled
  have hnot (hs : u.fans[f].state ≠ .queued) (hf : u.fans[f].state ≠ .stopping) : f ∉ u.queue := fun hm =>
    (h.queue hm).elim hs fun hq => hf hq.1
  unfold FanUnit.pursue
  simp only
  split
  next hs => exact leaveStopped_sound h hs
  next hs =>
    split
    next hd => exact ⟨h, fun _ => (sameDirection_iff _).mp hd, hrests⟩
    · exact stopped_leaveStopped_sound (hcontrolled (by rw [hs]; exact nofun) (by rw [hs]; exact nofun))
  next hs =>
    split
    next hd => exact ⟨h, fun _ => (sameDirection_iff _).mp hd, hrests⟩
    · exact enterStopping_sound (hcontrolled (by rw [hs]; exact nofun) (by rw [hs]; exact nofun))
  next hs =>
    split
    next hd =>
      constructor
      · rw [change_same]
        obtain ⟨h1, h2, h3, h4, h5⟩ := h
        exact ⟨h1, h2, h3, h4, h5⟩
      · rw [change_same]
        exact ⟨fun _ => (sameDirection_iff _).mp hd, hrests⟩
    · exact enterStopping_sound (hcontrolled (by rw [hs]; exact nofun) (by rw [hs]; exact nofun))
  next hs =>
    split
    next hd =>
      split
      next hflying =>
        have hin := (mem_joinQueue u f).mpr (.inl rfl)
        constructor
        · rw [joinQueue_fans]
          exact ⟨fun _ => .inr ⟨hs, hflying⟩, fun _ => hin, h.service, h.panel, h.cause⟩
        · rw [joinQueue_fans]
          exact ⟨fun _ => (sameDirection_iff _).mp hd, hrests⟩
      · exact ⟨h, fun _ => (sameDirection_iff _).mp hd, hrests⟩
    · have hout : f ∉ (u.leaveQueue f).queue := by simp
      refine ⟨⟨fun hm => absurd hm hout, fun hq => ?_, h.service, h.panel, h.cause⟩, fun hd => ?_, hrests⟩
      · exact nomatch hs.symm.trans hq
      · exact (hd.resolve_left hout).elim (fun hd => nomatch hs.symm.trans hd) fun hd => nomatch hs.symm.trans hd
  next h1 h2 h3 h4 h5 =>
    exact ⟨h, fun hd => ((hd.resolve_left (hnot h2 h5)).elim h3 h4).elim, hrests⟩

/-- A claim keeps what the state agrees with, and puts a fan out of control at rest. -/
theorem claim_settled (h : u.fans[f].Settled item (f ∈ u.queue)) :
    (u.claim x f).fans[f].Settled item (f ∈ (u.claim x f).queue) := by
  rw [mem_claim, claim_fan]
  obtain ⟨h1, h2, h3, h4, h5⟩ := h
  exact ⟨h1, h2, h3, h4, h5⟩

theorem claim_rests (h : u.fans[f].Settled item (f ∈ u.queue)) :
    (u.claim x f).fans[f].state = .service ∨ (u.claim x f).fans[f].state = .localPanel → (u.claim x f).fans[f].target = .stop := by
  intro hs
  rw [claim_fan] at hs
  obtain ⟨hservice, hpanel, -⟩ := claim_owned x f u
  refine (claim_follows x f u).1 ?_
  rw [claim_fan] at hservice hpanel ⊢
  rcases hs with hs | hs
  · exact .inl (hservice (h.service.mp hs))
  · exact .inr (hpanel (h.panel.mp hs).2 (h.panel.mp hs).1)

/-- A fan at rest that is out of control stays sound under a claim. -/
theorem claim_sound (h : u.fans[f].Settled item (f ∈ u.queue)) (hs : u.fans[f].state = .service ∨ u.fans[f].state = .localPanel) :
    (u.claim x f).Sound item f := by
  refine ⟨claim_settled h, fun hd => ?_, claim_rests h⟩
  rw [mem_claim, claim_fan] at hd
  have hnot : ¬(f ∈ u.queue ∨ u.fans[f].state = .starting ∨ u.fans[f].state = .running) := by
    rintro (hm | hd | hd)
    · have hq := h.queue hm
      rcases hs with hs | hs <;> rw [hs] at hq <;> exact hq.elim nofun fun hq => nomatch hq.1
    · rcases hs with hs | hs <;> exact nomatch hs.symm.trans hd
    · rcases hs with hs | hs <;> exact nomatch hs.symm.trans hd
  exact absurd hd hnot

/-- A recomputed fan is sound if it was on its old target. -/
theorem recompute_sound (hitem : item = x.cfg.fans[f]) (h : u.fans[f].Settled item (f ∈ u.queue))
    (hdrives : f ∈ u.queue ∨ u.fans[f].state = .starting ∨ u.fans[f].state = .running → u.fans[f].drivesTarget) :
    (u.recompute x f).Sound item f := by
  unfold FanUnit.recompute
  simp only
  split
  next hsame =>
    refine ⟨claim_settled h, fun hd => ?_, claim_rests h⟩
    rw [mem_claim] at hd
    obtain ⟨dir, speed, htarget, hrev⟩ := hdrives (by rw [claim_fan] at hd; exact hd)
    refine ⟨dir, speed, hsame.trans htarget, ?_⟩
    rw [claim_fan]
    exact hrev
  · exact pursue_sound hitem (claim_settled h) (claim_rests h)

end

end Sys2Proof.Machine

/-! The start queue and the start slots stay in order (R102, R103): what one event of the fan controller keeps. -/

namespace Sys2Proof.Machine

/-! ## Recomputing several fans -/

/-- What recomputing some of the fans does to each fan and to the queue. -/
structure AfterAll (x : Ctx) (acted : Fin 8 → Prop) (u v : FanUnit) : Prop where
  untouched : ∀ k : Fin 8, ¬acted k → v.fans[k] = u.fans[k] ∧ (k ∈ v.queue ↔ k ∈ u.queue)
  recomputed : ∀ k : Fin 8, acted k → ∃ w : FanUnit, w.fans[k] = u.fans[k] ∧ (k ∈ w.queue ↔ k ∈ u.queue) ∧
    v.fans[k] = (w.recompute x k).fans[k] ∧ (k ∈ v.queue ↔ k ∈ (w.recompute x k).queue) ∧ w.galleryDemand = u.galleryDemand
  attached : ∀ k : Fin 8, v.fans[k].attached = u.fans[k].attached
  zoneDemand : v.zoneDemand = u.zoneDemand
  galleryDemand : v.galleryDemand = u.galleryDemand
  starting : ∀ k : Fin 8, v.fans[k].state = .starting → u.fans[k].state = .starting
  nodup : u.queue.Nodup → v.queue.Nodup
  classes : ClassesInOrder u → ClassesInOrder v
  order : ClassesInOrder u → QueueInOrder u v acted

theorem AfterAll.none (x : Ctx) {acted : Fin 8 → Prop} (h : ∀ k, ¬acted k) (u : FanUnit) : AfterAll x acted u u where
  untouched _ _ := ⟨rfl, .rfl⟩
  recomputed k hk := absurd hk (h k)
  attached _ := rfl
  zoneDemand := rfl
  galleryDemand := rfl
  starting _ := id
  nodup := id
  classes := id
  order _ _ k _ _ _ := ⟨fun _ _ hs => hs, fun hk => absurd hk (h k)⟩

/-- Recomputing one more fan, before the others. -/
theorem AfterAll.cons {x : Ctx} {f : Fin 8} {acted : Fin 8 → Prop} {u v : FanUnit} (hf : ¬acted f)
    (h : AfterAll x acted (u.recompute x f) v) : AfterAll x (fun k => k = f ∨ acted k) u v := by
  have hone := recompute_oneFan x f u
  have hsame {k : Fin 8} (hk : k ≠ f) := hone.touches.other k hk
  constructor
  case untouched =>
    intro k hk
    push Not at hk
    obtain ⟨hfan, hqueue⟩ := h.untouched k hk.2
    exact ⟨hfan.trans (hsame hk.1), hqueue.trans (hone.member k hk.1)⟩
  case recomputed =>
    rintro k hk
    by_cases hkf : k = f
    · subst hkf
      obtain ⟨hfan, hqueue⟩ := h.untouched k hf
      exact ⟨u, rfl, .rfl, hfan, hqueue, rfl⟩
    · obtain ⟨w, hfan, hqueue, hv, hvq, hdemand⟩ := h.recomputed k (hk.resolve_left hkf)
      exact ⟨w, hfan.trans (hsame hkf), hqueue.trans (hone.member k hkf), hv, hvq, hdemand.trans hone.galleryDemand⟩
  case attached =>
    intro k
    rw [h.attached]
    by_cases hkf : k = f
    · subst hkf; exact hone.touches.attached
    · rw [hsame hkf]
  case starting =>
    intro k hs
    have hk := h.starting k hs
    by_cases hkf : k = f
    · subst hkf; exact hone.starting hk
    · rwa [hsame hkf] at hk
  case zoneDemand => exact h.zoneDemand.trans hone.zoneDemand
  case galleryDemand => exact h.galleryDemand.trans hone.galleryDemand
  case nodup => exact h.nodup ∘ hone.nodup
  case classes => exact h.classes ∘ hone.classes
  case order =>
    intro hu
    exact (hone.queueInOrder (recompute_placed x f u) hu).trans (h.order (hone.classes hu)) hf hone h.untouched

theorem recomputeAll_afterAll (x : Ctx) (which : Fin 8 → Bool) (u : FanUnit) :
    AfterAll x (fun k => which k = true) u (FanUnit.recomputeAll x which u) := by
  suffices ∀ l : List (Fin 8), l.Nodup → ∀ u, AfterAll x (fun k => k ∈ l ∧ which k = true) u
      (l.foldl (fun v f => if which f then v.recompute x f else v) u) by
    simpa [FanUnit.recomputeAll] using this (List.finRange 8) (List.nodup_finRange 8) u
  intro l
  induction l with
  | nil => exact fun _ u => .none x (fun _ h => nomatch h.1) u
  | cons f l ih =>
    intro hl u
    obtain ⟨hf, hl⟩ := List.nodup_cons.mp hl
    rw [List.foldl_cons]
    split
    next hw =>
      have hacted : (fun k => k ∈ f :: l ∧ which k = true) = fun k => k = f ∨ (k ∈ l ∧ which k = true) := by
        funext k
        rw [List.mem_cons, eq_iff_iff]
        constructor
        · exact fun ⟨hk, hwk⟩ => hk.imp_right fun hk => ⟨hk, hwk⟩
        · rintro (rfl | ⟨hk, hwk⟩)
          · exact ⟨.inl rfl, hw⟩
          · exact ⟨.inr hk, hwk⟩
      rw [hacted]
      exact .cons (fun h => hf h.1) (ih hl _)
    next hw =>
      have hacted : (fun k => k ∈ f :: l ∧ which k = true) = fun k => k ∈ l ∧ which k = true := by
        funext k
        rw [List.mem_cons, eq_iff_iff]
        exact ⟨fun ⟨hk, hwk⟩ => ⟨hk.resolve_left fun e => hw (e ▸ hwk), hwk⟩, fun ⟨hk, hwk⟩ => ⟨.inr hk, hwk⟩⟩
      rw [hacted]
      exact ih hl u

/-! ## The start slots -/

theorem starting_eq_card (u : FanUnit) :
    u.starting = (Finset.univ.filter fun f : Fin 8 => u.fans[f].state = .starting).card := by
  unfold FanUnit.starting
  rw [← List.toFinset_card_of_nodup ((List.nodup_finRange 8).filter _)]
  congr 1
  ext f
  simp

theorem starting_mono {u v : FanUnit} (h : ∀ f : Fin 8, v.fans[f].state = .starting → u.fans[f].state = .starting) :
    v.starting ≤ u.starting := by
  rw [starting_eq_card, starting_eq_card]
  exact Finset.card_le_card (Finset.monotone_filter_right _ fun f _ => h f)

/-- A change at one fan takes at most one more start slot. -/
theorem starting_le_succ {u v : FanUnit} {f : Fin 8} (h : ∀ k : Fin 8, k ≠ f → v.fans[k] = u.fans[k]) :
    v.starting ≤ u.starting + 1 := by
  rw [starting_eq_card, starting_eq_card]
  refine (Finset.card_le_card fun k hk => ?_).trans (Finset.card_insert_le f _)
  rw [Finset.mem_filter] at hk
  rw [Finset.mem_insert, Finset.mem_filter]
  by_cases hkf : k = f
  · exact .inl hkf
  · exact .inr ⟨hk.1, by rw [← h k hkf]; exact hk.2⟩

/-! ## The fan unit -/

/-- What `FansWf` says before the start slots have been granted. -/
structure FanUnit.Wf (cfg : ActiveConfig) (u : FanUnit) : Prop where
  nodup : u.queue.Nodup
  classes : ClassesInOrder u
  sound : ∀ f : Fin 8, u.Sound cfg.fans[f] f
  owned : ∀ f : Fin 8, OwnedByHighest cfg u f
  starting : u.starting ≤ cfg.span.startSlots

theorem fansWf_iff {s : State} : FansWf s ↔ FanUnit.Wf s.active s.fans ∧
    (s.fans.queue = [] ∨ s.active.span.startSlots ≤ s.fans.starting) := by
  constructor
  · rintro ⟨hnodup, hclasses, hqueue, hstarting, hfills, hfans⟩
    refine ⟨⟨hnodup, hclasses, fun f => ?_, fun f => (hfans f).2.2.2.2.2.2, hstarting⟩, hfills⟩
    obtain ⟨h1, h2, h3, h4, h5, h6, -⟩ := hfans f
    exact ⟨⟨fun hm => (hqueue f hm).2, h1, h3, h4, h6⟩,
      fun hd => hd.elim (fun hm => (hqueue f hm).1) h2, h5⟩
  · rintro ⟨⟨hnodup, hclasses, hsound, howned, hstarting⟩, hfills⟩
    refine ⟨hnodup, hclasses, fun f hf => ⟨(hsound f).target.drives (.inl hf), (hsound f).settled.queue hf⟩, hstarting, hfills,
      fun f => ?_⟩
    obtain ⟨⟨-, h1, h3, h4, h6⟩, h2, h5⟩ := hsound f
    exact ⟨h1, fun hs => h2 (.inr hs), h3, h4, h5, h6, howned f⟩

section
variable {cfg : ActiveConfig} {u v : FanUnit} {f : Fin 8}

/-- Soundness reads the fan and whether it waits. -/
theorem FanUnit.Sound.congr {item : FanItem} (h : u.Sound item f) (hfan : v.fans[f] = u.fans[f])
    (hqueue : f ∈ v.queue ↔ f ∈ u.queue) : v.Sound item f := by
  obtain ⟨hsettled, htarget⟩ := h
  rw [← hqueue, ← hfan] at hsettled htarget
  exact ⟨hsettled, htarget⟩

/-- An operation at one fan that leaves it sound and owned keeps the unit well formed. -/
theorem FanUnit.Wf.oneFan (h : u.Wf cfg) (hone : OneFan f u v) (hsound : v.Sound cfg.fans[f] f) (howned : OwnedByHighest cfg v f) :
    v.Wf cfg where
  nodup := hone.nodup h.nodup
  classes := hone.classes h.classes
  sound k := by
    by_cases hk : k = f
    · subst hk; exact hsound
    · exact (h.sound k).congr (hone.touches.other k hk) (hone.member k hk)
  owned k := by
    by_cases hk : k = f
    · subst hk; exact howned
    · exact (h.owned k).congr (by rw [hone.touches.other k hk]; exact .refl _) (.inl hone.galleryDemand)
  starting := (starting_mono fun k hk => by
    by_cases hkf : k = f
    · subst hkf; exact hone.starting hk
    · rwa [hone.touches.other k hkf] at hk).trans h.starting

/-- The same where the owner is read as it was. -/
theorem FanUnit.Wf.moved (h : u.Wf cfg) (hone : OneFan f u v) (hsound : v.Sound cfg.fans[f] f)
    (hmoved : u.fans[f].Moved v.fans[f]) : v.Wf cfg :=
  h.oneFan hone hsound ((h.owned f).congr hmoved (.inl hone.galleryDemand))

/-- A waiting fan takes a free start slot. -/
theorem FanUnit.Wf.start {x : Ctx} (h : u.Wf x.cfg) {rest : List (Fin 8)} (hq : u.queue = f :: rest)
    (hfree : u.starting < x.cfg.span.startSlots) : (u.start x f).Wf x.cfg := by
  have hmem : f ∈ u.queue := by rw [hq]; exact List.mem_cons_self
  have hdrives := (h.sound f).target.drives (.inl hmem)
  have hcontrolled : u.fans[f].Controlled := by
    refine (h.sound f).settled.controlled (fun hs => ?_) fun hs => ?_ <;>
    · have hqueued := (h.sound f).settled.queue hmem
      rw [hs] at hqueued
      exact hqueued.elim nofun fun hq => nomatch hq.1
  have htouches := start_touches x f u
  have hmember (k : Fin 8) (hk : k ≠ f) : k ∈ (u.start x f).queue ↔ k ∈ u.queue := by
    rw [start_queue]; simp [hk]
  have hclass (k : Fin 8) : (u.start x f).fans[k].owner = u.fans[k].owner := by
    by_cases hk : k = f
    · subst hk; rw [start_moved x k u]
    · rw [htouches.other k hk]
  have hchecked : (u.enterChecked x f .starting).Sound x.cfg.fans[f] f :=
    enterChecked_sound hcontrolled (.inr (.inr ⟨.inl rfl, hdrives⟩))
  constructor
  case nodup => rw [start_queue]; exact h.nodup.filter _
  case classes =>
    have hfiltered : ClassesInOrder (u.leaveQueue f) := (leaveQueue_oneFan f u).classes h.classes
    exact hfiltered.congr (start_queue x f u) fun k _ => by rw [hclass]; rfl
  case sound =>
    intro k
    by_cases hk : k = f
    · subst hk
      unfold FanUnit.start
      simp only
      split
      next hs =>
        refine enter_sound (hchecked.settled.controlled (by rw [hs.1]; exact nofun) (by rw [hs.1]; exact nofun)) ?_
        exact .inr (.inr ⟨.inr rfl, hchecked.target.drives (.inr (.inl hs.1))⟩)
      · exact hchecked
    · exact (h.sound k).congr (htouches.other k hk) (hmember k hk)
  case owned =>
    intro k
    have hdemand := (start_demands x f u).2
    by_cases hk : k = f
    · subst hk; exact (h.owned k).congr (start_moved x k u) (.inl hdemand)
    · exact (h.owned k).congr (by rw [htouches.other k hk]; exact .refl _) (.inl hdemand)
  case starting => exact (starting_le_succ htouches.other).trans hfree

theorem FanUnit.Wf.grant {x : Ctx} (h : u.Wf x.cfg) (n : Nat) : (u.grant x n).Wf x.cfg := by
  induction n generalizing u with
  | zero => exact h
  | succ n ih =>
    cases hq : u.queue with
    | nil => rw [grant_nil x _ hq]; exact h
    | cons f rest =>
      rw [grant_cons x n hq]
      split
      next hfree => exact ih (h.start hq hfree)
      · exact h

/-- Cards attached to a fan are no part of its order. -/
theorem FanUnit.Wf.attached (h : u.Wf cfg) (hqueue : v.queue = u.queue) (hdemand : v.galleryDemand = u.galleryDemand)
    (hfans : ∀ k : Fin 8, v.fans[k] = { u.fans[k] with attached := v.fans[k].attached }) : v.Wf cfg where
  nodup := by rw [hqueue]; exact h.nodup
  classes := h.classes.congr hqueue fun k _ => by rw [hfans k]
  sound k := by
    obtain ⟨⟨h1, h2, h3, h4, h5⟩, h6, h7⟩ := h.sound k
    constructor <;> rw [hqueue, hfans k]
    · exact ⟨h1, h2, h3, h4, h5⟩
    · exact ⟨h6, h7⟩
  owned k := (h.owned k).congr (by rw [hfans k]; rfl) (.inl hdemand)
  starting := (starting_mono fun k hk => by rwa [hfans k] at hk).trans h.starting

end

theorem fanEvent_fan (act : FanUnit → FanUnit) (s : State) (k : Fin 8) : (s.fanEvent act).fans.fans[k] =
    { ((act s.fans).grant s.ctx 8).fans[k] with attached := (s.fanEvent act).fans.fans[k].attached } := by
  simp only [State.fanEvent]
  have hk (g : Fin 8 → Fan) : (Vector.ofFn g)[k] = g k := Vector.getElem_ofFn _
  rw [hk]
  split <;> rfl

/-- An event of the fan controller whose change leaves the unit well formed: the grants fill the start slots (R103). -/
theorem FansWf.fanEvent {s : State} {act : FanUnit → FanUnit} (h : (act s.fans).Wf s.active) : FansWf (s.fanEvent act) := by
  have hgranted : FanUnit.Wf s.active ((act s.fans).grant s.ctx 8) := FanUnit.Wf.grant (x := s.ctx) h 8
  refine fansWf_iff.mpr ⟨hgranted.attached rfl rfl (fanEvent_fan act s), ?_⟩
  refine (grant_eight s.ctx (act s.fans)).imp_right fun hfills => hfills.trans (starting_mono fun k hk => ?_)
  have hfan := fanEvent_fan act s k
  rw [hfan]
  exact hk

/-! ## The events of the fan controller keep the unit well formed -/

section
variable {x : Ctx} {u : FanUnit} {f : Fin 8}

/-- A change of what neither the state nor the claims read. -/
theorem FanUnit.Wf.change {cfg : ActiveConfig} (h : u.Wf cfg) {g : Fan → Fan}
    (hg : g u.fans[f] = { u.fans[f] with
      request := (g u.fans[f]).request, demand := (g u.fans[f]).demand, running := (g u.fans[f]).running
      fault := (g u.fans[f]).fault, lastRpm := (g u.fans[f]).lastRpm, underspeed := (g u.fans[f]).underspeed
      supervised := (g u.fans[f]).supervised, settleDue := (g u.fans[f]).settleDue }) :
    (u.change f g).Wf cfg := by
  have hone : OneFan f u (u.change f g) :=
    change_oneFan (by rw [hg]) (fun _ => by rw [hg]) fun hs => by rw [hg] at hs; exact hs
  obtain ⟨⟨h1, h2, h3, h4, h5⟩, h6, h7⟩ := h.sound f
  refine h.oneFan hone ?_ ?_
  · constructor <;> rw [change_same, hg]
    · exact ⟨h1, h2, h3, h4, h5⟩
    · exact ⟨h6, h7⟩
  · have howned := h.owned f
    unfold OwnedByHighest at howned ⊢
    rw [change_same, hg]
    exact howned

theorem FanUnit.Wf.controlled {cfg : ActiveConfig} (h : u.Wf cfg) (hs : u.fans[f].state ≠ .service)
    (hl : u.fans[f].state ≠ .localPanel) : u.fans[f].Controlled := (h.sound f).settled.controlled hs hl

/-- A fan in the drive's states goes to FAULTED. -/
theorem FanUnit.Wf.enterFaulted (h : u.Wf x.cfg) (hc : u.fans[f].Controlled) {c : FanFault} (hcause : c ≠ .none) :
    (u.enterFaulted x f c).Wf x.cfg :=
  h.moved (enterFaulted_oneFan x f u c) (enterFaulted_sound hc hcause) (enterFaulted_moved x f u c)

theorem FanUnit.Wf.enterStopping (h : u.Wf x.cfg) (hc : u.fans[f].Controlled) : (u.enterStopping x f).Wf x.cfg :=
  h.moved (enterStopping_oneFan x f u) (enterStopping_sound hc) (enterStopping_moved x f u)

theorem FanUnit.Wf.checkRundown (h : u.Wf x.cfg) (hs : u.fans[f].state = .stopping) : (u.checkRundown x f).Wf x.cfg :=
  h.moved (checkRundown_oneFan x f u) (checkRundown_sound (h.sound f) hs) (checkRundown_moved x f u)

theorem FanUnit.Wf.runningContact (h : u.Wf x.cfg) (level : Bool) : (u.runningContact x f level).Wf x.cfg := by
  have hv : (u.change f ({ · with running := level })).Wf x.cfg := h.change rfl
  have hsame : (u.change f ({ · with running := level })).fans[f].state = u.fans[f].state := by rw [change_same]
  have hcontrolled (hs : u.fans[f].state ≠ .service) (hl : u.fans[f].state ≠ .localPanel) :
      (u.change f ({ · with running := level })).fans[f].Controlled := hv.controlled (hsame ▸ hs) (hsame ▸ hl)
  have hdrives := (hv.sound f).target.drives
  unfold FanUnit.runningContact
  simp only
  generalize u.change f ({ · with running := level }) = v at hv hsame hcontrolled hdrives
  split
  next hs =>
    split
    · exact hv.enterStopping (hcontrolled (by rw [hs]; exact nofun) (by rw [hs]; exact nofun))
    · exact hv
  next hs =>
    split
    · exact hv.enterStopping (hcontrolled (by rw [hs]; exact nofun) (by rw [hs]; exact nofun))
    · exact hv
  next hs =>
    split
    · refine hv.moved (enterChecked_oneFan x f v nofun) (enterChecked_sound ?_ ?_) (enterChecked_moved x f v _)
      · exact hcontrolled (by rw [hs]; exact nofun) (by rw [hs]; exact nofun)
      · exact .inr (.inr ⟨.inr rfl, hdrives (.inr (.inl (hsame.trans hs)))⟩)
    · exact hv
  next hs =>
    split
    · exact hv
    · exact hv.enterFaulted (hcontrolled (by rw [hs]; exact nofun) (by rw [hs]; exact nofun)) nofun
  next hs => exact hv.checkRundown (hsame.trans hs)
  · exact hv

theorem FanUnit.Wf.faultContact (h : u.Wf x.cfg) (level : Bool) : (u.faultContact x f level).Wf x.cfg := by
  have hv : (u.change f ({ · with fault := level })).Wf x.cfg := h.change rfl
  have hsame : (u.change f ({ · with fault := level })).fans[f].state = u.fans[f].state := by rw [change_same]
  have hfault (hs : u.fans[f].state ≠ .service) (hl : u.fans[f].state ≠ .localPanel) :
      ((u.change f ({ · with fault := level })).enterFaulted x f .driveFault).Wf x.cfg :=
    hv.enterFaulted (hv.controlled (hsame ▸ hs) (hsame ▸ hl)) nofun
  unfold FanUnit.faultContact
  simp only
  split
  · split
    case h_5 => exact hv
    all_goals
      next hs => exact hfault (by rw [hs]; exact nofun) (by rw [hs]; exact nofun)
  · exact hv

/-- A fan whose switches or claims have changed and which is then recomputed. -/
theorem FanUnit.Wf.recomputed {v : FanUnit} (h : u.Wf x.cfg) (hone : OneFan f u v)
    (hsettled : v.fans[f].Settled x.cfg.fans[f] (f ∈ v.queue))
    (hdrives : f ∈ v.queue ∨ v.fans[f].state = .starting ∨ v.fans[f].state = .running → v.fans[f].drivesTarget) :
    (v.recompute x f).Wf x.cfg :=
  h.oneFan (hone.trans (recompute_oneFan x f v)) (recompute_sound rfl hsettled hdrives) (recompute_owned x f v)

/-- Switching a fan: neither its class nor its state changes. -/
theorem switch_oneFan {g : Fan → Fan} (hg : g u.fans[f] = { u.fans[f] with
      out := (g u.fans[f]).out, localSwitch := (g u.fans[f]).localSwitch, rundownFrom := (g u.fans[f]).rundownFrom }) :
    OneFan f u (u.change f g) :=
  change_oneFan (by rw [hg]) (fun _ => by rw [hg]) fun hs => by rw [hg] at hs; exact hs

/-- A fan that enters SERVICE or LOCAL under its switches. -/
theorem enterRest_settled {item : FanItem} {st : FanState} (hst : st = .service ∨ st = .localPanel)
    (hservice : st = .service ↔ u.fans[f].out = true)
    (hpanel : st = .localPanel ↔ u.fans[f].localSwitch = true ∧ u.fans[f].out = false) :
    (u.enter x f st).fans[f].Settled item (f ∈ (u.enter x f st).queue) := by
  have hout := not_mem_enter x f u st
  rw [enter_fan]
  refine ⟨fun hm => absurd hm hout, fun hs => ?_, hservice, hpanel, iff_of_false (fun hs => ?_) (not_not_intro rfl)⟩
  · rcases hst with rfl | rfl <;> cases hs
  · rcases hst with rfl | rfl <;> cases hs

theorem FanUnit.Wf.localContact (h : u.Wf x.cfg) (level : Bool) : (u.localContact x f level).Wf x.cfg := by
  have hone : OneFan f u (u.change f ({ · with localSwitch := level })) := switch_oneFan rfl
  have hfan : (u.change f ({ · with localSwitch := level })).fans[f] = { u.fans[f] with localSwitch := level } := change_same _ _ _
  obtain ⟨hqueue, hqueued, hservice, hpanel, hcause⟩ := (h.sound f).settled
  unfold FanUnit.localContact
  simp only
  generalize hv : u.change f ({ · with localSwitch := level }) = v at hone hfan
  have hmem : f ∈ v.queue ↔ f ∈ u.queue := by rw [← hv]; rfl
  split
  next hs =>
    refine h.oneFan (hone.trans (claim_oneFan x f v)) (claim_sound ?_ ?_) (claim_owned x f v)
    · rw [hmem, hfan]
      exact ⟨hqueue, hqueued, hservice, iff_of_false (by rw [hs]; exact nofun) (by rw [hservice.mp hs]; exact fun h => nomatch h.2),
        hcause⟩
    · rw [hfan]; exact .inl hs
  next hs =>
    have hout : u.fans[f].out = false := by simpa using mt hservice.mpr hs
    split
    next hlevel =>
      subst hlevel
      have hpanelState : (v.enter x f .localPanel).fans[f].state = .localPanel := by rw [enter_fan]; rfl
      refine h.oneFan ((hone.trans (enter_oneFan x f v (st := .localPanel) nofun)).trans (claim_oneFan x f _))
        (claim_sound (enterRest_settled (.inr rfl) ?_ ?_) (.inr hpanelState)) (claim_owned x f _)
      · rw [hfan]; exact iff_of_false nofun (by rw [hout]; exact nofun)
      · rw [hfan]; exact iff_of_true rfl ⟨rfl, hout⟩
    next hlevel =>
      have hoff : level = false := by simpa using hlevel
      subst hoff
      split
      next hl =>
        have hclaimed := (claim_oneFan x f v).trans (restartClock_oneFan x f _)
        have hcontrolled : ((v.claim x f).restartClock x f).fans[f].Controlled := by
          unfold FanUnit.restartClock
          rw [change_same, claim_fan, hfan]
          exact ⟨hout, rfl⟩
        refine h.oneFan ((hone.trans hclaimed).trans (enterStopping_oneFan x f _)) (enterStopping_sound hcontrolled) ?_
        exact (claim_owned x f v).congr ((restartClock_moved x f _).trans (enterStopping_moved x f _))
          (.inl ((restartClock_oneFan x f _).trans (enterStopping_oneFan x f _)).galleryDemand)
      next hl =>
        refine h.recomputed hone ?_ fun hd => ?_
        · rw [hmem, hfan]
          exact ⟨hqueue, hqueued, hservice, iff_of_false hl (fun h => nomatch h.1), hcause⟩
        · rw [hmem, hfan] at hd
          rw [hfan]
          exact (h.sound f).target.drives hd

theorem FanUnit.Wf.service (h : u.Wf x.cfg) (out : Bool) : (u.service x f out).Wf x.cfg := by
  have hone : OneFan f u (u.change f ({ · with out := out })) := switch_oneFan rfl
  have hfan : (u.change f ({ · with out := out })).fans[f] = { u.fans[f] with out := out } := change_same _ _ _
  unfold FanUnit.service
  simp only
  generalize u.change f ({ · with out := out }) = v at hone hfan
  have hrest {st : FanState} (hst : st = .service ∨ st = .localPanel) (hservice : st = .service ↔ v.fans[f].out = true)
      (hpanel : st = .localPanel ↔ v.fans[f].localSwitch = true ∧ v.fans[f].out = false) :
      ((v.enter x f st).recompute x f).Wf x.cfg := by
    have hstarting : st ≠ .starting := by rcases hst with rfl | rfl <;> exact nofun
    refine h.recomputed (hone.trans (enter_oneFan x f v hstarting)) (enterRest_settled hst hservice hpanel) fun hd => ?_
    replace hd := hd.resolve_left (not_mem_enter x f v st)
    rw [enter_fan] at hd
    rcases hst with rfl | rfl <;> exact hd.elim nofun nofun
  split
  · exact h
  split
  next hout =>
    subst hout
    refine hrest (.inl rfl) ?_ ?_
    · rw [hfan]; exact iff_of_true rfl rfl
    · rw [hfan]; exact iff_of_false nofun fun h => nomatch h.2
  next hout =>
    have hin : out = false := by simpa using hout
    subst hin
    split
    next hlocal =>
      refine hrest (.inr rfl) ?_ ?_
      · rw [hfan]; exact iff_of_false nofun nofun
      · rw [hfan]; exact iff_of_true rfl ⟨hlocal, rfl⟩
    next hlocal =>
      have hcontrolled : (v.restartClock x f).fans[f].Controlled := by
        unfold FanUnit.restartClock
        rw [change_same, hfan]
        exact ⟨rfl, by simpa using hlocal⟩
      have hsound := enterStopping_sound (x := x) (item := x.cfg.fans[f]) hcontrolled
      exact h.recomputed ((hone.trans (restartClock_oneFan x f v)).trans (enterStopping_oneFan x f _)) hsound.settled
        hsound.target.drives

theorem FanUnit.Wf.clearFault (h : u.Wf x.cfg) (hs : u.fans[f].state = .faulted) : (u.clearFault x f).Wf x.cfg := by
  have hcontrolled : (u.claim x f).fans[f].Controlled := by
    rw [claim_fan]
    exact h.controlled (by rw [hs]; exact nofun) (by rw [hs]; exact nofun)
  have hone := (enter_oneFan x f (u.claim x f) (st := .stopped) nofun).trans (leaveStopped_oneFan x f _)
  exact h.oneFan ((claim_oneFan x f u).trans hone) (stopped_leaveStopped_sound hcontrolled)
    ((claim_owned x f u).congr ((enter_moved x f _ .stopped).trans (leaveStopped_moved x f _)) (.inl hone.galleryDemand))

/-- Recomputing fans whose claims have changed: they are owned anew, and the others as before. -/
theorem FanUnit.Wf.recomputeAll {v : FanUnit} {which : Fin 8 → Bool} (h : u.Wf x.cfg) (hqueue : v.queue = u.queue)
    (hfans : ∀ k : Fin 8, v.fans[k] = { u.fans[k] with
      demand := v.fans[k].demand, incident := v.fans[k].incident, entryTarget := v.fans[k].entryTarget
      request := v.fans[k].request })
    (howned : ∀ k : Fin 8, which k = false → OwnedByHighest x.cfg v k) : (FanUnit.recomputeAll x which v).Wf x.cfg := by
  have hall := recomputeAll_afterAll x which v
  have hsound (k : Fin 8) : v.Sound x.cfg.fans[k] k := by
    obtain ⟨⟨h1, h2, h3, h4, h5⟩, h6, h7⟩ := h.sound k
    constructor <;> rw [hqueue, hfans k]
    · exact ⟨h1, h2, h3, h4, h5⟩
    · exact ⟨h6, h7⟩
  constructor
  case nodup => exact hall.nodup (hqueue ▸ h.nodup)
  case classes => exact hall.classes (h.classes.congr hqueue fun k _ => by rw [hfans k])
  case starting =>
    exact (starting_mono fun k hk => by have hs := hall.starting k hk; rwa [hfans k] at hs).trans h.starting
  case sound =>
    intro k
    by_cases hk : which k = true
    · obtain ⟨w, hw, hwq, hfan, hmem, -⟩ := hall.recomputed k hk
      have hws := (hsound k).congr hw hwq
      exact (recompute_sound (x := x) rfl hws.settled hws.target.drives).congr hfan hmem
    · obtain ⟨hfan, hmem⟩ := hall.untouched k hk
      exact (hsound k).congr hfan hmem
  case owned =>
    intro k
    by_cases hk : which k = true
    · obtain ⟨w, -, -, hfan, -, hdemand⟩ := hall.recomputed k hk
      refine (recompute_owned x k w).congr (by rw [hfan]; exact .refl _) (.inl ?_)
      rw [hall.galleryDemand, (recompute_oneFan x k w).galleryDemand, hdemand]
    · obtain ⟨hfan, -⟩ := hall.untouched k hk
      exact (howned k (by simpa using hk)).congr (by rw [hfan]; exact .refl _) (.inl hall.galleryDemand)

/-- Demands reach the targets, not the owners. -/
theorem FanUnit.Wf.recomputeDemand {v : FanUnit} (h : u.Wf x.cfg) (which : Fin 8 → Bool) (hqueue : v.queue = u.queue)
    (hgallery : v.galleryDemand = u.galleryDemand)
    (hfans : ∀ k : Fin 8, v.fans[k] = { u.fans[k] with demand := v.fans[k].demand }) :
    (FanUnit.recomputeAll x which v).Wf x.cfg := by
  refine h.recomputeAll hqueue (fun k => by rw [hfans k]) fun k _ => ?_
  have howned := h.owned k
  unfold OwnedByHighest at howned ⊢
  rw [hfans k, hgallery]
  exact howned

theorem FanUnit.Wf.zoneDemandChange (h : u.Wf x.cfg) (z : Fin 8) (level : Nat) : (u.zoneDemandChange x z level).Wf x.cfg := by
  refine h.recomputeDemand _ rfl rfl fun k => ?_
  have hk (g : Fin 8 → Fan) : (Vector.ofFn g)[k] = g k := Vector.getElem_ofFn _
  rw [hk]
  split <;> rfl

theorem FanUnit.Wf.zoneLoadCommit (h : u.Wf x.cfg) (z : Fin 8) (level : Nat) : (u.zoneLoadCommit x z level).Wf x.cfg := by
  refine h.recomputeDemand _ rfl rfl fun k => ?_
  have hk (g : Fin 8 → Fan) : (Vector.ofFn g)[k] = g k := Vector.getElem_ofFn _
  rw [hk]

theorem FanUnit.Wf.placementChange (h : u.Wf x.cfg) (l : List ListEntry) : (u.placementChange x l).Wf x.cfg := by
  refine h.recomputeAll rfl (fun k => ?_) nofun
  have hk (g : Fin 8 → Fan) : (Vector.ofFn g)[k] = g k := Vector.getElem_ofFn _
  rw [hk]
  unfold Fan.place
  split <;> rfl

/-- A gallery demand is claimed by the fans of the gallery alone. -/
theorem FanUnit.Wf.galleryChange (h : u.Wf x.cfg) (d : GalleryDemand) : (u.galleryChange x d).Wf x.cfg := by
  refine h.recomputeAll rfl (fun _ => rfl) fun k hk => ?_
  exact (h.owned k).congr (.refl _) (.inr (by simpa using hk))

theorem FanUnit.Wf.request (h : u.Wf x.cfg) (r : HostRequest) : (u.request x f r).Wf x.cfg := by
  have hchange : (u.change f ({ · with request := r })).Wf x.cfg := h.change rfl
  exact h.recomputed (change_oneFan rfl (fun _ => rfl) id) (hchange.sound f).settled (hchange.sound f).target.drives

end

/-! ## The commands -/

section
variable {s : State}

theorem FansWf.unit (h : FansWf s) : FanUnit.Wf s.active s.fans := (fansWf_iff.mp h).1

theorem FansWf.congr {t : State} (h : FansWf s) (hfans : t.fans = s.fans) (hspan : t.active.span = s.active.span)
    (hitems : t.active.fans = s.active.fans) : FansWf t := by
  unfold FansWf OwnedByHighest at h ⊢
  rw [hfans, hspan, hitems]
  exact h

theorem FansWf.reply (h : FansWf s) (t : Take) (a : Answer) : FansWf (s.reply t a) := h.congr rfl rfl rfl

theorem FansWf.publish {b : State} (h : FansWf s) : FansWf (publish b s) := h.congr rfl rfl rfl

theorem FansWf.attach (h : FansWf s) {t : State} (hqueue : t.fans.queue = s.fans.queue)
    (hdemand : t.fans.galleryDemand = s.fans.galleryDemand)
    (hfans : ∀ k : Fin 8, t.fans.fans[k] = { s.fans.fans[k] with attached := t.fans.fans[k].attached })
    (hactive : t.active = s.active) : FansWf t := by
  obtain ⟨hunit, hfills⟩ := fansWf_iff.mp h
  refine fansWf_iff.mpr ⟨hactive ▸ hunit.attached hqueue hdemand hfans, ?_⟩
  rw [hqueue, hactive]
  exact hfills.imp_right fun hf => hf.trans (starting_mono fun k hk => by rw [hfans k]; exact hk)

theorem FansWf.detach (h : FansWf s) (d : Fin 4) : FansWf (s.detach d) := by
  refine h.attach rfl rfl (fun k => ?_) rfl
  rw [detach_fan]

theorem FansWf.fanContact (h : FansWf s) (f : Fin 8) (k : Fin 3) {act : Ctx → Bool → FanUnit → FanUnit}
    (hact : ∀ level, FanUnit.Wf s.active (act s.ctx level s.fans)) : FansWf (s.fanContact f k act) := by
  unfold State.fanContact
  split
  · exact h
  · exact .fanEvent (hact _)

theorem FansWf.event {c : Instr} {t : State} (hb : blockOf c = some .fan) (h : exec c s = .next t) (hs : FansWf s) :
    FansWf t := by
  have hpublish (a : State) (ha : FansWf a) : FansWf (Machine.publish s a) := ha.publish
  have hunit := hs.unit
  have hevent {act : FanUnit → FanUnit} (m : Mail) (hact : FanUnit.Wf s.active (act s.fans)) :
      FansWf (State.fanEvent act { s with mail := m }) := .fanEvent hact
  cases c
  case fanRunningContact f =>
    exact internal_keeps hs hpublish (fun _ => hs.fanContact f 0 (act := fun x l => FanUnit.runningContact x f l)
      fun l => hunit.runningContact (x := s.ctx) l) h
  case fanFaultContact f =>
    exact internal_keeps hs hpublish (fun _ => hs.fanContact f 1 (act := fun x l => FanUnit.faultContact x f l)
      fun l => hunit.faultContact (x := s.ctx) l) h
  case fanLocalContact f =>
    exact internal_keeps hs hpublish (fun _ => hs.fanContact f 2 (act := fun x l => FanUnit.localContact x f l)
      fun l => hunit.localContact (x := s.ctx) l) h
  case startLimitExpiry f =>
    simp only [exec, execStartLimitExpiry] at h
    refine internal_keeps hs hpublish (fun hg => ?_) h
    simp only [State.startLimitDue, Bool.and_eq_true, decide_eq_true_eq] at hg
    exact .fanEvent (hunit.enterFaulted (x := s.ctx) (hunit.controlled (by rw [hg.1]; exact nofun) (by rw [hg.1]; exact nofun)) nofun)
  case settleExpiry f =>
    refine internal_keeps hs hpublish (fun _ => ?_) h
    exact .fanEvent (hunit.change rfl)
  case rundownExpiry f =>
    simp only [exec, execRundownExpiry] at h
    refine internal_keeps hs hpublish (fun hg => ?_) h
    simp only [State.rundownDue, Bool.and_eq_true, decide_eq_true_eq] at hg
    exact .fanEvent (hunit.checkRundown (x := s.ctx) hg.1)
  case tachHandover f =>
    simp only [exec, execTachHandover] at h
    refine internal_keeps hs hpublish (fun _ => ?_) h
    split
    · exact hs
    · refine hevent _ (hunit.change ?_)
      unfold Fan.tachWindow
      split <;> rfl
  case demandLevelChange z =>
    simp only [exec, execDemandLevelChange] at h
    refine internal_keeps hs hpublish (fun _ => ?_) h
    split
    · exact hs
    · exact hevent _ (hunit.zoneDemandChange (x := s.ctx) z _)
  case zoneLoadCommit =>
    simp only [exec, execZoneLoadCommit] at h
    refine internal_keeps hs hpublish (fun _ => ?_) h
    split
    · exact hs
    · exact hevent _ (hunit.zoneLoadCommit (x := s.ctx) _ _)
  case placementChange =>
    simp only [exec, execPlacementChange] at h
    refine internal_keeps hs hpublish (fun _ => ?_) h
    split
    · exact hs
    · exact hevent _ (hunit.placementChange (x := s.ctx) _)
  case galleryDemandChange =>
    simp only [exec, execGalleryDemandChange] at h
    refine internal_keeps hs hpublish (fun _ => ?_) h
    split
    · exact hs
    · exact hevent _ (hunit.galleryChange (x := s.ctx) _)
  case fanRequestCard =>
    refine internal_keeps hs hpublish (fun _ => dispatch_keeps hs fun t => onTarget_keeps (hs.reply t _) fun f => ?_) h
    unfold State.fanRequest
    split
    · exact hs.reply t _
    next r _ =>
      have hv : FansWf (s.fanEvent (FanUnit.request s.ctx f r)) := .fanEvent (hunit.request (x := s.ctx) r)
      simp only
      split
      · exact hv.reply t _
      · refine hv.attach rfl rfl (fun k => ?_) rfl
        simp only [State.started]
        by_cases hk : k = f
        · subst hk; rw [change_same]
        · rw [change_other _ _ hk]
  case fanServiceCard =>
    refine internal_keeps hs hpublish (fun _ => dispatch_keeps hs fun t => onTarget_keeps (hs.reply t _) fun f => ?_) h
    unfold State.fanService
    split
    · exact hs.reply t _
    · exact FansWf.reply (.fanEvent (hunit.service (x := s.ctx) _)) t _
  case fanResetCard =>
    refine internal_keeps hs hpublish (fun _ => dispatch_keeps hs fun t => onTarget_keeps (hs.reply t _) fun f => ?_) h
    unfold State.fanReset
    simp only
    split
    · exact hs.reply t _
    next hfaulted =>
      split
      · exact hs.reply t _
      · exact FansWf.reply (.fanEvent (hunit.clearFault (x := s.ctx) (not_not.mp hfaulted))) t _
  all_goals cases hb

/-! ## LOAD and entering RUNNING -/

/-- A fan item that takes the place of the old one, for a fan at rest: it is claimed anew. -/
theorem FansWf.loadFan (h : FansWf s) {f : Fin 8} (hallowed : s.loadAllowed (.fan f) = true) : FansWf (s.loadFan f) := by
  have hunit := h.unit
  have hrest : s.fans.fans[f].state = .stopped ∨ s.fans.fans[f].state = .service := by
    simpa [State.loadAllowed] using hallowed
  obtain ⟨hqueue, hqueued, hservice, hpanel, hcause⟩ := (hunit.sound f).settled
  have hout : f ∉ s.fans.queue := fun hm => by
    have hq := hqueue hm
    rcases hrest with hs | hs <;> rw [hs] at hq <;> exact hq.elim nofun fun hq => nomatch hq.1
  unfold State.loadFan
  extract_lets old t item u v
  suffices FansWf v by
    split
    · exact this
    · exact this.congr rfl rfl rfl
  have hitems (k : Fin 8) (hk : k ≠ f) : u.active.fans[k] = s.active.fans[k] := set_get_other _ _ hk
  have hfan {g : Fan → Fan} {w : FanUnit} : (w.change f g).fans[f] = g w.fans[f] := change_same _ _ _
  refine .fanEvent ?_
  show FanUnit.Wf u.active (FanUnit.load u.ctx f s.fans)
  have hone : OneFan f s.fans (FanUnit.load u.ctx f s.fans) := by
    refine (OneFan.trans (change_oneFan rfl (fun _ => rfl) id) (change_oneFan rfl (fun _ => rfl) id)).trans
      (recompute_oneFan u.ctx f _)
  constructor
  case nodup => exact hone.nodup hunit.nodup
  case classes => exact hone.classes hunit.classes
  case starting =>
    refine (starting_mono fun k hk => ?_).trans hunit.starting
    by_cases hkf : k = f
    · subst hkf; exact hone.starting hk
    · rwa [hone.touches.other k hkf] at hk
  case sound =>
    intro k
    by_cases hk : k = f
    · subst hk
      refine recompute_sound (x := u.ctx) rfl ?_ fun hd => ?_
      · rw [hfan, hfan]
        exact ⟨fun hm => absurd hm hout, hqueued, hservice, hpanel, hcause⟩
      · rw [hfan, hfan] at hd
        rcases hrest with hs | hs <;>
          exact ((hd.resolve_left hout).elim (fun hd => nomatch hs.symm.trans hd) fun hd => nomatch hs.symm.trans hd)
    · rw [hitems k hk]
      exact (hunit.sound k).congr (hone.touches.other k hk) (hone.member k hk)
  case owned =>
    intro k
    by_cases hk : k = f
    · subst hk
      exact recompute_owned u.ctx k _
    · have howned := (hunit.owned k).congr (v := FanUnit.load u.ctx f s.fans)
        (by rw [hone.touches.other k hk]; exact .refl _) (.inl hone.galleryDemand)
      unfold OwnedByHighest at howned ⊢
      rw [hitems k hk]
      exact howned

theorem FansWf.commit (h : FansWf s) {r : ItemRef} (hr : r ≠ .span) (hallowed : s.loadAllowed r = true) :
    FansWf (s.commit r) := by
  cases r with
  | span => exact absurd rfl hr
  | gate | zone | channel | template | link | door => exact h.congr rfl rfl rfl
  | gallery =>
    simp only [State.commit, State.loadGallery]
    split <;> exact h.congr rfl rfl rfl
  | fan f => exact h.loadFan hallowed

end

theorem FansWf.of_reset {s : State} (hs : s.fans = FanUnit.reset) : FansWf s := by
  have hfan (k : Fin 8) : s.fans.fans[k] = Fan.reset := by rw [hs]; simp [FanUnit.reset]
  have hqueue : s.fans.queue = [] := by rw [hs]; rfl
  have hnone : s.fans.starting = 0 := by
    rw [starting_eq_card, Finset.card_eq_zero, Finset.filter_eq_empty_iff]
    intro k _
    rw [hfan]
    exact nofun
  refine fansWf_iff.mpr ⟨⟨?_, ?_, fun k => ?_, fun k => ?_, ?_⟩, .inl hqueue⟩
  · rw [hqueue]; exact List.nodup_nil
  · unfold ClassesInOrder; rw [hqueue]; exact List.Pairwise.nil
  · constructor <;> rw [hqueue, hfan] <;> constructor <;> simp [Fan.reset]
  · unfold OwnedByHighest
    rw [hfan, hs]
    simp [Fan.reset, FanUnit.reset]
  · rw [hnone]; exact Nat.zero_le _

/-- A fan at rest takes up its contacts on entry to RUNNING (R101); it waits for nothing, having no target. -/
theorem takeUp_keeps {x : Ctx} {u : FanUnit} {f : Fin 8} (h : u.Wf x.cfg) (hfan : u.fans[f] = Fan.reset) (hqueue : u.queue = [])
    (hidle : u.galleryDemand = .idle) (running fault localSwitch : Bool) :
    OneFan f u (u.takeUp x f running fault localSwitch) ∧ (u.takeUp x f running fault localSwitch).Wf x.cfg ∧
      (u.takeUp x f running fault localSwitch).queue = [] := by
  have hout {v : FanUnit} (hone : OneFan f u v) (hv : v.Sound x.cfg.fans[f] f) (hstop : v.fans[f].target = .stop) : v.queue = [] := by
    refine List.eq_nil_iff_forall_not_mem.mpr fun k hk => ?_
    by_cases hkf : k = f
    · subst hkf
      obtain ⟨dir, speed, hrun, -⟩ := hv.target.drives (.inl hk)
      exact nomatch hstop.symm.trans hrun
    · exact absurd ((hone.member k hkf).mp hk) (by rw [hqueue]; exact List.not_mem_nil)
  have hall {v : FanUnit} (hone : OneFan f u v) (hv : v.Sound x.cfg.fans[f] f) (howned : OwnedByHighest x.cfg v f)
      (hstop : v.fans[f].target = .stop) : OneFan f u v ∧ v.Wf x.cfg ∧ v.queue = [] :=
    ⟨hone, h.oneFan hone hv howned, hout hone hv hstop⟩
  have hchanged := change_same u f ({ · with running := running, fault := fault, localSwitch := localSwitch,
                                             rundownFrom := x.now, entered := x.sec })
  have hone : OneFan f u (u.change f ({ · with running := running, fault := fault, localSwitch := localSwitch,
                                               rundownFrom := x.now, entered := x.sec })) :=
    change_oneFan rfl (fun _ => rfl) id
  unfold FanUnit.takeUp
  simp only
  rw [hfan] at hchanged
  generalize hv : u.change f ({ · with running := running, fault := fault, localSwitch := localSwitch,
                                       rundownFrom := x.now, entered := x.sec }) = v at hone hchanged
  have hvq : v.queue = [] := by rw [← hv]; exact hqueue
  split
  next hlocal =>
    have hsettled : (v.enter x f .localPanel).fans[f].Settled x.cfg.fans[f] (f ∈ (v.enter x f .localPanel).queue) := by
      refine enterRest_settled (.inr rfl) ?_ ?_ <;> rw [hchanged]
      · exact iff_of_false nofun nofun
      · exact iff_of_true rfl ⟨hlocal, rfl⟩
    have hpanel : (v.enter x f .localPanel).fans[f].state = .localPanel := by rw [enter_fan]; rfl
    have hsound := claim_sound (x := x) hsettled (.inr hpanel)
    refine hall ((hone.trans (enter_oneFan x f v (st := .localPanel) nofun)).trans (claim_oneFan x f _)) hsound
      (claim_owned x f _) (hsound.target.rests (.inr ?_))
    rw [claim_fan]
    exact hpanel
  next hlocal =>
    have hcontrolled : v.fans[f].Controlled := by rw [hchanged]; exact ⟨rfl, by simpa using hlocal⟩
    have howned : OwnedByHighest x.cfg v f := by
      unfold OwnedByHighest
      rw [hchanged, hone.galleryDemand, hidle]
      simp [Fan.reset, hlocal]
    split
    · have hmoved := enterStopping_moved x f v
      have hstop := enterStopping_oneFan x f v
      refine hall (hone.trans hstop) (enterStopping_sound hcontrolled) (howned.congr hmoved (.inl hstop.galleryDemand)) ?_
      rw [hmoved, hchanged]
      rfl
    · refine hall hone ?_ howned (by rw [hchanged]; rfl)
      constructor <;> rw [hvq, hchanged]
      · refine Fan.Controlled.settled ⟨rfl, by simpa using hlocal⟩ nofun nofun (iff_of_false nofun (not_not_intro rfl)) nofun nofun
      · exact ⟨fun hd => hd.elim nofun fun hd => hd.elim nofun nofun, fun _ => rfl⟩

/-- The fans take up their contacts one by one (R86, R101). -/
theorem FanUnit.Wf.enterRunning (x : Ctx) (levels : Vector Contact 36) :
    (FanUnit.enterRunning x levels).Wf x.cfg ∧ (FanUnit.enterRunning x levels).queue = [] := by
  have hreset : FansWf { State.reset with active := x.cfg } := .of_reset rfl
  suffices hfold : ∀ l : List (Fin 8), l.Nodup → ∀ u : FanUnit, u.Wf x.cfg → u.queue = [] →
      u.galleryDemand = .idle → (∀ f ∈ l, u.fans[f] = Fan.reset) →
      (l.foldl (fun u f => u.takeUp x f levels[fanInput f 0].level levels[fanInput f 1].level levels[fanInput f 2].level) u).Wf
          x.cfg ∧
        (l.foldl (fun u f =>
          u.takeUp x f levels[fanInput f 0].level levels[fanInput f 1].level levels[fanInput f 2].level) u).queue = [] from
    hfold (List.finRange 8) (List.nodup_finRange 8) FanUnit.reset hreset.unit rfl rfl fun f _ => by simp [FanUnit.reset]
  intro l
  induction l with
  | nil => exact fun _ u hu hq _ _ => ⟨hu, hq⟩
  | cons f l ih =>
    intro hl u hu hq hidle hfans
    obtain ⟨hf, hl⟩ := List.nodup_cons.mp hl
    obtain ⟨hone, hwf, hempty⟩ := takeUp_keeps hu (hfans f List.mem_cons_self) hq hidle levels[fanInput f 0].level
      levels[fanInput f 1].level levels[fanInput f 2].level
    rw [List.foldl_cons]
    refine ih hl _ hwf hempty (hone.galleryDemand.trans hidle) fun k hk => ?_
    rw [hone.touches.other k fun e => hf (e ▸ hk)]
    exact hfans k (List.mem_cons_of_mem _ hk)

theorem FansWf.enterRunning (s : State) : FansWf s.enterRunning := by
  have hfans : s.enterRunning.fans = FanUnit.enterRunning { cfg := s.candidate, now := s.now, sec := 0 }
      (Vector.ofFn fun i => s.contacts[i].enterRunning (contactSetting s.candidate i)) := by simp only [State.enterRunning]
  have hactive : s.enterRunning.active = s.candidate := rfl
  rw [fansWf_iff, hfans, hactive]
  exact (FanUnit.Wf.enterRunning { cfg := s.candidate, now := s.now, sec := 0 } _).imp_right .inl

/-! ## Every step -/

/-- The blocks whose events may touch the fans. -/
def Block.isFan (b : Block) : Bool :=
  match b with
  | .fan | .deck | .load => true
  | _ => false

theorem Undisturbed.fansWf {s t : State} (h : Undisturbed s t) (hs : FansWf s) : FansWf t :=
  hs.congr h.fans (by rw [h.active]) (by rw [h.active])

/-- Settles O56: each event of the fan controller leaves every fan sound and owned, and the grants at its end fill the slots. -/
theorem everyStepKeepsTheStartQueueAndSlots : Obligations.EveryStepKeepsTheStartQueueAndSlots := by
  refine keptByEveryStep_of_events Block.isFan Undisturbed.fansWf (.of_reset rfl) (fun s _ => .enterRunning s)
    (fun {b _ _} hb hframe hs => ?_) (fun {c b s t} hb hc h hs => ?_)
  · have hleaves := hframe.leaves
    cases b
    case fan | deck | load => cases hb
    all_goals
      unfold Block.Leaves at hleaves
      rw [hleaves]
      exact hs.congr rfl rfl rfl
  · cases b
    case fan => exact hs.event hc h
    case deck =>
      have hactive : t.active = s.active := by
        obtain rfl | ⟨-, a, rfl, hframe⟩ := exec_event hc h
        · rfl
        · have hleaves := hframe.leaves
          unfold Block.Leaves at hleaves
          rw [hleaves]
          rfl
      obtain ⟨-, hfans⟩ | ⟨d, -, hfans⟩ := deck_detaches hc h
      · exact hs.congr hfans (by rw [hactive]) (by rw [hactive])
      · exact (hs.detach d).congr hfans (by rw [hactive]; rfl) (by rw [hactive]; rfl)
    case load =>
      cases c
      case loadCard =>
        exact loadCard_keeps hs (fun a ha => ha.publish) (fun a t ans ha => ha.reply t ans)
          (fun r hr hallowed _ _ => hs.commit hr hallowed) h
      all_goals cases hc
    all_goals cases hb

end Sys2Proof.Machine

/-! The queue and time (logs 1 to 4): which command a step takes, and what an event that has not come about does. -/

namespace Sys2Proof.Machine

/-- Settles O1: the queue gives up its front command. -/
theorem stepTakesTheFrontCommand : Obligations.StepTakesTheFrontCommand := by
  intro c rest s h
  simp only [step, h]

/-! ## Events and when they come about -/

theorem internal_isNext (s : State) (g : Bool) (act : State → State) : ∃ t, internal s g act = .next t := by
  unfold internal
  split
  · exact ⟨_, rfl⟩
  · exact ⟨_, rfl⟩

/-- What comes about in the part itself: every event of a block but what a line brings from outside. -/
def fromWithin (c : Instr) : Bool :=
  match c with
  | .frameReceive .. | .hold .. => false
  | c => (blockOf c).isSome

/-- Every event of a block is `internal`: it changes nothing where `ready` says that it has not come about. -/
theorem exec_event_shape {c : Instr} {b : Block} (hb : blockOf c = some b) (s : State) :
    (∃ t, exec c s = .next t) ∧ (fromWithin c = true → s.ready c = false → exec c s = .next s) := by
  cases c
  case hostMemoryRead | hostMemoryWrite | identRead | start | softReset | attentionClear
      | attentionMaskWrite | secondsLowRead | registerWriteDiscarded | powerOnReset | resetRelease | itemValidation | contactConfirm | pulseCount =>
    cases hb
  all_goals
    simp only [exec, execSecondsIncrement, execControlEvent, execPostEvent, execCardTake, execCardCompletion,
      execDeadlineExpiry, execMarkCard, execLoadCard, execReadCard, execZeroCard, execClearSummaryCard, execChannelServiceCard,
      execFanRequestCard, execFanServiceCard, execFanResetCard, execDoorModeCard, execDoorServiceCard, execDoorResetCard,
      execDeclareCard, execAcknowledgeCard, execClearCard, execFanRunningContact, execFanFaultContact, execFanLocalContact,
      execDoorClosedContact, execDoorBoltedContact, execDoorPushContact, execGateWindowEnd, execWindowHandover,
      execTachHandover, execZoneReevaluation, execConfirmTimerExpiry, execCreationRequest, execSlotFreed, execIncidentFreed,
      execDemandLevelChange, execZoneLoadCommit, execPlacementChange, execGalleryDemandChange, execStartLimitExpiry,
      execSettleExpiry, execRundownExpiry, execAvailabilityChange, execFanItemChange, execGoverningChange, execDeficitDelivery,
      execIncidentDelivery, execPressureReading, execBoltTimerExpiry, execReliefClockExpiry, execAssistTimerExpiry,
      execHeldOpenExpiry, execNotice, execRefreshTimerExpiry, execStaleTimerExpiry, execClearingTimerExpiry,
      execClearedEntryExpiry, execNoticeEnqueue, execFrameReceive, execIncompleteFrame, execHold, execHelloTaken,
      execIncidentFrameTaken, execHelloTimerExpiry, execAgingTimerExpiry, execHoldTimerExpiry, execHoldRepeatExpiry,
      execFrameBegin, execFrameEnd, execSpeedReferencePeriodStart, execLineIdleAfterReject]
    refine ⟨internal_isNext _ _ _, fun hown h => ?_⟩
  case frameReceive | hold => cases hown
  all_goals
    refine internal_idle ?_
    simpa only [State.ready, Bool.and_assoc] using h

/-- The part's own events are the events of its blocks and the item validation. -/
theorem ownEvents_block : ∀ c ∈ ownEvents, fromWithin c = true ∨ c = .itemValidation := by
  decide +kernel

/-- Every command ends in a state. -/
theorem exec_isNext (c : Instr) (s : State) : ∃ t, exec c s = .next t := by
  cases hb : blockOf c with
  | some b => exact (exec_event_shape hb s).1
  | none =>
    cases c
    case hostMemoryRead => simp only [exec, execHostMemoryRead]; split <;> exact ⟨_, rfl⟩
    case hostMemoryWrite => simp only [exec, execHostMemoryWrite]; split <;> exact ⟨_, rfl⟩
    case contactConfirm => simp only [exec, execContactConfirm]; split <;> exact ⟨_, rfl⟩
    case pulseCount input _ => cases input <;> exact ⟨_, rfl⟩
    case itemValidation =>
      simp only [exec, execItemValidation]
      split
      · split <;> exact ⟨_, rfl⟩
      · exact ⟨_, rfl⟩
    case identRead | secondsLowRead | start | softReset | attentionClear | attentionMaskWrite | registerWriteDiscarded
        | powerOnReset | resetRelease => exact ⟨_, rfl⟩
    all_goals cases hb

/-- Settles O3: every event is `internal`, and the other commands always end in a state. -/
theorem everyCommandHasANextStateAndEarlyEventsChangeNothing :
    Obligations.EveryCommandHasANextStateAndEarlyEventsChangeNothing := by
  refine ⟨exec_isNext, fun c s hc h => ?_⟩
  obtain hown | rfl := ownEvents_block c hc
  · have hsome : (blockOf c).isSome = true := by
      cases c
      case frameReceive | hold => rfl
      all_goals exact hown
    obtain ⟨b, hb⟩ := Option.isSome_iff_exists.mp hsome
    exact (exec_event_shape hb s).2 hown h
  · have hnot : s.validating = false := h
    simp only [exec, execItemValidation, hnot, Bool.false_eq_true, if_false]

/-! ## An empty queue -/

theorem samplesDue_iff (s : State) : s.samplesDue = true ↔ (∃ i : Fin 36, s.contacts[i].due = true) ∨
    (∃ i : Fin 12, s.measured[i].SampleDue) ∨ ∃ i : Fin 8, s.tach[i].SampleDue := by
  simp only [State.samplesDue, anyEntry, Bool.or_eq_true, List.any_eq_true, List.mem_finRange, true_and, decide_eq_true_eq,
    due_pos_iff, or_assoc]

/-- The tick counts a gate down on its own time base. -/
theorem tickOn_eq (now : Nat) (g : Gate) : g.tickOn now = { g with remaining :=
    if (now - g.windowStart) % g.tick.ms = 0 then g.remaining - 1 else g.remaining } := by
  unfold Gate.tickOn
  by_cases hbase : (now - g.windowStart) % g.tick.ms = 0
  · by_cases hleft : 0 < g.remaining
    · rw [if_pos ⟨hleft, hbase⟩, if_pos hbase]
    · have hzero : g.remaining = 0 := by omega
      rw [if_neg fun h => hleft h.1, if_pos hbase, hzero]
      cases g
      simp_all
  · rw [if_neg fun h => hbase h.2, if_neg hbase]

/-- Settles O2: `readyEvent` finds an event of the part's own; without one, a running part takes the samples to come or ticks. -/
theorem emptyQueueTakesAReadyEventElseATick : Obligations.EmptyQueueTakesAReadyEventElseATick := by
  intro s hempty
  refine ⟨fun c hc => ⟨List.find?_some hc, List.mem_of_find?_eq_some hc, by simp only [step, hempty, hc]⟩, fun hnone => ?_⟩
  have hstep : step s = .next (if s.samplesWait then s.takeSamples else s.tick) := by simp only [step, hempty, hnone]
  refine ⟨fun hr hcome => ?_, fun hr hcome => ?_, fun hr => ?_⟩
  · have hwait : s.samplesWait = true := by rw [State.samplesWait, hr, (samplesDue_iff s).mpr hcome]; rfl
    rw [hwait, if_pos rfl] at hstep
    refine ⟨_, hstep, fun i => ?_, fun i => ?_, fun i => ?_, rfl⟩
    · have hchanges : s.takeSamples.mail.contactChanges[i] =
          s.mail.contactChanges[i] ++ (s.contacts[i].takeDue s.now).2.toList := Vector.getElem_ofFn _
      rw [hchanges]
      simp only [State.takeSamples, mapTable_get]
      refine ⟨takeDue_takes _ _ _, fun hdue => ?_⟩
      rw [takeDue_none _ _ hdue]
      exact ⟨rfl, List.append_nil _⟩
    · simp only [State.takeSamples, mapTable_get]
      exact takeDue_takesDue _
    · simp only [State.takeSamples, mapTable_get]
      exact takeDue_takesDue _
  · have hwait : s.samplesWait = false := by
      rw [State.samplesWait, hr, Bool.true_and, Bool.eq_false_iff]
      exact mt (samplesDue_iff s).mp hcome
    have htick : s.tick = State.tickInputs { s with now := s.now + 1 } := if_pos hr
    rw [hwait, if_neg nofun, htick] at hstep
    refine ⟨_, hstep, fun i => ?_, fun i => ?_, fun i => ?_, fun g => ?_, rfl⟩
    all_goals simp only [State.tickInputs, mapTable_get]
    · rfl
    · rfl
    · exact tickOn_eq _ _
  · have hwait : s.samplesWait = false := by rw [State.samplesWait, hr]; rfl
    have htick : s.tick = { s with now := s.now + 1 } := if_neg (by rw [State.running] at hr ⊢; simpa using hr)
    rw [hstep, hwait, if_neg nofun, htick]

end Sys2Proof.Machine

/-! Host accesses (sections 1.1 to 1.6): the registers, START and the resets, and the common memory. -/

namespace Sys2Proof.Machine

/-! ## The registers -/

theorem exec_registerRead (o : Offset) (s : State) :
    ∀ c ∈ [Instr.identRead o, .secondsLowRead o], exec c s = .next (s.registerRead o) := by
  intro c hc
  simp only [List.mem_cons, List.not_mem_nil, or_false] at hc
  rcases hc with rfl | rfl <;> rfl

theorem exec_registerWrite (o : Offset) (v : Word) (s : State) :
    ∀ c ∈ [Instr.start v o, .softReset v o, .attentionClear v o, .attentionMaskWrite v o, .registerWriteDiscarded v o],
      exec c s = .next (s.registerWrite o v) := by
  intro c hc
  simp only [List.mem_cons, List.not_mem_nil, or_false] at hc
  rcases hc with rfl | rfl | rfl | rfl | rfl <;> rfl

theorem registerRead_eq {s : State} (hreset : s.resetAsserted = false) (o : Offset) : s.registerRead o =
    { s with hd := s.regs.word (o.toNat % 16 / 2), regs := s.regs.afterRead (o.toNat % 16 / 2) } := by
  simp only [State.registerRead, hreset, Bool.false_eq_true, if_false, registerPosition_eq]

/-- The run state register: the state and, after a failed START, the item and the reason (section 1.6). -/
theorem runStateWord_eq (r : Registers) : r.runStateWord =
    BitVec.ofNat 16 (if r.runState = .starting then 1 else if r.runState = .running then 2
      else if r.runState = .configFault then 3 else 0) |||
    BitVec.ofNat 16 r.failClass <<< 4 ||| BitVec.ofNat 16 r.failIndex <<< 8 |||
    BitVec.ofNat 16 (if r.failReason = some .range then 1 else if r.failReason = some .order then 2
      else if r.failReason = some .reference then 3 else 0) <<< 12 := by
  have hstate : r.runState.code = if r.runState = .starting then 1 else if r.runState = .running then 2
      else if r.runState = .configFault then 3 else 0 := by
    cases r.runState <;> rfl
  have hreason : (r.failReason.map ValReason.code).getD 0 = if r.failReason = some .range then 1
      else if r.failReason = some .order then 2 else if r.failReason = some .reference then 3 else 0 := by
    rcases r.failReason with _ | reason
    · rfl
    · cases reason <;> rfl
  simp only [Registers.runStateWord, wordNat, hstate, hreason]

theorem registerWrite_discarded {s : State} (hreset : s.resetAsserted = false) {o : Offset} (v : Word)
    (h1 : o.toNat % 16 / 2 ≠ 1) (h3 : o.toNat % 16 / 2 ≠ 3) (h4 : o.toNat % 16 / 2 ≠ 4) :
    s.registerWrite o v = s.discarded := by
  simp only [State.registerWrite, hreset, Bool.false_eq_true, if_false, registerPosition_eq]

theorem causeBits_getLsbD (n : Nat) : causeBits.getLsbD n = decide (n < 7) := by
  have hbits : causeBits = bitsOf 7 fun _ => true := by decide
  rw [hbits, bitsOf_getLsbD (by omega), Bool.and_true]

theorem attnLow_iff (s : State) :
    s.attnLow = true ↔ ∃ n, s.regs.attention.getLsbD n = true ∧ s.regs.attentionMask.getLsbD n = true := by
  simp only [State.attnLow, bne_iff_ne]
  constructor
  · intro h
    by_contra hnone
    push Not at hnone
    refine h (BitVec.eq_of_getLsbD_eq fun n _ => ?_)
    rw [BitVec.getLsbD_and, BitVec.ofNat_eq_ofNat, BitVec.getLsbD_zero, Bool.and_eq_false_iff]
    cases ha : s.regs.attention.getLsbD n
    · exact .inl rfl
    · exact .inr (by simpa using hnone n ha)
  · rintro ⟨n, ha, hm⟩ hzero
    have hbit : (s.regs.attention &&& s.regs.attentionMask).getLsbD n = false := by
      rw [hzero, BitVec.ofNat_eq_ofNat, BitVec.getLsbD_zero]
    rw [BitVec.getLsbD_and, ha, hm] at hbit
    cases hbit

/-- Settles O6: the offset's position chooses the register. -/
theorem registersAreReadAndWritten : Obligations.RegistersAreReadAndWritten := by
  refine ⟨fun o s hreset c hc => ?_, fun o v s hreset c hc => ?_, attnLow_iff, fun o v s hreset => ⟨fun c hc => ?_, fun c hc => ?_⟩⟩
  · rw [exec_registerRead o s c hc, registerRead_eq hreset]
    refine ⟨fun h => ?_, fun h => ?_, fun h => ?_, fun h => ?_, fun h => ?_, fun h => ?_⟩
    · rw [h]; rfl
    · rcases h with h | h <;> rw [h] <;> rfl
    · rw [h]
      simp only [Registers.word, Registers.afterRead, runStateWord_eq]
    all_goals rw [h]; rfl
  · rw [exec_registerWrite o v s c hc]
    refine ⟨fun h => ?_, fun h => ⟨_, rfl, ?_⟩, fun h => ⟨_, rfl, ?_⟩⟩
    · rw [registerWrite_discarded hreset v (by omega) (by omega) (by omega)]
      rfl
    · have hwrite : s.registerWrite o v = { s with regs := { s.regs with attention := s.regs.attention &&& ~~~v } } := by
        simp only [State.registerWrite, hreset, Bool.false_eq_true, if_false, registerPosition_eq, h]
      rw [hwrite]
      refine ⟨fun n => ?_, rfl⟩
      rw [BitVec.getLsbD_and, BitVec.getLsbD_not]
      by_cases hn : n < 16
      · rw [decide_eq_true hn, Bool.true_and]
      · rw [BitVec.getLsbD_of_ge _ _ (by omega)]; rfl
    · have hwrite : s.registerWrite o v = { s with regs := { s.regs with attentionMask := v &&& causeBits } } := by
        simp only [State.registerWrite, hreset, Bool.false_eq_true, if_false, registerPosition_eq, h]
      rw [hwrite]
      refine ⟨fun n => ?_, rfl⟩
      rw [BitVec.getLsbD_and, causeBits_getLsbD]
  · have hread : s.registerRead o = { s with hd := 0 } := by simp only [State.registerRead, hreset, if_true]
    simp only [List.mem_cons, List.not_mem_nil, or_false] at hc
    rcases hc with rfl | rfl | rfl
    · simp only [exec, execHostMemoryRead, hreset, if_true]
    · exact congrArg Host.Outcome.next hread
    · exact congrArg Host.Outcome.next hread
  · have hwrite : s.registerWrite o v = s := by simp only [State.registerWrite, hreset, if_true]
    obtain rfl | hc := List.mem_cons.mp hc
    · simp only [exec, execHostMemoryWrite, hreset, if_true]
    · rw [exec_registerWrite o v s c hc, hwrite]

/-- The two words of a doubleword, put together again. -/
theorem dwordHigh_append_dwordLow (d : DWord) : dwordHigh d ++ dwordLow d = d := by
  refine BitVec.eq_of_getLsbD_eq fun n hn => ?_
  rw [BitVec.getLsbD_append, dwordLow, dwordHigh, BitVec.getLsbD_setWidth, BitVec.getLsbD_setWidth, BitVec.getLsbD_ushiftRight]
  by_cases hlow : n < 16
  · rw [if_pos hlow, decide_eq_true hlow, Bool.true_and]
  · have hhigh : n - 16 < 16 := by omega
    have hsum : 16 + (n - 16) = n := by omega
    rw [if_neg hlow, decide_eq_true hhigh, Bool.true_and, hsum]

/-- Counting a second shows in no record. -/
theorem publish_countSecond (s : State) : publish s s.countSecond = s.countSecond :=
  publish_eq_self (fun r => by cases r <;> rfl) rfl

/-- Settles O7: a read of the low word latches the high one. -/
theorem secondsCountAndAreReadInOnePiece : Obligations.SecondsCountAndAreReadInOnePiece := by
  intro s
  refine ⟨fun o ho hreset c hc => ⟨_, exec_registerRead o s c hc, ?_⟩, fun hr hdue => ?_, fun hr hdue => ?_⟩
  · rw [registerRead_eq hreset, ho]
    exact ⟨dwordHigh_append_dwordLow s.regs.seconds, rfl⟩
  · have hdue : s.secondDue = true := decide_eq_true hdue
    have hacts : exec .secondsIncrement s = .next (publish s s.countSecond) := internal_acts hr hdue
    rw [hacts, publish_countSecond]
    rfl
  · refine internal_idle ?_
    simp [State.secondDue, Nat.not_le.mpr hdue]

/-! ## START and the resets -/

/-- A record of a part that does not run reads as zero. -/
theorem recordWords_of_not_running {s : State} (h : s.running = false) (r : RecordId) (k : Nat) :
    (s.recordWords r)[k]?.getD 0 = 0 := by
  simp only [State.recordWords, h, Bool.false_eq_true, if_false, List.getElem?_nil, Option.getD_none]

theorem registerWrite_control {s : State} (hreset : s.resetAsserted = false) {o : Offset} (h : o.toNat % 16 / 2 = 1) (v : Word) :
    s.registerWrite o v = s.controlWrite v := by
  simp only [State.registerWrite, hreset, Bool.false_eq_true, if_false, registerPosition_eq, h]

theorem softReset_contact (s : State) (i : Fin 36) :
    s.softReset.contacts[i] = { State.reset.contacts[i] with pin := s.contacts[i].pin } := by
  simp [State.softReset, State.reset, mapTable]

theorem softReset_measured (s : State) (i : Fin 12) :
    s.softReset.measured[i] = { State.reset.measured[i] with pin := s.measured[i].pin } := by
  simp [State.softReset, State.reset, mapTable]

theorem softReset_tach (s : State) (i : Fin 8) :
    s.softReset.tach[i] = { State.reset.tach[i] with pin := s.tach[i].pin } := by
  simp [State.softReset, State.reset, mapTable]

/-- With every pin low, a power-on reset leaves the state right after reset. -/
theorem powerOnReset_of_low {s : State} (hcontacts : ∀ i : Fin 36, s.contacts[i].pin = false)
    (hmeasured : ∀ i : Fin 12, s.measured[i].pin = false) (htach : ∀ i : Fin 8, s.tach[i].pin = false) :
    { s.powerOnReset with resetAsserted := false, pending := [], now := 0, hd := 0 } = State.reset := by
  have hc : s.powerOnReset.contacts = State.reset.contacts := by
    refine Vector.ext fun i hi => ?_
    refine (softReset_contact s ⟨i, hi⟩).trans ?_
    rw [hcontacts]
    simp [State.reset, Contact.reset]
  have hm : s.powerOnReset.measured = State.reset.measured := by
    refine Vector.ext fun i hi => ?_
    refine (softReset_measured s ⟨i, hi⟩).trans ?_
    rw [hmeasured]
    simp [State.reset, Pulse.reset]
  have ht : s.powerOnReset.tach = State.reset.tach := by
    refine Vector.ext fun i hi => ?_
    refine (softReset_tach s ⟨i, hi⟩).trans ?_
    rw [htach]
    simp [State.reset, Pulse.reset]
  have hpower : { s.powerOnReset with resetAsserted := false, pending := [], now := 0, hd := 0 } = { State.reset with
      contacts := s.powerOnReset.contacts, measured := s.powerOnReset.measured, tach := s.powerOnReset.tach } := rfl
  rw [hpower, hc, hm, ht]

/-- Settles O8: the control register starts a part that waits for START, or resets it. -/
theorem startAndResetsMoveTheRunState : Obligations.StartAndResetsMoveTheRunState := by
  refine ⟨fun o v s ho hreset c hc => ?_, fun s => ⟨⟨_, rfl, rfl, fun _ => rfl, rfl, rfl, powerOnReset_of_low⟩, rfl⟩⟩
  rw [exec_registerWrite o v s c hc, registerWrite_control hreset ho]
  refine ⟨fun h1 h0 hstate => ⟨_, rfl, ?_⟩, fun h1 h0 hstate => ?_, fun h1 h0 => ?_, fun h1 => ⟨_, rfl, ?_⟩⟩
  · have htakes : s.regs.runState.takesStart = true := by rcases hstate with h | h <;> rw [h] <;> rfl
    have hstart : s.controlWrite v = { s with regs := s.regs.startUp, candidate := ActiveConfig.zero } := by
      simp only [State.controlWrite, h1, h0, State.start, htakes, Bool.false_eq_true, if_false, if_true]
    rw [hstart]
    refine ⟨rfl, ?_, rfl, rfl⟩
    simp [Registers.runStateWord, Registers.startUp, RunState.code, wordNat]
  · have htakes : s.regs.runState.takesStart = false := by rcases hstate with h | h <;> rw [h] <;> rfl
    simp only [State.controlWrite, h1, h0, State.start, htakes, Bool.false_eq_true, if_false, if_true]
  · simp only [State.controlWrite, h1, h0, Bool.false_eq_true, if_false]
  · have hwrite : s.controlWrite v = s.softReset := by simp only [State.controlWrite, h1, if_true]
    rw [hwrite]
    have hfans (f : Fin 8) : s.softReset.fans.fans[f] = Fan.reset := by simp [State.softReset, State.reset, FanUnit.reset]
    have hdoors (d : Fin 4) : s.softReset.doors.doors[d] = Door.reset := by simp [State.softReset, State.reset, DoorUnit.reset]
    have hdecks (d : Fin 4) : s.softReset.decks[d] = Deck.reset := by simp [State.softReset, State.reset]
    have hword : Registers.reset.runStateWord = 0 := by decide
    refine ⟨rfl, rfl, rfl, rfl, rfl, rfl, hword, rfl, fun w => ?_, rfl, fun d k => ?_, fun r k => recordWords_of_not_running rfl r k,
      rfl, rfl, rfl, fun f => ⟨?_, ?_, ?_⟩, fun d => ⟨?_, ?_⟩, fun k => ?_, softReset_contact s, softReset_measured s,
      softReset_tach s, ?_⟩
    · simp [State.softReset, State.reset]
    · rw [hdecks]
      unfold Deck.headerWord
      split <;> rfl
    · rw [hfans]; rfl
    · rw [hfans]; rfl
    · simp [State.softReset, State.reset]
    · rw [hdoors]; rfl
    · rw [hdoors]; rfl
    · simp [State.softReset, State.reset, IncidentUnit.reset]
    · have hsoft : s.softReset = { State.reset with
          pending := s.pending, now := s.now, hd := s.hd, resetAsserted := s.resetAsserted
          cm := { State.reset.cm with bytes := s.cm.bytes }, contacts := s.softReset.contacts
          measured := s.softReset.measured, tach := s.softReset.tach } := rfl
      rw [hreset] at hsoft
      exact hsoft

end Sys2Proof.Machine

/-! Host accesses to the common memory (sections 1.1 to 1.4): where the records lie, and what a read and a write do by region. -/

namespace Sys2Proof.Machine

/-! ## Where the records lie -/

section
variable {k : Nat}

theorem recordAt_channel (hk : k < 16) (i : Fin 12) : recordAt (0x0850 + 32 * i.val + 2 * k) = some (.channel i, k) := by
  unfold recordAt
  rw [if_neg (by omega), dif_pos (by omega)]
  simp only [Option.some.injEq, Prod.mk.injEq, RecordId.channel.injEq, Fin.ext_iff]
  omega

theorem recordAt_fan (hk : k < 16) (i : Fin 8) : recordAt (0x09D0 + 32 * i.val + 2 * k) = some (.fan i, k) := by
  unfold recordAt
  rw [if_neg (by omega), dif_neg (by omega), dif_pos (by omega)]
  simp only [Option.some.injEq, Prod.mk.injEq, RecordId.fan.injEq, Fin.ext_iff]
  omega

theorem recordAt_door (hk : k < 8) (i : Fin 4) : recordAt (0x0AD0 + 16 * i.val + 2 * k) = some (.door i, k) := by
  unfold recordAt
  rw [if_neg (by omega), dif_neg (by omega), dif_neg (by omega), dif_pos (by omega)]
  simp only [Option.some.injEq, Prod.mk.injEq, RecordId.door.injEq, Fin.ext_iff]
  omega

theorem recordAt_zone (hk : k < 8) (i : Fin 8) : recordAt (0x0B10 + 16 * i.val + 2 * k) = some (.zone i, k) := by
  unfold recordAt
  rw [if_neg (by omega), dif_neg (by omega), dif_neg (by omega), dif_neg (by omega), dif_pos (by omega)]
  simp only [Option.some.injEq, Prod.mk.injEq, RecordId.zone.injEq, Fin.ext_iff]
  omega

theorem recordAt_incident (hk : k < 16) (i : Fin 4) : recordAt (0x0B90 + 32 * i.val + 2 * k) = some (.incident i, k) := by
  unfold recordAt
  rw [if_neg (by omega), dif_neg (by omega), dif_neg (by omega), dif_neg (by omega), dif_neg (by omega), dif_pos (by omega)]
  simp only [Option.some.injEq, Prod.mk.injEq, RecordId.incident.injEq, Fin.ext_iff]
  omega

/-- Above the tables stand the single records. -/
theorem recordAt_high {a : Nat} (ha : 0x0C10 ≤ a) : recordAt a =
    if a < 0x0C30 then some (.link .up, (a - 0x0C10) / 2)
    else if a < 0x0C50 then some (.link .down, (a - 0x0C30) / 2)
    else if a < 0x0C90 then some (.span, (a - 0x0C50) / 2)
    else if a < 0x0CA0 then some (.gallery, (a - 0x0C90) / 2)
    else if a < 0x0CE0 then some (.placement, (a - 0x0CA0) / 2)
    else none := by
  unfold recordAt
  rw [if_neg (by omega), dif_neg (by omega), dif_neg (by omega), dif_neg (by omega), dif_neg (by omega), dif_neg (by omega)]

theorem recordAt_linkUp (hk : k < 16) : recordAt (0x0C10 + 2 * k) = some (.link .up, k) := by
  rw [recordAt_high (by omega), if_pos (by omega)]
  simp

theorem recordAt_linkDown (hk : k < 16) : recordAt (0x0C30 + 2 * k) = some (.link .down, k) := by
  rw [recordAt_high (by omega), if_neg (by omega), if_pos (by omega)]
  simp

theorem recordAt_span (hk : k < 32) : recordAt (0x0C50 + 2 * k) = some (.span, k) := by
  rw [recordAt_high (by omega), if_neg (by omega), if_neg (by omega), if_pos (by omega)]
  simp

theorem recordAt_gallery (hk : k < 8) : recordAt (0x0C90 + 2 * k) = some (.gallery, k) := by
  rw [recordAt_high (by omega), if_neg (by omega), if_neg (by omega), if_neg (by omega), if_pos (by omega)]
  simp

theorem recordAt_placement (hk : k < 32) : recordAt (0x0CA0 + 2 * k) = some (.placement, k) := by
  rw [recordAt_high (by omega), if_neg (by omega), if_neg (by omega), if_neg (by omega), if_neg (by omega), if_pos (by omega)]
  simp

theorem recordAt_outside {a : Nat} (h : a < 0x0850 ∨ 0x0CE0 ≤ a) : recordAt a = none := by
  rcases h with h | h
  · unfold recordAt
    rw [if_pos h]
  · rw [recordAt_high (by omega), if_neg (by omega), if_neg (by omega), if_neg (by omega), if_neg (by omega), if_neg (by omega)]

end

theorem recordAt_bounds {a : Nat} {x : RecordId × Nat} (h : recordAt a = some x) : 0x0850 ≤ a ∧ a < 0x0CE0 := by
  by_contra hout
  rw [recordAt_outside (by omega)] at h
  cases h

/-! ## Reads -/

/-- HA0 is not decoded. -/
theorem wordOffset_even (o : Offset) : wordOffset (o &&& 0x7FFE) = wordOffset o := by
  have hbits : o &&& (0x7FFE : Offset) = (o >>> 1) <<< 1 := by
    refine BitVec.eq_of_getLsbD_eq fun n hn => ?_
    have hconst : (0x7FFE : Offset) = ~~~1 := by decide
    rw [BitVec.getLsbD_and, hconst, BitVec.getLsbD_not, BitVec.getLsbD_shiftLeft, BitVec.getLsbD_ushiftRight]
    cases n with
    | zero => simp
    | succ n => simp [hn, Nat.add_comm]
  have hlt := o.isLt
  simp only [wordOffset]
  rw [hbits, BitVec.toNat_shiftLeft, BitVec.toNat_ushiftRight, Nat.shiftLeft_eq, Nat.shiftRight_eq_div_pow]
  omega

section
variable (s : State) {a : Nat}

theorem hostRead_outside (h : a < 0x0850 ∨ 0x1000 ≤ a) : s.hostRead a = (s.liveWord a, none) := by
  have himage : inImage a = false := by
    simp only [inImage, Bool.and_eq_false_iff, decide_eq_false_iff_not]
    omega
  simp only [State.hostRead, himage, Bool.false_eq_true, if_false]

theorem inImage_eq (h : 0x0850 ≤ a) (h2 : a < 0x1000) : inImage a = true := by
  simp only [inImage, Bool.and_eq_true, decide_eq_true_eq]
  omega

theorem hostRead_no_record (h : 0x0850 ≤ a) (h2 : a < 0x1000) (hr : recordAt a = none) : s.hostRead a = (0, s.cm.latch) := by
  simp only [State.hostRead, inImage_eq h h2, if_true, hr]

/-- The first word of a record latches it. -/
theorem hostRead_record_start {r : RecordId} (hr : recordAt a = some (r, 0)) :
    s.hostRead a = (s.liveWord a, some { record := r, words := s.recordWords r }) := by
  obtain ⟨hlow, hhigh⟩ := recordAt_bounds hr
  simp only [State.hostRead, inImage_eq hlow (by omega), if_true, hr]

theorem hostRead_latched {r : RecordId} {k : Nat} {l : Latch} (hr : recordAt a = some (r, k + 1)) (hl : s.cm.latch = some l)
    (hlr : l.record = r) : s.hostRead a = (l.words[k + 1]?.getD 0, s.cm.latch) := by
  obtain ⟨hlow, hhigh⟩ := recordAt_bounds hr
  simp only [State.hostRead, inImage_eq hlow (by omega), if_true, hr, hl, hlr, Nat.add_eq_zero_iff, one_ne_zero, and_false,
    if_false]

theorem hostRead_not_latched {r : RecordId} {k : Nat} (hr : recordAt a = some (r, k + 1))
    (hnot : ∀ l, s.cm.latch = some l → l.record ≠ r) : s.hostRead a = (s.liveWord a, s.cm.latch) := by
  obtain ⟨hlow, hhigh⟩ := recordAt_bounds hr
  simp only [State.hostRead, inImage_eq hlow (by omega), if_true, hr, Nat.add_eq_zero_iff, one_ne_zero, and_false, if_false]
  cases hl : s.cm.latch with
  | none => rfl
  | some l => simp only [if_neg (hnot l hl)]

theorem liveWord_bytes (h : a < 0x0800 ∨ 0x1000 ≤ a) : s.liveWord a = s.cm.bytes.readWord a := by
  unfold State.liveWord
  rcases h with h | h
  · rw [if_pos h]
  · rw [if_neg (by omega), if_neg (by omega), if_neg (by omega), if_neg (by omega)]

theorem liveWord_header (d : Fin 4) {j : Nat} (hj : j < 8) (ha : a = 0x0800 + 16 * d.val + 2 * j) :
    s.liveWord a = s.decks[d].headerWord j := by
  have hd : headerDeck a = d := by
    simp only [headerDeck, Fin.ext_iff]
    omega
  have hk : (a - 0x0800) % 16 / 2 = j := by omega
  have hlive : s.liveWord a = s.decks[headerDeck a].headerWord ((a - 0x0800) % 16 / 2) := by
    unfold State.liveWord
    rw [if_neg (by omega), if_pos (by omega)]
  rw [hlive, hk]
  exact congrArg (fun d : Fin 4 => s.decks[d].headerWord j) hd

theorem liveWord_mask (w : Fin 8) (ha : a = 0x0840 + 2 * w.val) : s.liveWord a = s.cm.masks[w] := by
  have hw : maskIndex a = w := by
    simp only [maskIndex, Fin.ext_iff]
    omega
  have hlive : s.liveWord a = s.cm.masks[maskIndex a] := by
    unfold State.liveWord
    rw [if_neg (by omega), if_neg (by omega), if_pos (by omega)]
  rw [hlive]
  exact congrArg (fun w : Fin 8 => s.cm.masks[w]) hw

theorem liveWord_record {r : RecordId} {k : Nat} (h : recordAt a = some (r, k)) :
    s.liveWord a = (s.recordWords r)[k]?.getD 0 := by
  obtain ⟨hlow, hhigh⟩ := recordAt_bounds h
  unfold State.liveWord
  rw [if_neg (by omega), if_neg (by omega), if_neg (by omega), if_pos (by omega), h]

end

/-- Settles O4: a read returns the live word, or the latched one of the record that was read last from its start. -/
theorem hostMemoryReadReturnsTheLiveOrLatchedWord : Obligations.HostMemoryReadReturnsTheLiveOrLatchedWord := by
  intro o s hreset
  have hexec (o : Offset) : exec (.hostMemoryRead o) s = .next { s with
      hd := (s.hostRead (wordOffset o)).1, cm := { s.cm with latch := (s.hostRead (wordOffset o)).2 } } := by
    simp only [exec, execHostMemoryRead, hreset, Bool.false_eq_true, if_false]
  refine ⟨by rw [hexec, hexec, wordOffset_even], _, hexec o, rfl, ?_⟩
  generalize wordOffset o = a
  have hheader (d : Fin 4) (j : Nat) (hj : j < 8) (ha : a = 0x0800 + 16 * d.val + 2 * j) :
      (s.hostRead a).1 = s.decks[d].headerWord j := by
    rw [hostRead_outside s (by omega)]
    exact liveWord_header s d hj ha
  refine ⟨fun ha => by rw [hostRead_outside s ha], fun ha => ?_, fun d => ⟨hheader d 0 (by omega), hheader d 1 (by omega),
    hheader d 2 (by omega), hheader d 3 (by omega), hheader d 4 (by omega), hheader d 5 (by omega), hheader d 6 (by omega),
    hheader d 7 (by omega)⟩, fun w ha => ?_, fun hlow hhigh hnone => ?_, fun r hr => ?_, fun r k l hr hl hlr => ?_,
    fun r k hr hnot => ?_, fun k hk => ⟨recordAt_channel hk, recordAt_fan hk, recordAt_incident hk, recordAt_linkUp hk,
      recordAt_linkDown hk⟩, fun k hk => ⟨recordAt_door hk, recordAt_zone hk, recordAt_gallery hk⟩,
    fun k hk => ⟨recordAt_span hk, recordAt_placement hk⟩, fun x hx => recordAt_outside hx⟩
  · rw [hostRead_outside s (by omega), liveWord_bytes s ha]
    rfl
  · rw [hostRead_outside s (by omega)]
    exact liveWord_mask s w ha
  · rw [hostRead_no_record s hlow hhigh hnone]
    exact ⟨rfl, rfl⟩
  · rw [hostRead_record_start s hr]
    refine ⟨rfl, fun hrun => ?_, fun hrun => ?_⟩
    · refine (liveWord_record s hr).trans ?_
      simp only [State.recordWords, hrun, if_true, List.getElem?_cons_zero, Option.getD_some]
    · exact (liveWord_record s hr).trans (recordWords_of_not_running hrun r 0)
  · rw [hostRead_latched s hr hl hlr]
    exact ⟨rfl, rfl⟩
  · rw [hostRead_not_latched s hr hnot, ← liveWord_record s hr]
    exact ⟨rfl, rfl⟩

/-! ## Writes -/

section
variable (s : State) (v : Word) {a : Nat}

theorem hostWrite_bytes (ha : a < 0x0800 ∨ 0x1000 ≤ a) :
    s.hostWrite a v = { s with cm := { s.cm with bytes := s.cm.bytes.writeWord a v } } := by
  unfold State.hostWrite
  rcases ha with ha | ha
  · rw [if_pos ha]
  · rw [if_neg (by omega), if_neg (by omega), if_neg (by omega), if_neg (by omega)]

theorem hostWrite_header (hlow : 0x0800 ≤ a) (hhigh : a < 0x0840) :
    s.hostWrite a v = s.writeHeader (headerDeck a) ((a - 0x0800) % 16 / 2) v := by
  unfold State.hostWrite
  rw [if_neg (by omega), if_pos hhigh]

theorem hostWrite_mask (hlow : 0x0840 ≤ a) (hhigh : a < 0x0850) :
    s.hostWrite a v = { s with cm := { s.cm with masks := modify s.cm.masks (maskIndex a) (· &&& ~~~v) } } := by
  unfold State.hostWrite
  rw [if_neg (by omega), if_neg (by omega), if_pos hhigh]

theorem hostWrite_image (hlow : 0x0850 ≤ a) (hhigh : a < 0x1000) : s.hostWrite a v = s.discarded := by
  unfold State.hostWrite
  rw [if_neg (by omega), if_neg (by omega), if_neg (by omega), if_pos hhigh]

end

/-- What a write to one word of a deck's header does. -/
theorem writeHeader_acts (s : State) (v : Word) (d : Fin 4) (k : Nat) :
    let t := (s.writeHeader d k v).releaseLatch
    (k ≤ 1 → s.decks[d].state = .off →
      (k = 0 → t.decks[d] = { s.decks[d] with baseWord := v }) ∧
      (k = 1 → t.decks[d] = { s.decks[d] with lengthWord := v }) ∧
      t = { s with cm := { s.cm with latch := none }, decks := t.decks }) ∧
    (k ≤ 1 → s.decks[d].state ≠ .off → t = { s with cm := { s.cm with latch := none }, regs := s.regs.raise .access }) ∧
    (k = 2 ∨ k = 3 →
      (k = 2 → t.decks[d] = { s.decks[d] with controlWord := v }) ∧
      (k = 3 → t.decks[d] = { s.decks[d] with postWord := v }) ∧
      (s.running = true → t.mail.deckEvents[d] =
        s.mail.deckEvents[d] ++ [if k = 2 then DeckEvent.control v else DeckEvent.post v]) ∧
      (s.running = false → t.mail = s.mail) ∧
      (∀ j : Fin 4, j ≠ d → t.mail.deckEvents[j] = s.mail.deckEvents[j]) ∧
      t = { s with cm := { s.cm with latch := none }, decks := t.decks
                   mail := { s.mail with deckEvents := t.mail.deckEvents } }) ∧
    (4 ≤ k → t = { s with cm := { s.cm with latch := none }, regs := s.regs.raise .access }) ∧
    (∀ j : Fin 4, j ≠ d → t.decks[j] = s.decks[j]) := by
  have hdeliver (e : DeckEvent) (g : Deck → Deck) (hwrite : s.writeHeader d k v = { s with
      decks := modify s.decks d g
      mail := if s.running then { s.mail with deckEvents := modify s.mail.deckEvents d (· ++ [e]) } else s.mail }) :
      let t := (s.writeHeader d k v).releaseLatch
      t.decks[d] = g s.decks[d] ∧ (s.running = true → t.mail.deckEvents[d] = s.mail.deckEvents[d] ++ [e]) ∧
      (s.running = false → t.mail = s.mail) ∧ (∀ j : Fin 4, j ≠ d → t.mail.deckEvents[j] = s.mail.deckEvents[j]) ∧
      t = { s with cm := { s.cm with latch := none }, decks := t.decks
                   mail := { s.mail with deckEvents := t.mail.deckEvents } } ∧
      (∀ j : Fin 4, j ≠ d → t.decks[j] = s.decks[j]) := by
    rw [hwrite]
    refine ⟨modify_get_same _ _ _, fun hr => ?_, fun hr => ?_, fun j hj => ?_, ?_, fun j hj => modify_get_other _ _ hj⟩
    · simp only [State.releaseLatch, hr, if_true]
      exact modify_get_same _ _ _
    · simp only [State.releaseLatch, hr, Bool.false_eq_true, if_false]
    · simp only [State.releaseLatch]
      split
      · exact modify_get_other _ _ hj
      · rfl
    · simp only [State.releaseLatch]
      split <;> rfl
  have hlayout (g : Deck → Deck) (hwrite : s.writeHeader d k v = { s with decks := modify s.decks d g }) :
      let t := (s.writeHeader d k v).releaseLatch
      t.decks[d] = g s.decks[d] ∧ t = { s with cm := { s.cm with latch := none }, decks := t.decks } ∧
      (∀ j : Fin 4, j ≠ d → t.decks[j] = s.decks[j]) := by
    rw [hwrite]
    exact ⟨modify_get_same _ _ _, rfl, fun j hj => modify_get_other _ _ hj⟩
  have hdiscarded (hwrite : s.writeHeader d k v = s.discarded) :
      (s.writeHeader d k v).releaseLatch = { s with cm := { s.cm with latch := none }, regs := s.regs.raise .access } ∧
      (∀ j : Fin 4, j ≠ d → (s.writeHeader d k v).releaseLatch.decks[j] = s.decks[j]) := by
    rw [hwrite]
    exact ⟨rfl, fun _ _ => rfl⟩
  match k, hdeliver, hlayout, hdiscarded with
  | 0, _, hlayout, hdiscarded =>
    by_cases hoff : s.decks[d].state = .off
    · obtain ⟨h1, h2, h3⟩ := hlayout ({ · with baseWord := v }) (if_pos hoff)
      exact ⟨fun _ _ => ⟨fun _ => h1, nofun, h2⟩, fun _ hon => absurd hoff hon, by simp, by simp, h3⟩
    · obtain ⟨h1, h2⟩ := hdiscarded (if_neg hoff)
      exact ⟨fun _ h => absurd h hoff, fun _ _ => h1, by simp, by simp, h2⟩
  | 1, _, hlayout, hdiscarded =>
    by_cases hoff : s.decks[d].state = .off
    · obtain ⟨h1, h2, h3⟩ := hlayout ({ · with lengthWord := v }) (if_pos hoff)
      exact ⟨fun _ _ => ⟨nofun, fun _ => h1, h2⟩, fun _ hon => absurd hoff hon, by simp, by simp, h3⟩
    · obtain ⟨h1, h2⟩ := hdiscarded (if_neg hoff)
      exact ⟨fun _ h => absurd h hoff, fun _ _ => h1, by simp, by simp, h2⟩
  | 2, hdeliver, _, _ =>
    obtain ⟨h1, h2, h3, h4, h5, h6⟩ := hdeliver (.control v) ({ · with controlWord := v }) rfl
    exact ⟨by simp, by simp, fun _ => ⟨fun _ => h1, nofun, h2, h3, h4, h5⟩, by simp, h6⟩
  | 3, hdeliver, _, _ =>
    obtain ⟨h1, h2, h3, h4, h5, h6⟩ := hdeliver (.post v) ({ · with postWord := v }) rfl
    exact ⟨by simp, by simp, fun _ => ⟨nofun, fun _ => h1, h2, h3, h4, h5⟩, by simp, h6⟩
  | k + 4, _, _, hdiscarded =>
    obtain ⟨h1, h2⟩ := hdiscarded rfl
    exact ⟨fun h => absurd h (by omega), fun h => absurd h (by omega), fun h => absurd h (by omega), fun _ => h1, h2⟩

/-- Settles O5: a write acts by the region of its word, and releases the latch. -/
theorem hostMemoryWriteActsByRegion : Obligations.HostMemoryWriteActsByRegion := by
  intro o v s hreset hwf
  have hexec : exec (.hostMemoryWrite o v) s = .next (s.hostWrite (wordOffset o) v).releaseLatch := by
    simp only [exec, execHostMemoryWrite, hreset, Bool.false_eq_true, if_false]
  refine ⟨_, hexec, rfl, ?_⟩
  intro a
  refine ⟨fun ha => ?_, fun hlow hhigh => ?_, ?_, ?_⟩
  · rw [hostWrite_bytes s v ha]
    exact ⟨rfl, Memory.readWord_writeWord_same a v hwf, fun x hx hx2 => Memory.read_writeWord_other v hx hx2⟩
  · rw [hostWrite_header s v hlow hhigh]
    exact writeHeader_acts s v _ _
  · intro hlow hhigh
    rw [hostWrite_mask s v hlow hhigh]
    exact ⟨modify_get_same _ _ _, fun w hw => modify_get_other _ _ hw, rfl⟩
  · intro hlow hhigh
    rw [hostWrite_image s v hlow hhigh]
    rfl

end Sys2Proof.Machine

/-! The status image (section 1.3): what publishing an event does to the sequences, the change masks and CHANGE. -/

namespace Sys2Proof.Machine

theorem recordAtPlace_place (r : RecordId) : recordAtPlace r.place = r := by
  cases r with
  | channel i => decide +revert
  | fan i => decide +revert
  | door i => decide +revert
  | zone i => decide +revert
  | incident i => decide +revert
  | link p => cases p <;> rfl
  | span | gallery | placement => rfl

theorem below_of_lt {n : Nat} (f : Fin n → Bool) (i : Fin n) : below n f i.val = f i := dif_pos i.isLt

/-- The bit of a table's record. -/
theorem bitsOf_below {count : Nat} (hcount : count ≤ 16) (f : Fin count → Bool) (i : Fin count) :
    (bitsOf count (below count f)).getLsbD i.val = f i := by
  rw [bitsOf_getLsbD hcount, below_of_lt, decide_eq_true i.isLt, Bool.true_and]

/-- An event marks the records that it changes, and no others. -/
theorem changedBits_record (b a : State) (r : RecordId) :
    (changedBits b a r.maskWord).getLsbD r.maskBit = recordChanged b a r := by
  cases r with
  | channel i => exact bitsOf_below (by omega) _ i
  | fan i => exact bitsOf_below (by omega) _ i
  | door i => exact bitsOf_below (by omega) _ i
  | zone i => exact bitsOf_below (by omega) _ i
  | incident i => exact bitsOf_below (by omega) _ i
  | link p =>
    cases p
    · show (flagBit 0 _ ||| flagBit 1 _).getLsbD 0 = _
      simp [flagBit_getLsbD, -BitVec.getLsbD_eq_getElem]
    · show (flagBit 0 _ ||| flagBit 1 _).getLsbD 1 = _
      simp [flagBit_getLsbD, -BitVec.getLsbD_eq_getElem]
  | span =>
    show (flagBit 0 _ ||| flagBit 1 _ ||| flagBit 2 _).getLsbD 0 = _
    simp [flagBit_getLsbD, -BitVec.getLsbD_eq_getElem]
  | gallery =>
    show (flagBit 0 _ ||| flagBit 1 _ ||| flagBit 2 _).getLsbD 1 = _
    simp [flagBit_getLsbD, -BitVec.getLsbD_eq_getElem]
  | placement =>
    show (flagBit 0 _ ||| flagBit 1 _ ||| flagBit 2 _).getLsbD 2 = _
    simp [flagBit_getLsbD, -BitVec.getLsbD_eq_getElem]

theorem changedBits_deck (b a : State) (d : Fin 4) : (changedBits b a 7).getLsbD d.val = deckChanged b a d :=
  bitsOf_below (count := 4) (by omega) _ d

section
variable (b a : State)

theorem publish_mask (w : Fin 8) : (publish b a).cm.masks[w] = a.cm.masks[w] ||| changedBits b a w := by
  simp [publish]

theorem publish_sequence (r : RecordId) : (publish b a).cm.sequences[r.place] =
    if recordChanged b a r then a.cm.sequences[r.place] + 1 else a.cm.sequences[r.place] := by
  have hplace : (publish b a).cm.sequences[r.place] = if recordChanged b a (recordAtPlace r.place)
      then a.cm.sequences[r.place] + 1 else a.cm.sequences[r.place] := Vector.getElem_ofFn _
  rw [hplace, recordAtPlace_place]

theorem publish_marked (r : RecordId) : (publish b a).marked r = (a.marked r || recordChanged b a r) := by
  unfold State.marked
  rw [publish_mask, BitVec.getLsbD_or, changedBits_record]

/-- A bit of one word that another lacks. -/
theorem and_not_ne_zero_iff (x y : Word) :
    ((x &&& ~~~y) != 0) = true ↔ ∃ n, x.getLsbD n = true ∧ y.getLsbD n = false := by
  rw [bne_iff_ne]
  constructor
  · intro h
    by_contra hnone
    push Not at hnone
    refine h (BitVec.eq_of_getLsbD_eq fun n hn => ?_)
    rw [BitVec.getLsbD_and, BitVec.getLsbD_not, decide_eq_true hn, Bool.true_and, BitVec.ofNat_eq_ofNat, BitVec.getLsbD_zero]
    cases hx : x.getLsbD n
    · rfl
    · simpa using hnone n hx
  · rintro ⟨n, hx, hy⟩ hzero
    have hn : n < 16 := by
      by_contra hn
      rw [BitVec.getLsbD_of_ge _ _ (by omega)] at hx
      cases hx
    have hbit : (x &&& ~~~y).getLsbD n = false := by rw [hzero, BitVec.ofNat_eq_ofNat, BitVec.getLsbD_zero]
    rw [BitVec.getLsbD_and, BitVec.getLsbD_not, decide_eq_true hn, hx, hy] at hbit
    cases hbit

theorem raiseIf_getLsbD_of_ne (r : Registers) (fresh : Bool) (c : Cause) {n : Nat} (hn : n ≠ c.bit) :
    (r.raiseIf fresh c).attention.getLsbD n = r.attention.getLsbD n := by
  have hbit : c.bit < 16 := by cases c <;> decide
  cases fresh
  · rfl
  · simp only [Registers.raiseIf, Registers.raise, if_true, BitVec.getLsbD_or, flagBit_getLsbD hbit, hn, decide_false, Bool.and_false,
      Bool.or_false]

theorem raise_has (r : Registers) (c : Cause) : (r.raise c).has c = true := by
  have hbit : c.bit < 16 := by cases c <;> decide
  simp only [Registers.has, Registers.raise, BitVec.getLsbD_or, flagBit_getLsbD hbit, decide_true, Bool.and_true, Bool.or_true]

end

/-- Settles O10: the records and decks that an event changes are those whose bits it marks; CHANGE says that one is new. -/
theorem publishingIncrementsSequencesAndSetsMaskBits : Obligations.PublishingIncrementsSequencesAndSetsMaskBits := by
  intro b a
  refine ⟨_, rfl, fun r hr => ?_, fun r hr => ?_, fun d => ?_, ?_, fun n hn => raiseIf_getLsbD_of_ne _ _ .change hn, ?_⟩
  · have hchanged : recordChanged b a r = true := decide_eq_true hr
    rw [publish_sequence, publish_marked, hchanged, Bool.or_true]
    exact ⟨rfl, rfl⟩
  · have hchanged : recordChanged b a r = false := decide_eq_false (not_not_intro hr)
    rw [publish_sequence, publish_marked, hchanged, Bool.or_false]
    exact ⟨rfl, rfl⟩
  · rw [publish_mask, BitVec.getLsbD_or, changedBits_deck, deckChanged, Bool.or_assoc]
  · have hfresh : ((List.finRange 8).any fun w => (changedBits b a w &&& ~~~a.cm.masks[w]) != 0) = true ↔
        ∃ (w : Fin 8) (n : Nat), (publish b a).cm.masks[w].getLsbD n = true ∧ a.cm.masks[w].getLsbD n = false := by
      rw [List.any_eq_true]
      refine exists_congr fun w => ?_
      rw [and_not_ne_zero_iff, and_iff_right (List.mem_finRange w)]
      refine exists_congr fun n => and_congr_left fun hold => ?_
      rw [publish_mask, BitVec.getLsbD_or, hold, Bool.false_or]
    rw [← hfresh]
    show (a.regs.raiseIf _ .change).has .change = true ↔ _
    cases (List.finRange 8).any fun w => (changedBits b a w &&& ~~~a.cm.masks[w]) != 0
    · simp [Registers.raiseIf]
    · exact iff_of_true (raise_has _ _) (.inr rfl)
  · show publish b a = _
    simp only [publish]
    rw [raiseIf_frame]

/-- Settles O60: each invariant holds at reset. -/
theorem theInvariantsHoldAtReset : Obligations.TheInvariantsHoldAtReset :=
  ⟨.reset, .reset, .reset, .reset, .of_reset rfl, .reset, .of_reset rfl, .reset⟩

end Sys2Proof.Machine

/-! Work decks (chapter 2): a post, the card that the arbiter grants, and what a completion writes in memory. -/

namespace Sys2Proof.Machine

/-! ## POST_EVENT (R24, R26) -/

theorem postEvent_acts {s : State} {d : Fin 4} {v : Word} {rest : List DeckEvent} {post : State → Prop}
    (hrunning : s.running = true) (hsettled : s.decks[d].finishing = none)
    (hevent : s.mail.deckEvents[d] = .post v :: rest)
    (hpost : post (({ s with mail := { s.mail with deckEvents := s.mail.deckEvents.set d rest } } : State).deckEvent d
      (Deck.post v))) :
    Acts (.postEvent d) s post := by
  have hwaiting : s.postWaiting d = true := by
    simp only [State.postWaiting, Deck.settled, hsettled, hevent, Option.isNone_none, Bool.and_self]
  refine ⟨_, ?_, hpost⟩
  change execPostEvent d s = _
  simp only [execPostEvent, internal_acts hrunning hwaiting, hevent, popDeckEvent_eq hevent]

/-- Settles O14: a post is ignored while the deck is off or stopped, and else accepted or refused by its range and order. -/
theorem postEventIsIgnoredAcceptedOrStopsTheDeck : Obligations.PostEventIsIgnoredAcceptedOrStopsTheDeck := by
  intro d v rest s hrunning hsettled hevent
  refine postEvent_acts hrunning hsettled hevent ⟨fun hidle => ?_, fun hoff hstopped => ⟨fun hrange => ?_,
    fun hrange hless => ?_, fun hrange hless => ?_⟩, deckEvent_deckEventFrame d _ _⟩
  all_goals rw [deckEvent_deck_same, post_eq]
  · exact if_pos hidle
  all_goals rw [if_neg (not_or.mpr ⟨hoff, hstopped⟩)]
  · exact if_pos hrange
  · rw [if_neg (Nat.not_le.mpr hrange)]
    exact if_pos hless
  · rw [if_neg (Nat.not_le.mpr hrange)]
    exact if_neg (Nat.not_lt.mpr hless)

/-! ## The arbiter (R27) -/

/-- The arbiter looks at a deck `j` before a deck `k`. -/
def LooksFirst (fair : Bool) (last j k : Fin 4) : Prop :=
  j ≠ 0 → k ≠ 0 ∧ if fair then turnAfter last j ≤ turnAfter last k else j ≤ k

theorem arbiterOrder_looksFirst (fair : Bool) (last : Fin 4) :
    (arbiterOrder fair last).Pairwise (LooksFirst fair last) := by
  unfold LooksFirst
  decide +revert

theorem mem_arbiterOrder (fair : Bool) (last d : Fin 4) : d ∈ arbiterOrder fair last := by decide +revert

theorem LooksFirst.antisymm {fair : Bool} {last j k : Fin 4} (h : LooksFirst fair last j k) (h' : LooksFirst fair last k j) :
    j = k := by
  unfold LooksFirst at h h'
  decide +revert

theorem ready_iff (o : Deck) : o.ready = true ↔ o.state = .waiting ∧ 0 < o.outstanding := by
  simp [Deck.ready]

theorem inTurn_iff (s : State) (d : Fin 4) : s.inTurn d ↔ s.decks[d].ready = true ∧
    ∀ k : Fin 4, s.decks[k].ready = true → LooksFirst s.active.span.fair s.lastGranted d k := by
  simp only [State.inTurn, ready_iff, and_assoc]
  refine and_congr_right fun _ => and_congr_right fun _ => ⟨fun h k hk hd => ?_, fun h hd => ⟨?_, fun k hk hready => ?_⟩⟩
  · obtain ⟨hzero, hothers⟩ := h hd
    have hk0 : k ≠ 0 := by
      rintro rfl
      exact absurd ((ready_iff _).mpr hk) (Bool.eq_false_iff.mp hzero)
    exact ⟨hk0, hothers k hk0 hk⟩
  · exact Bool.eq_false_iff.mpr fun hready => (h 0 ((ready_iff _).mp hready) hd).1 rfl
  · exact (h k hready hd).2

theorem inTurn_of_granted {s : State} {d : Fin 4} (h : s.granted = some d) : s.inTurn d := by
  obtain ⟨hready, before, later, horder, hbefore⟩ := List.find?_eq_some_iff_append.mp h
  have hpairs := arbiterOrder_looksFirst s.active.span.fair s.lastGranted
  rw [horder] at hpairs
  refine (inTurn_iff s d).mpr ⟨hready, fun k hk => ?_⟩
  have hmem := mem_arbiterOrder s.active.span.fair s.lastGranted k
  rw [horder, List.mem_append, List.mem_cons] at hmem
  rcases hmem with hmem | rfl | hmem
  · exact absurd (hbefore k hmem) (by rw [hk]; decide)
  · exact fun hd => ⟨hd, by split <;> exact Nat.le_refl _⟩
  · exact List.rel_of_pairwise_cons (List.pairwise_append.mp hpairs).2.1 hmem

theorem granted_isSome_iff (s : State) : s.granted.isSome = true ↔ ∃ d : Fin 4, s.decks[d].ready = true := by
  simp only [State.granted, List.find?_isSome, mem_arbiterOrder, true_and]

theorem granted_of_inTurn {s : State} {d : Fin 4} (h : s.inTurn d) : s.granted = some d := by
  obtain ⟨hready, hfirst⟩ := (inTurn_iff s d).mp h
  obtain ⟨e, he⟩ := Option.isSome_iff_exists.mp ((granted_isSome_iff s).mpr ⟨d, hready⟩)
  obtain ⟨hready', hfirst'⟩ := (inTurn_iff s e).mp (inTurn_of_granted he)
  rw [he, (hfirst' d hready).antisymm (hfirst e hready')]

/-- Settles O15: the deck in turn is the one that the arbiter's order finds first. -/
theorem theDeckInTurnIsGrantedAndItsCardTaken : Obligations.TheDeckInTurnIsGrantedAndItsCardTaken := by
  refine fun s hrunning => ⟨fun hidle => ?_, fun _ hready => ?_, fun d hexecutor hturn => ?_⟩
  · change execCardTake s = _
    refine internal_idle ?_
    rcases hidle with hbusy | hnone
    · simp [Option.isNone_eq_false_iff.mpr hbusy]
    · have hgranted : s.granted.isSome = false := by
        rw [Bool.eq_false_iff, Ne, granted_isSome_iff]
        exact fun ⟨d, hd⟩ => Bool.false_ne_true ((hnone d).symm.trans hd)
      simp [hgranted]
  · obtain ⟨d, hd⟩ := Option.isSome_iff_exists.mp ((granted_isSome_iff s).mpr hready)
    exact ⟨d, inTurn_of_granted hd⟩
  · have hgranted := granted_of_inTurn hturn
    refine ⟨s.takeCard d, ?_, s.cardAtDone d, fun k => ?_, ?_, fun k hk => modify_get_other _ _ hk, ?_, rfl⟩
    · change execCardTake s = _
      refine (internal_acts hrunning (by simp [hexecutor, hgranted])).trans ?_
      simp only [hgranted]
    · exact Vector.getElem_ofFn _
    · refine (modify_get_same s.decks d _).trans ?_
      simp only [Deck.take, seconds, Config.ticksPerSecond, Nat.mul_comm 1000, Bool.and_eq_true, decide_eq_true_eq]
    · simp only [State.takeCard, Option.isNone_iff_eq_none]

/-! ## Words in memory -/

section
variable {m : Memory}

theorem Memory.readWord_writeWord_apart {a c : Nat} (w : Word) (h : c + 2 ≤ a ∨ a + 2 ≤ c) :
    (m.writeWord a w).readWord c = m.readWord c := by
  unfold Memory.readWord
  rw [Memory.read_writeWord_other _ (by omega) (by omega), Memory.read_writeWord_other _ (by omega) (by omega)]

theorem Memory.read_writeWords_outside (ws : List Word) {a c : Nat} (h : c < a ∨ a + 2 * ws.length ≤ c) :
    (m.writeWords a ws).read c = m.read c := by
  induction ws generalizing m a with
  | nil => rfl
  | cons w ws ih =>
    rw [List.length_cons] at h
    exact (ih (by omega)).trans (Memory.read_writeWord_other _ (by omega) (by omega))

theorem Memory.readWord_writeWords_outside (ws : List Word) {a c : Nat} (h : c + 2 ≤ a ∨ a + 2 * ws.length ≤ c) :
    (m.writeWords a ws).readWord c = m.readWord c := by
  unfold Memory.readWord
  rw [Memory.read_writeWords_outside _ (by omega), Memory.read_writeWords_outside _ (by omega)]

theorem Memory.readWord_writeWords (hm : m.wf = true) (ws : List Word) (a : Nat) {k : Nat} (hk : k < ws.length) :
    (m.writeWords a ws).readWord (a + 2 * k) = ws[k]?.getD 0 := by
  induction ws generalizing m a k with
  | nil => exact absurd hk (Nat.not_lt_zero k)
  | cons w ws ih =>
    change ((m.writeWord a w).writeWords (a + 2) ws).readWord (a + 2 * k) = _
    cases k with
    | zero =>
      rw [Memory.readWord_writeWords_outside _ (by omega)]
      exact Memory.readWord_writeWord_same a w hm
    | succ k =>
      have haddress : a + 2 * (k + 1) = a + 2 + 2 * k := by omega
      rw [haddress, ih (Memory.wf_writeWord a w hm) _ (Nat.lt_of_succ_lt_succ hk), List.getElem?_cons_succ]

/-! ## What a completion writes (R30) -/

/-- The first words of a completion: the outcome with its reason, and the condition when there is one. -/
def writeOutcome (m : Memory) (p : Nat) (a : Answer) : Memory :=
  let m1 := m.writeWord (p + 14) (packed a.outcome.code a.reason.code)
  match a.condition with
  | none => m1
  | some w => m1.writeWord (p + 16) w

theorem writeCompletion_eq (m : Memory) (p : Nat) (a : Answer) (ws : List Word) (sec : DWord) :
    writeCompletion m p a ws sec = ((writeOutcome m p a).writeWords (p + 18) ws).writeWords (p + 28) (dwordWords sec) := rfl

theorem wf_writeOutcome (hm : m.wf = true) (p : Nat) (a : Answer) : (writeOutcome m p a).wf = true := by
  unfold writeOutcome
  cases a.condition with
  | none => exact Memory.wf_writeWord _ _ hm
  | some w => exact Memory.wf_writeWord _ _ (Memory.wf_writeWord _ _ hm)

theorem writeOutcome_outcome (hm : m.wf = true) (p : Nat) (a : Answer) :
    (writeOutcome m p a).readWord (p + 14) = packed a.outcome.code a.reason.code := by
  unfold writeOutcome
  cases a.condition with
  | none => exact Memory.readWord_writeWord_same _ _ hm
  | some w => exact (Memory.readWord_writeWord_apart w (by omega)).trans (Memory.readWord_writeWord_same _ _ hm)

theorem writeOutcome_condition (hm : m.wf = true) (p : Nat) (a : Answer) :
    (writeOutcome m p a).readWord (p + 16) = a.condition.getD (m.readWord (p + 16)) := by
  unfold writeOutcome
  cases a.condition with
  | none => exact Memory.readWord_writeWord_apart _ (by omega)
  | some w => exact Memory.readWord_writeWord_same _ _ (Memory.wf_writeWord _ _ hm)

theorem writeOutcome_read (p : Nat) (a : Answer) {x : Nat} (hx : x < p + 14 ∨ p + 18 ≤ x) :
    (writeOutcome m p a).read x = m.read x := by
  unfold writeOutcome
  have hfirst (w : Word) : (m.writeWord (p + 14) w).read x = m.read x :=
    Memory.read_writeWord_other _ (by omega) (by omega)
  cases a.condition with
  | none => exact hfirst _
  | some w => exact (Memory.read_writeWord_other _ (by omega) (by omega)).trans (hfirst _)

end

theorem resultWords_length (s : State) (r : Results) : (s.resultWords r).length = 4 := by
  cases r <;> rfl

section
variable {s : State} {d : Fin 4} {f : InFlight}

theorem writeCard_bytes (hf : s.decks[d].inFlight = some f) (immediate : Bool) (a : Answer) :
    (s.writeCard d immediate a).cm.bytes =
      writeCompletion s.cm.bytes (s.decks[d].base + 32 * f.slot) a (s.resultWords a.results) s.regs.seconds := by
  simp only [State.writeCard, hf]

theorem writeCard_decks (hf : s.decks[d].inFlight = some f) (immediate : Bool) (a : Answer) :
    (s.writeCard d immediate a).decks = modify s.decks d (Deck.writeCard immediate f) := by
  simp only [State.writeCard, hf, State.detach]

theorem writeCard_detached (hf : s.decks[d].inFlight = some f) (immediate : Bool) (a : Answer) :
    Detached s (s.writeCard d immediate a) d := by
  simp only [State.writeCard, hf]
  exact detach_detached d s

/-- Completing the card in flight writes its words, hands the deck to the header access and detaches the card. -/
theorem writeCard_writesCard (hm : s.cm.bytes.wf = true) (hf : s.decks[d].inFlight = some f) (immediate : Bool) (a : Answer) :
    WritesCard s (s.writeCard d immediate a) d f a immediate := by
  have hlength := resultWords_length s a.results
  have hsec : (dwordWords s.regs.seconds).length = 2 := rfl
  unfold WritesCard
  extract_lets card m
  have hwrite : m = ((writeOutcome s.cm.bytes card a).writeWords (card + 18) (s.resultWords a.results)).writeWords (card + 28)
    (dwordWords s.regs.seconds) := writeCard_bytes hf immediate a
  have hframe : s.writeCard d immediate a = { s with
      cm := { s.cm with bytes := m }, decks := (s.writeCard d immediate a).decks
      channels := (s.writeCard d immediate a).channels, fans := (s.writeCard d immediate a).fans
      mail := (s.writeCard d immediate a).mail } := writeCard_frame s d immediate a
  clear_value m
  have hwf := wf_writeOutcome hm card a
  have hwf' := Memory.wf_writeWords (card + 18) (s.resultWords a.results) hwf
  have hhead (x : Nat) (hx : x + 2 ≤ card + 18) : m.readWord x = (writeOutcome s.cm.bytes card a).readWord x := by
    rw [hwrite, Memory.readWord_writeWords_outside _ (by omega), Memory.readWord_writeWords_outside _ (by omega)]
  have hkept (x : Nat) (hx : x < card + 14 ∨ card + 26 ≤ x ∧ x < card + 28 ∨ card + 32 ≤ x) :
      m.read x = s.cm.bytes.read x := by
    rw [hwrite, Memory.read_writeWords_outside _ (by omega), Memory.read_writeWords_outside _ (by omega)]
    exact writeOutcome_read card a (by omega)
  refine ⟨?_, ?_, fun k => ?_, ?_, ?_, ?_, fun x hx => hkept x (by omega), ?_, fun k hk => ?_,
    writeCard_detached hf immediate a, hframe⟩
  · rw [hhead _ (by omega)]
    exact writeOutcome_outcome hm card a
  · rw [hhead _ (by omega)]
    exact writeOutcome_condition hm card a
  · rw [hwrite, Memory.readWord_writeWords_outside _ (by omega)]
    exact Memory.readWord_writeWords hwf _ _ (by omega)
  · unfold Memory.readWord
    rw [hkept _ (by omega), hkept _ (by omega)]
  · rw [hwrite]
    exact Memory.readWord_writeWords hwf' _ _ (k := 0) (by omega)
  · rw [hwrite]
    exact Memory.readWord_writeWords hwf' _ _ (k := 1) (by omega)
  · rw [writeCard_decks hf]
    exact modify_get_same s.decks d _
  · rw [writeCard_decks hf]
    exact modify_get_other s.decks _ hk

/-- The same with the answer that another block sent, which leaves the mail. -/
theorem writeCard_writesCard_sent (hm : s.cm.bytes.wf = true) (hf : s.decks[d].inFlight = some f) (a : Answer) :
    WritesCard s (({ s with mail := { s.mail with completions := s.mail.completions.set d none } } : State).writeCard d false a)
      d f a false := by
  obtain ⟨hhead, hcondition, hresults, hkept, hlow, hhigh, hrest, hdeck, hothers, hdetached, hframe⟩ :=
    writeCard_writesCard (s := { s with mail := { s.mail with completions := s.mail.completions.set d none } }) hm hf false a
  obtain ⟨hchannels, hfans, hfanUnit, hmail⟩ := hdetached
  refine ⟨hhead, hcondition, hresults, hkept, hlow, hhigh, hrest, hdeck, hothers, ⟨hchannels, hfans, hfanUnit, ?_⟩, hframe⟩
  rw [hmail, Vector.set_set]

end

/-! ## CARD_COMPLETION and DEADLINE_EXPIRY (R30, R31, R35, R36) -/

section
variable {s : State} {d : Fin 4}

theorem executorAnswer_of_immediate {ans : Answer} (h : s.immediateFor d ans) : s.executorAnswer d = some ans := by
  obtain ⟨t, ht, hdeck, hanswer⟩ := h
  simp only [State.executorAnswer, ht, hdeck, if_true, hanswer]

theorem executorAnswer_of_sent {ans : Answer} (h : s.sentFor d ans) : s.executorAnswer d = none := by
  unfold State.executorAnswer
  split
  · rfl
  next t ht =>
    split
    next hdeck => exact h.1 t ht hdeck
    · rfl

theorem takeCompletion_immediate {ans : Answer} (h : s.immediateFor d ans) : s.takeCompletion d =
    if s.decks[d].inFlight.isSome then s.writeCard d true ans else { s with executor := none } := by
  simp only [State.takeCompletion, executorAnswer_of_immediate h]

theorem takeCompletion_sent {ans : Answer} (h : s.sentFor d ans) : s.takeCompletion d =
    ({ s with mail := { s.mail with completions := s.mail.completions.set d none } } : State).writeCard d false ans := by
  simp only [State.takeCompletion, executorAnswer_of_sent h, h.2]

theorem completionWaiting_of_answer {ans : Answer} (h : s.immediateFor d ans ∨ s.sentFor d ans) :
    s.completionWaiting d = true := by
  rcases h with h | h
  · simp [State.completionWaiting, executorAnswer_of_immediate h]
  · simp [State.completionWaiting, h.2]

theorem cardCompletion_acts {ans : Answer} {post : State → Prop} (hrunning : s.running = true)
    (hsettled : s.decks[d].finishing = none) (h : s.immediateFor d ans ∨ s.sentFor d ans)
    (hpost : post (s.takeCompletion d)) : Acts (.cardCompletion d) s post := by
  refine ⟨_, ?_, hpost⟩
  change execCardCompletion d s = _
  refine (internal_acts hrunning (completionWaiting_of_answer h)).trans ?_
  simp only [hsettled]

theorem writeDone_writesHeader (f : Finishing) : WritesHeader s (s.writeDone d f) d f :=
  ⟨modify_get_same s.decks d _, fun _ hk => modify_get_other s.decks _ hk, rfl⟩

theorem deadlineDue_eq {f : InFlight} (hf : s.decks[d].inFlight = some f) : s.deadlineDue d = expired f.deadline s.now := by
  simp only [State.deadlineDue, hf, Option.bind_some]

theorem deadlineExpiry_acts {f : InFlight} {due : Nat} {post : State → Prop} (hrunning : s.running = true)
    (hf : s.decks[d].inFlight = some f) (hdue : f.deadline = some due) (hnow : due ≤ s.now)
    (hpost : post (s.writeCard d false (timedOut f.card))) : Acts (.deadlineExpiry d) s post := by
  have hg : s.deadlineDue d = true := by
    rw [deadlineDue_eq hf, hdue]
    exact decide_eq_true hnow
  refine ⟨_, ?_, hpost⟩
  change execDeadlineExpiry d s = _
  refine (internal_acts hrunning hg).trans ?_
  simp only [hf]

theorem deadlineExpiry_idle (h : s.deadlineDue d = false) : exec (.deadlineExpiry d) s = .next s := by
  change execDeadlineExpiry d s = _
  exact internal_idle (by rw [h, Bool.and_false])

theorem timedOut_fanRequest {c : Card} {k : Fin 8} (hkind : c.kind = some .fanRequest) (htarget : c.target = BitVec.ofNat 16 k.val) :
    timedOut c = .fanStatus .timedOut k := by
  simp only [timedOut, hkind, htarget, targetIndex_ofNat k (by decide)]

theorem timedOut_of_not_fanRequest {c : Card} (hkind : c.kind ≠ some .fanRequest) : timedOut c = .plain .timedOut 0 0 := by
  unfold timedOut
  split
  next hfan _ => exact absurd hfan hkind
  · rfl

end

/-- Settles O16: an answer, or the deadline, writes the card in flight; the header follows in an access of its own. -/
theorem completionsAndDeadlinesWriteTheCardAndTheHeader : Obligations.CompletionsAndDeadlinesWriteTheCardAndTheHeader := by
  refine ⟨fun d ans s hrunning hm hsettled => ⟨fun f hf => ⟨fun h => ?_, fun h => ?_⟩, fun hf => ⟨fun h => ?_, fun h => ?_⟩⟩,
    fun d f s hrunning hfinishing => ⟨?_, ?_, ?_, fun hf => ?_⟩,
    fun d f s hrunning hm hf => ⟨fun due hdue hnow => ⟨fun k hkind htarget => ?_, fun hkind => ?_⟩, fun due hdue hnow => ?_,
      fun hdue => ?_⟩⟩
  · refine cardCompletion_acts hrunning hsettled (.inl h) ?_
    rw [takeCompletion_immediate h, hf]
    exact writeCard_writesCard hm hf true ans
  · refine cardCompletion_acts hrunning hsettled (.inr h) ?_
    rw [takeCompletion_sent h]
    exact writeCard_writesCard_sent hm hf ans
  · refine cardCompletion_acts hrunning hsettled (.inl h) ?_
    rw [takeCompletion_immediate h, hf]
    rfl
  · refine cardCompletion_acts hrunning hsettled (.inr h) ?_
    rw [takeCompletion_sent h]
    exact writeCard_none _ _ hf
  · refine ⟨_, ?_, writeDone_writesHeader f⟩
    change execCardCompletion d s = _
    refine (internal_acts hrunning (by simp only [State.completionWaiting, Deck.settled, hfinishing]; rfl)).trans ?_
    simp only [hfinishing]
  · change execControlEvent d s = _
    exact internal_idle (by rw [(not_waiting_of_finishing hfinishing).1, Bool.and_false])
  · change execPostEvent d s = _
    exact internal_idle (by rw [(not_waiting_of_finishing hfinishing).2, Bool.and_false])
  · exact deadlineExpiry_idle (by simp only [State.deadlineDue, hf]; rfl)
  · refine deadlineExpiry_acts hrunning hf hdue hnow ?_
    rw [timedOut_fanRequest hkind htarget]
    exact writeCard_writesCard hm hf false _
  · refine deadlineExpiry_acts hrunning hf hdue hnow ?_
    rw [timedOut_of_not_fanRequest hkind]
    exact writeCard_writesCard hm hf false _
  · exact deadlineExpiry_idle (by rw [deadlineDue_eq hf, hdue]; exact decide_eq_false (by omega))
  · exact deadlineExpiry_idle (by rw [deadlineDue_eq hf, hdue]; rfl)

end Sys2Proof.Machine

/-! LOAD (R18, R19, R40, R41): in which order a load is decided, and that it commits the item once every check has passed. -/

namespace Sys2Proof.Machine

/-! ## The item that a target names -/

theorem ofCodes_classNo_index (r : ItemRef) : ItemRef.ofCodes r.classNo r.index = some r := by
  cases r with
  | span => rfl
  | gate i => exact dif_pos i.isLt
  | channel i => exact dif_pos i.isLt
  | zone i => exact dif_pos i.isLt
  | fan i => exact dif_pos i.isLt
  | gallery => rfl
  | door i => exact dif_pos i.isLt
  | template i => exact dif_pos i.isLt
  | link => rfl

theorem codes_of_ofCodes {cls idx : Nat} {r : ItemRef} (h : ItemRef.ofCodes cls idx = some r) :
    r.classNo = cls ∧ r.index = idx := by
  unfold ItemRef.ofCodes at h
  split at h
  case h_10 => cases h
  all_goals
    split at h
    next hidx =>
      cases h
      exact ⟨rfl, by simp only [ItemRef.index, hidx]⟩
    · cases h

section
variable {s : State} {t : Take} {r : ItemRef}

theorem loadTarget_eq (hcls : r.classNo = (lowByte t.card.target).toNat) (hidx : r.index = (highByte t.card.target).toNat) :
    loadTarget t.card.target = some r := by
  rw [loadTarget, ← hcls, ← hidx]
  exact ofCodes_classNo_index r

/-! ## The decision -/

theorem firstFailure_none_iff (checks : List ItemCheck) : firstFailure checks = none ↔ ∀ c ∈ checks, c.ok = true := by
  simp [firstFailure]

theorem loadFree_of_target (h : s.dispatched t .load) (htarget : loadTarget t.card.target = some r)
    (hfree : ∀ z : Fin 8, r = .zone z → s.mail.requests[z] = none) : s.loadFree = true := by
  have hbind : (s.executor.bind fun t => loadTarget t.card.target) = some r := by rw [h.2.1, Option.bind_some, htarget]
  unfold State.loadFree
  rw [hbind]
  cases r
  case zone z =>
    simp only [State.zoneFree]
    rw [hfree z rfl]
    rfl
  all_goals rfl

/-- A dispatched LOAD whose item no request holds does what `loadItem` says. -/
theorem exec_loadCard (h : s.dispatched t .load) (htarget : loadTarget t.card.target = some r)
    (hfree : ∀ z : Fin 8, r = .zone z → s.mail.requests[z] = none) :
    exec .loadCard s = .next (publish s (s.loadItem r t)) := by
  have hwaiting : (s.cardWaiting .load && s.loadFree) = true := by
    rw [cardWaiting_iff.mpr ⟨t, h.2.1, h.2.2.1, h.2.2.2⟩, loadFree_of_target h htarget hfree]
    rfl
  change execLoadCard s = _
  unfold execLoadCard
  rw [internal_acts h.1 hwaiting, dispatch_some _ h.2.1, htarget]

theorem loadCard_answersAlone {a : Answer} (h : s.dispatched t .load) (htarget : loadTarget t.card.target = some r)
    (hfree : ∀ z : Fin 8, r = .zone z → s.mail.requests[z] = none) (hitem : s.loadItem r t = s.reply t a) :
    AnswersAlone .loadCard s t a := by
  unfold AnswersAlone
  rw [exec_loadCard h htarget hfree, hitem, publish_reply]
  rfl

theorem loadCard_badTarget (h : s.dispatched t .load) (htarget : loadTarget t.card.target = none) :
    Refuses .loadCard s t .badTarget := by
  have hbind : (s.executor.bind fun t => loadTarget t.card.target) = none := by rw [h.2.1, Option.bind_some, htarget]
  have hwaiting : (s.cardWaiting .load && s.loadFree) = true := by
    rw [cardWaiting_iff.mpr ⟨t, h.2.1, h.2.2.1, h.2.2.2⟩, State.loadFree, hbind]
    rfl
  change execLoadCard s = _
  unfold execLoadCard
  rw [internal_acts h.1 hwaiting, dispatch_some _ h.2.1, htarget]
  simp only
  rw [publish_reply]
  rfl

theorem loadItem_commits (hspan : r ≠ .span) (hallowed : s.loadAllowed r = true)
    (hchecks : ∀ c ∈ itemChecks s.active r (itemField s.cm.bytes r) ++ namedByChecks s.active r (itemField s.cm.bytes r),
      c.ok = true) :
    s.loadItem r t = (s.commit r).reply t (.plain .done (wordNat r.classNo) (wordNat r.index)) := by
  have hpasses : s.loadFailure r = none := (firstFailure_none_iff _).mpr hchecks
  simp only [State.loadItem, hspan, hallowed, hpasses, Bool.not_true, Bool.false_eq_true, if_false]

theorem commit_active (s : State) (r : ItemRef) (hspan : r ≠ .span) :
    (s.commit r).active = s.active.store r (itemField s.cm.bytes r) := by
  cases r
  case span => exact absurd rfl hspan
  case fan f =>
    simp only [State.commit, State.loadFan]
    split <;> rfl
  case gallery =>
    simp only [State.commit, State.loadGallery]
    split <;> rfl
  all_goals rfl

end

/-- Settles O18: a load is decided in the order of target, permission, owner, checks, and commits when none of them refuses it. -/
theorem loadIsDecidedInOrder : Obligations.LoadIsDecidedInOrder := by
  intro t s h cls idx
  refine ⟨fun hnone => loadCard_badTarget h ?_, fun z => decide_eq_true_iff, fun f => ?_, decide_eq_true_iff, fun d => ?_,
    fun r hr => ?_, fun r hcls hidx => ⟨fun hspan => ?_, fun hspan hfree => ⟨fun hbusy => ?_,
      fun hallowed => ⟨fun c hc => ?_, fun hpass => ?_⟩⟩⟩⟩
  · rw [Option.eq_none_iff_forall_ne_some]
    exact fun r hr => hnone r (codes_of_ofCodes hr)
  · simp [State.loadAllowed]
  · simp [State.loadAllowed, or_assoc]
  · cases r <;> simp [ItemRef.classNo] at hr <;> rfl
  · subst hspan
    exact loadCard_answersAlone h (loadTarget_eq hcls hidx) nofun rfl
  · refine loadCard_answersAlone h (loadTarget_eq hcls hidx) hfree ?_
    simp only [State.loadItem, hspan, hbusy, Bool.not_false, if_true, if_false]
    rfl
  · refine loadCard_answersAlone h (loadTarget_eq hcls hidx) hfree ?_
    have hfails : s.loadFailure r = some c := hc
    simp only [State.loadItem, hspan, hallowed, hfails, Bool.not_true, Bool.false_eq_true, if_false]
    rfl
  · refine ⟨_, exec_loadCard h (loadTarget_eq hcls hidx) hfree, ?_⟩
    rw [loadItem_commits hspan hallowed hpass, hcls, hidx]
    have hframe := commit_loadFrame s r
    have hleaves : s.commit r = _ := hframe.leaves
    refine ⟨commit_active s r hspan, ?_, rfl, ?_, hframe.keeps.runState, ?_⟩
    · exact (congrArg State.cm hleaves).trans rfl
    · exact (congrArg State.decks hleaves).trans rfl
    · exact (congrArg State.candidate hleaves).trans rfl

end Sys2Proof.Machine

/-! Inputs, counters and gate timers (chapter 3): contacts, pulse inputs, the end of a window and the speed references. -/

namespace Sys2Proof.Machine

theorem modify_eq_self {α : Type} {n : Nat} (v : Vector α n) (i : Fin n) {f : α → α} (h : f v[i] = v[i]) : modify v i f = v := by
  unfold modify
  rw [h]
  exact Vector.set_getElem_self _

theorem ofFn_get {α : Type} {n : Nat} (g : Fin n → α) (i : Fin n) : (Vector.ofFn g)[i] = g i := Vector.getElem_ofFn _

/-! ## CONTACT_CONFIRM (R43, R44) -/

theorem exec_contactConfirm (i : Fin 36) (pin : Bool) (s : State) : exec (.contactConfirm i pin) s =
    .next (if s.running then
      ({ s with contacts := s.contacts.set i { s.contacts[i] with pin := pin } } : State).sampleContact i
      else { s with contacts := s.contacts.set i { s.contacts[i] with pin := pin } }) := by
  simp only [exec, execContactConfirm, modify]
  split <;> rfl

theorem sampleContact_not_due {s : State} {i : Fin 36} (h : s.contacts[i].due = false) : s.sampleContact i = s := by
  have hcontacts : s.contacts.set i s.contacts[i] = s.contacts := Vector.set_getElem_self _
  unfold State.sampleContact
  rw [takeDue_none _ _ h]
  simp only [hcontacts, Option.toList_none, List.append_nil, modify_eq_self]

/-- Settles O19: a contact takes the sample that is due, and a change is told when it has lasted the debounce time. -/
theorem contactChangesAreConfirmedAfterTheDebounceTime : Obligations.ContactChangesAreConfirmedAfterTheDebounceTime := by
  intro i pin s c
  have hsame : (s.contacts.set i c)[i] = c := Vector.getElem_set_self _
  rw [exec_contactConfirm]
  refine ⟨fun hidle => ?_, fun hrunning hdue => ?_⟩
  · by_cases hrunning : s.running = true
    · have hdue : c.due = false := hidle.resolve_left (by simp [hrunning])
      rw [if_pos hrunning, sampleContact_not_due]
      exact (congrArg Contact.due hsame).trans hdue
    · rw [if_neg hrunning]
  · rw [if_pos hrunning]
    have htakes := takeDue_takes c s.now s.mail.contactChanges[i] hdue
    refine ⟨_, rfl, ?_, fun j hj => ⟨?_, modify_get_other _ _ hj⟩, ?_⟩
    · have hcontact (t : State) (h : t.contacts[i] = c) : (t.sampleContact i).contacts[i] = (c.takeDue t.now).1 ∧
          (t.sampleContact i).mail.contactChanges[i] = t.mail.contactChanges[i] ++ (c.takeDue t.now).2.toList := by
        unfold State.sampleContact
        rw [h]
        exact ⟨Vector.getElem_set_self _, modify_get_same _ _ _⟩
      obtain ⟨hlevel, hchanges⟩ := hcontact { s with contacts := s.contacts.set i c } hsame
      rw [hlevel, hchanges]
      exact htakes
    · exact (set_get_other _ _ hj).trans (set_get_other _ _ hj)
    · rfl

/-! ## PULSE_COUNT (R47 to R49) -/

/-- A pulse input with a level on its pin: without a filter a rising level counts at once. -/
def Pulse.driven (pin : Bool) (p : Pulse) : Pulse :=
  { p with pin := pin
           count := if p.filter = .off ∧ pin = true ∧ p.pin = false ∧ p.binding ≠ .none
             then min (p.count + 1) (max p.count 65535) else p.count }

theorem drive_eq (pin : Bool) (p : Pulse) : p.drive pin = if 0 < p.due then (p.driven pin).sample else p.driven pin := by
  have hedge : (if p.filter = .off then p.edge pin else { p with pin := pin }) = p.driven pin := by
    unfold Pulse.driven Pulse.edge
    by_cases hfilter : p.filter = .off
    · simp only [hfilter, if_true, true_and, Bool.and_eq_true, Bool.not_eq_eq_eq_not, Bool.not_true, counted_eq]
      by_cases hrise : pin = true ∧ p.pin = false
      · by_cases hbinding : p.binding = .none <;> simp [hrise, hbinding]
      · rw [if_neg hrise, if_neg fun h => hrise ⟨h.1, h.2.1⟩]
    · simp only [hfilter, if_false, false_and]
  simp only [Pulse.drive, hedge]

/-- Settles O20: a pulse input counts a rise without a filter at once, and takes the sample of the tick when one is due. -/
theorem pulsesAreFilteredAndCounted : Obligations.PulsesAreFilteredAndCounted := by
  intro i f pin s after
  have hafter (o : Pulse) : after o (o.drive pin) := by
    rw [drive_eq]
    refine ⟨fun hdue => ?_, fun hdue => ?_⟩
    · rw [if_pos ((due_pos_iff o).mpr hdue)]
      exact sample_takes _
    · rw [if_neg (mt (due_pos_iff o).mp hdue)]
      rfl
  refine ⟨fun hrunning => ⟨⟨_, rfl, ?_, fun j hj => modify_get_other _ _ hj, rfl⟩,
    ⟨_, rfl, ?_, fun j hj => modify_get_other _ _ hj, rfl⟩⟩, fun hrunning => ?_⟩
  · simp only [modify_get_same, hrunning, if_true]
    exact hafter _
  · simp only [modify_get_same, hrunning, if_true]
    exact hafter _
  · simp only [exec, execPulseCount, hrunning, Bool.false_eq_true, if_false]
    exact ⟨rfl, rfl⟩

/-! ## GATE_WINDOW_END (R50 to R53) -/

theorem windowEnd_of_bound {p : Pulse} {g : Fin 4} (length : Nat) (h : p.binding = .bound g) :
    p.windowEnd g length = ({ p with count := 0 },
      some { count := p.count, saturated := decide (p.count = 65535), lengthMs := length }) := if_pos h

theorem windowEnd_of_pending {p : Pulse} {g : Fin 4} (length : Nat) (h : p.binding = .pending g) :
    p.windowEnd g length = ({ p with count := 0, binding := .bound g }, none) := by
  unfold Pulse.windowEnd
  rw [if_neg (by rw [h]; nofun), if_pos h]

theorem windowEnd_of_other {p : Pulse} {g : Fin 4} (length : Nat) (h : p.binding ≠ .bound g) (h' : p.binding ≠ .pending g) :
    p.windowEnd g length = (p, none) := by
  unfold Pulse.windowEnd
  rw [if_neg h, if_neg h']

theorem windowEnd_windows (s : State) (g : Fin 4) (i : Fin 12) : (s.windowEnd g).mail.windows[i] =
    s.mail.windows[i] ++ (s.measured[i].windowEnd g s.gates[g].lengthMs).2.toList := by
  simp only [State.windowEnd]
  exact ofFn_get (fun i : Fin 12 => s.mail.windows[i] ++ (s.measured[i].windowEnd g s.gates[g].lengthMs).2.toList) i

theorem windowEnd_tachWindows (s : State) (g : Fin 4) (f : Fin 8) : (s.windowEnd g).mail.tachWindows[f] =
    s.mail.tachWindows[f] ++ (s.tach[f].windowEnd g s.gates[g].lengthMs).2.toList := by
  simp only [State.windowEnd]
  exact ofFn_get (fun f : Fin 8 => s.mail.tachWindows[f] ++ (s.tach[f].windowEnd g s.gates[g].lengthMs).2.toList) f

theorem windowEnd_measured (s : State) (g : Fin 4) (i : Fin 12) : (s.windowEnd g).measured[i] =
    (s.measured[i].windowEnd g s.gates[g].lengthMs).1 :=
  mapTable_get s.measured (fun p => (p.windowEnd g s.gates[g].lengthMs).1) i

theorem windowEnd_tach (s : State) (g : Fin 4) (f : Fin 8) : (s.windowEnd g).tach[f] =
    (s.tach[f].windowEnd g s.gates[g].lengthMs).1 :=
  mapTable_get s.tach (fun p => (p.windowEnd g s.gates[g].lengthMs).1) f

/-- Settles O21: the end of a window hands over the counters bound to the gate and binds those that wait for it. -/
theorem windowEndHandsOverTheBoundCounters : Obligations.WindowEndHandsOverTheBoundCounters := by
  refine fun g s hrunning => ⟨fun hleft => internal_idle ?_, fun hleft => ?_⟩
  · rw [State.windowEndDue, decide_eq_false hleft, Bool.and_false]
  · refine ⟨s.windowEnd g, internal_acts hrunning (decide_eq_true hleft), ?_⟩
    beta_reduce
    intro o step
    have hstep (p : Pulse) (m : List Window) :
        step p (p.windowEnd g o.lengthMs).1 m (m ++ (p.windowEnd g o.lengthMs).2.toList) := by
      refine ⟨fun h => ?_, fun h => ?_, fun h h' => ?_⟩
      · rw [windowEnd_of_bound _ h]
        exact ⟨rfl, rfl⟩
      · rw [windowEnd_of_pending _ h]
        exact ⟨rfl, List.append_nil m⟩
      · rw [windowEnd_of_other _ h h']
        exact ⟨rfl, List.append_nil m⟩
    have hgate : (s.windowEnd g).gates[g] = o.restart s.now := modify_get_same _ _ _
    have hothers (h : Fin 4) (hh : h ≠ g) : (s.windowEnd g).gates[h] = s.gates[h] := modify_get_other _ _ hh
    refine ⟨fun hpending => ?_, fun item hpending => ?_, hothers, fun i => ?_, fun f => ?_, rfl⟩
    · rw [hgate, Gate.restart, hpending]
    · rw [hgate, Gate.restart, hpending]
    · rw [windowEnd_measured, windowEnd_windows]
      exact hstep _ _
    · rw [windowEnd_tach, windowEnd_tachWindows]
      exact hstep _ _

/-! ## SPEED_REFERENCE_PERIOD_START (R57) -/

theorem duty_eq (e : Fan) : e.duty = if e.state = .starting ∨ e.state = .running then e.target.speed else 0 := by
  unfold Fan.duty FanState.runOn
  cases e.state <;> simp

/-- Settles O22: at the start of a period each output takes the duty of its fan. -/
theorem speedReferencesTakeTheDutyAtThePeriodStart : Obligations.SpeedReferencesTakeTheDutyAtThePeriodStart := by
  refine fun s hrunning hdue => ⟨s.periodStart, internal_acts hrunning hdue, fun f => ?_, rfl⟩
  have hduty : s.periodStart.sref[f] = s.fans.fans[f].duty := mapTable_get _ _ _
  rw [hduty, duty_eq]
  exact ⟨fun hdrive => if_pos hdrive, fun hstart hrun => if_neg (not_or.mpr ⟨hstart, hrun⟩)⟩

end Sys2Proof.Machine

/-! The air measurement unit (chapter 4): what a window makes of its channel, and the cards that work on a channel. -/

namespace Sys2Proof.Machine

/-! ## What the unit tells other blocks -/

theorem reevaluate_get (m : Mail) (zone : Option (Fin 8)) (z : Fin 8) :
    (m.reevaluate zone).reevaluations[z] = m.reevaluations[z] + if zone = some z then 1 else 0 := by
  cases zone with
  | none => rfl
  | some k =>
    by_cases hk : z = k
    · subst hk
      rw [if_pos rfl]
      exact modify_get_same _ _ _
    · rw [if_neg fun h => hk (Option.some.inj h).symm]
      exact modify_get_other _ _ hk

theorem reevaluate_eq (m : Mail) (zone : Option (Fin 8)) :
    m.reevaluate zone = { m with reevaluations := (m.reevaluate zone).reevaluations } := by
  cases zone <;> rfl

theorem complete_card (m : Mail) (card : Option (Fin 4)) (a : Answer) (d : Fin 4) :
    (m.complete card.toList a).completions[d] = if card = some d then some a else m.completions[d] := by
  simp only [complete_get, Option.mem_toList]

/-! ## One window (R60 to R65, R71) -/

theorem takesZero_iff (item : ChannelItem) (c : Channel) (w : Window) : c.takesZero item w = true ↔ TakesZero item c w := by
  simp [Channel.takesZero, TakesZero, and_assoc]

theorem getD_average (h : List Int) : (average h).getD 0 = averageOf h := by
  cases h <;> rfl

theorem average_eq (h : List Int) : average h = if h = [] then none else some (averageOf h) := by
  cases h <;> rfl

theorem clipValue_eq (i : Int) : clipValue i = max (-32767) (min 32767 i) := by
  unfold clipValue
  split
  · omega
  · split <;> omega

section
variable (item : ChannelItem) (w : Window)

theorem judge_low (h : w.count < item.floor) : item.judge w = (.fault, none) := if_pos h

theorem judge_over (h : item.floor ≤ w.count) (hover : item.ceiling < w.count ∨ w.saturated = true) :
    item.judge w = (.over, some item.fullScale) := by
  unfold ChannelItem.judge
  rw [if_neg (Nat.not_lt.mpr h), if_pos (by simpa using hover)]

theorem judge_good (h : item.floor ≤ w.count) (hceiling : w.count ≤ item.ceiling) (hsaturated : w.saturated = false) :
    item.judge w = (.ok, some (item.value w.count)) := by
  unfold ChannelItem.judge
  rw [if_neg (Nat.not_lt.mpr h), if_neg (by simp [hceiling, hsaturated])]

theorem judge_value (h : item.floor ≤ w.count) : ∃ st v, item.judge w = (st, some v) := by
  unfold ChannelItem.judge
  rw [if_neg (Nat.not_lt.mpr h)]
  split <;> exact ⟨_, _, rfl⟩

theorem handOver_ordinary (sec : DWord) {c : Channel} (h : ¬TakesZero item c w) : c.handOver item sec w =
    { c.ordinary item w with lastCount := w.count, windowLength := w.lengthMs, windowTime := sec } := by
  unfold Channel.handOver
  rw [if_neg (mt (takesZero_iff item c w).mp h)]

theorem handOver_zero (sec : DWord) {c : Channel} (h : TakesZero item c w) : c.handOver item sec w =
    { c with status := .ok, history := [], zero := none, lastCount := w.count, windowLength := w.lengthMs, windowTime := sec } := by
  unfold Channel.handOver
  rw [if_pos ((takesZero_iff item c w).mpr h)]

theorem ordinary_of_value {st : ChannelStatus} {v : Int} (c : Channel) (h : item.judge w = (st, some v)) :
    c.ordinary item w = { c with status := st }.append item v := by
  simp only [Channel.ordinary, h]

theorem ordinary_of_fault (c : Channel) (h : w.count < item.floor) : c.ordinary item w = { c with status := .fault } := by
  simp only [Channel.ordinary, judge_low item w h]

theorem ordinary_leaves (c : Channel) : (c.ordinary item w).out = c.out ∧ (c.ordinary item w).zero = c.zero := by
  unfold Channel.ordinary
  simp only
  split <;> exact ⟨rfl, rfl⟩

end

/-! ## The band (R62, R63) -/

theorem bandAfter_pressure {item : ChannelItem} (h : item.kind = .pressure) (b : Band) (avg : Int) :
    item.bandAfter b avg = .normal := by
  simp only [ChannelItem.bandAfter, h]

/-- The thresholds that the band is compared with, by the band before: a band is left at its lower threshold. -/
def ChannelItem.alarmAt (item : ChannelItem) (before : Band) : Int := if before = .alarm then item.alarmOff else item.alarmOn

def ChannelItem.warnAt (item : ChannelItem) (before : Band) : Int := if before = .normal then item.warnOn else item.warnOff

theorem bandAfter_eq {item : ChannelItem} (h : item.kind ≠ .pressure) (b : Band) (avg : Int) : item.bandAfter b avg =
    if item.alarmAt b ≤ item.compared avg then .alarm else if item.warnAt b ≤ item.compared avg then .warn else .normal := by
  unfold ChannelItem.bandAfter
  generalize item.kind = kind at h ⊢
  cases kind
  case pressure => exact absurd rfl h
  all_goals cases b <;> rfl

theorem band_cases (hi lo x : Int) :
    let after : Band := if hi ≤ x then .alarm else if lo ≤ x then .warn else .normal
    (hi ≤ x → after = .alarm) ∧ (x < hi → lo ≤ x → after = .warn) ∧ (x < hi → x < lo → after = .normal) := by
  refine ⟨fun hhi => if_pos hhi, fun hhi hlo => ?_, fun hhi hlo => ?_⟩
  · rw [if_neg (Int.not_le.mpr hhi), if_pos hlo]
  · rw [if_neg (Int.not_le.mpr hhi), if_neg (Int.not_le.mpr hlo)]

theorem bandAfter_table {item : ChannelItem} (h : item.kind ≠ .pressure) (b : Band) (avg : Int) :
    BandTable item (item.compared avg) b (item.bandAfter b avg) := by
  rw [bandAfter_eq h]
  obtain ⟨halarm, hwarn, hnormal⟩ := band_cases (item.alarmAt b) (item.warnAt b) (item.compared avg)
  cases b
  · exact ⟨fun _ => halarm, fun _ => hwarn, fun _ => hnormal, nofun, nofun, nofun, nofun, nofun, nofun⟩
  · exact ⟨nofun, nofun, nofun, fun _ => halarm, fun _ => hwarn, fun _ => hnormal, nofun, nofun, nofun⟩
  · exact ⟨nofun, nofun, nofun, nofun, nofun, nofun, fun _ => halarm, fun _ => hwarn, fun _ => hnormal⟩

theorem compared_velocity {item : ChannelItem} (h : item.kind = .velocity) (avg : Int) : item.compared avg = avg.natAbs := by
  simp only [ChannelItem.compared, h]

theorem compared_other {item : ChannelItem} (h : item.kind ≠ .velocity) (avg : Int) : item.compared avg = avg := by
  unfold ChannelItem.compared
  split
  next hkind => exact absurd hkind h
  · rfl

/-! ## WINDOW_HANDOVER -/

section
variable (s : State) (c : Fin 12) (w : Window)

/-- The channel that a window leaves. -/
def State.handedOver : Channel := s.channels[c].handOver s.active.channels[c] s.regs.seconds w

theorem tell_mail (m : Mail) (same read : Prop) [Decidable same] [Decidable read] (zone : Option (Fin 8)) (r : Reading) :
    (if read then
      { (if same then m else m.reevaluate zone) with
        readings := (if same then m else m.reevaluate zone).readings ++ [r] }
      else if same then m else m.reevaluate zone) =
      { m with reevaluations := (if same then m else m.reevaluate zone).reevaluations
               readings := m.readings ++ if read then [r] else [] } := by
  rw [reevaluate_eq m zone]
  split <;> split <;> simp

/-- The mail once the window is taken and, when it is a good one for a pending zero, the waiting card is answered. -/
def State.answered : Mail :=
  let m := { s.mail with windows := modify s.mail.windows c List.tail }
  if s.channels[c].takesZero s.active.channels[c] w then
    m.complete s.channels[c].zeroCard.toList (.plain .done (wordNat w.count) 0)
  else m

theorem takeWindow_eq :
    let d := s.handedOver c w
    let m := s.answered c w
    s.takeWindow c w = { (if s.channels[c].takesZero s.active.channels[c] w then s.takeZero c w.count else s) with
      channels := s.channels.set c d
      mail := { m with
        reevaluations := (if s.channels[c].status = d.status ∧ s.channels[c].band = d.band then m
          else m.reevaluate s.active.channels[c].zone).reevaluations
        readings := m.readings ++ if s.active.gallery.pressureChannel = some c then
          [{ status := d.status, average := average d.history }] else [] } } := by
  simp only [State.takeWindow, tell_mail]
  rfl

theorem answered_reevaluations : (s.answered c w).reevaluations = s.mail.reevaluations := by
  simp only [State.answered]
  split <;> rfl

theorem answered_readings : (s.answered c w).readings = s.mail.readings := by
  simp only [State.answered]
  split <;> rfl

theorem answered_ordinary (h : ¬TakesZero s.active.channels[c] s.channels[c] w) :
    s.answered c w = { s.mail with windows := modify s.mail.windows c List.tail } := by
  simp only [State.answered, Bool.eq_false_iff.mpr (mt (takesZero_iff _ _ _).mp h), Bool.false_eq_true, if_false]

theorem answered_zero (h : TakesZero s.active.channels[c] s.channels[c] w) : s.answered c w =
    ({ s.mail with windows := modify s.mail.windows c List.tail } : Mail).complete s.channels[c].zeroCard.toList
      (.plain .done (wordNat w.count) 0) := by
  simp only [State.answered, (takesZero_iff _ _ _).mpr h, if_true]

theorem takeWindow_channel : (s.takeWindow c w).channels[c] = s.handedOver c w := by
  rw [takeWindow_eq]
  exact Vector.getElem_set_self _

theorem takeWindow_channel_other {k : Fin 12} (hk : k ≠ c) : (s.takeWindow c w).channels[k] = s.channels[k] := by
  rw [takeWindow_eq]
  exact set_get_other _ _ hk

theorem takeWindow_reevaluations : (s.takeWindow c w).mail.reevaluations =
    (if s.channels[c].status = (s.handedOver c w).status ∧ s.channels[c].band = (s.handedOver c w).band then s.answered c w
      else (s.answered c w).reevaluate s.active.channels[c].zone).reevaluations := by
  rw [takeWindow_eq]

/-- The zone of the channel is told when the status or the band has changed. -/
theorem takeWindow_tells (z : Fin 8) : (s.takeWindow c w).mail.reevaluations[z] = s.mail.reevaluations[z] +
    if ¬(s.channels[c].status = (s.handedOver c w).status ∧ s.channels[c].band = (s.handedOver c w).band) ∧
      s.active.channels[c].zone = some z then 1 else 0 := by
  rw [takeWindow_reevaluations]
  split
  next hsame =>
    simp only [answered_reevaluations, hsame, and_self, not_true_eq_false, false_and, if_false, Nat.add_zero]
  next hchanged =>
    rw [reevaluate_get, answered_reevaluations]
    simp only [hchanged, not_false_eq_true, true_and]

theorem takeWindow_readings : (s.takeWindow c w).mail.readings = s.mail.readings ++
    if s.active.gallery.pressureChannel = some c then
      [{ status := (s.handedOver c w).status, average := average (s.handedOver c w).history }] else [] := by
  rw [takeWindow_eq, answered_readings]

theorem windowHandover_acts {s : State} {c : Fin 12} {w : Window} {rest : List Window} {post : State → Prop}
    (hrunning : s.running = true) (hwindow : s.mail.windows[c] = w :: rest) (hpost : post (s.takeWindow c w)) :
    Acts (.windowHandover c) s post := by
  refine ⟨_, ?_, hpost⟩
  change execWindowHandover c s = _
  unfold execWindowHandover
  rw [internal_acts hrunning (by rw [hwindow]; rfl), hwindow]

end

section
variable {s : State} {c : Fin 12} {w : Window} {rest : List Window}

theorem windows_tail (hwindow : s.mail.windows[c] = w :: rest) : modify s.mail.windows c List.tail = s.mail.windows.set c rest := by
  rw [modify, hwindow]
  rfl

theorem handedOver_ordinary (h : ¬TakesZero s.active.channels[c] s.channels[c] w) : s.handedOver c w =
    { s.channels[c].ordinary s.active.channels[c] w with
      lastCount := w.count, windowLength := w.lengthMs, windowTime := s.regs.seconds } :=
  handOver_ordinary _ w _ h

theorem handedOver_of_value {st : ChannelStatus} {v : Int} (h : ¬TakesZero s.active.channels[c] s.channels[c] w)
    (hjudge : s.active.channels[c].judge w = (st, some v)) : s.handedOver c w =
      { ({ s.channels[c] with status := st } : Channel).append s.active.channels[c] v with
        lastCount := w.count, windowLength := w.lengthMs, windowTime := s.regs.seconds } := by
  rw [handedOver_ordinary h, ordinary_of_value _ w _ hjudge]

end

/-- Settles O23: a window that takes no zero is judged by its count, and told to the zone and to the gallery. -/
theorem windowHandoverJudgesTheCount : Obligations.WindowHandoverJudgesTheCount := by
  intro c w rest s hrunning hwindow hzero
  refine windowHandover_acts hrunning hwindow ?_
  have hordinary := handedOver_ordinary hzero
  obtain ⟨hout, hpending⟩ := ordinary_leaves s.active.channels[c] w s.channels[c]
  have hframe : s.takeWindow c w = { s with
      channels := (s.takeWindow c w).channels
      mail := { s.mail with
        windows := s.mail.windows.set c rest, reevaluations := (s.takeWindow c w).mail.reevaluations
        readings := (s.takeWindow c w).mail.readings } } := by
    rw [takeWindow_eq, answered_ordinary s c w hzero, windows_tail hwindow,
      if_neg (Bool.not_eq_true _ ▸ mt (takesZero_iff _ _ _).mp hzero)]
  rw [takeWindow_channel]
  refine ⟨fun hlow => ?_, fun hlow hover => ?_, fun hlow hhigh hsaturated => ?_, ?_, ?_, ?_, ?_, ?_, fun hchanged z => ?_,
    fun hstatus hband => ?_, ?_, fun k hk => takeWindow_channel_other s c w hk, hframe⟩
  · rw [hordinary, ordinary_of_fault _ w _ hlow]
    exact ⟨rfl, rfl, rfl, rfl⟩
  · rw [handedOver_of_value hzero (judge_over _ w hlow hover)]
    exact ⟨rfl, rfl⟩
  · rw [handedOver_of_value hzero (judge_good _ w hlow hhigh hsaturated), ← clipValue_eq]
    exact ⟨rfl, rfl⟩
  · rw [hordinary]
  · rw [hordinary]
  · rw [hordinary]
  · rw [hordinary]
    exact hout
  · rw [hordinary]
    exact hpending
  · rw [takeWindow_tells]
    have hdiffers : ¬(s.channels[c].status = (s.handedOver c w).status ∧ s.channels[c].band = (s.handedOver c w).band) :=
      fun h => hchanged.elim (fun hs => hs h.1.symm) fun hb => hb h.2.symm
    simp only [hdiffers, not_false_eq_true, true_and]
  · rw [takeWindow_reevaluations, if_pos ⟨hstatus.symm, hband.symm⟩, answered_reevaluations]
  · rw [takeWindow_readings, average_eq]

/-- Settles O24: the band follows the thresholds, with the average of the history for its value. -/
theorem bandFollowsTheHysteresisTable : Obligations.BandFollowsTheHysteresisTable := by
  intro c w rest s hrunning hwindow hzero hfloor
  refine windowHandover_acts hrunning hwindow ?_
  obtain ⟨st, v, hjudge⟩ := judge_value s.active.channels[c] w hfloor
  have hvalue := handedOver_of_value hzero hjudge
  have hband : (s.handedOver c w).band =
      s.active.channels[c].bandAfter s.channels[c].band (averageOf (s.handedOver c w).history) := by
    rw [hvalue, ← getD_average]
    rfl
  have hsummary : (s.handedOver c w).summary = (s.channels[c].summary ||
      (decide ((s.handedOver c w).band = .alarm) && decide (s.channels[c].band ≠ .alarm) && !s.channels[c].out)) := by
    rw [hvalue]
    rfl
  rw [takeWindow_channel]
  refine ⟨fun hkind => ?_, fun hkind => ?_, fun hpressure hvelocity => ?_, ?_⟩
  · rw [hband]
    exact bandAfter_pressure hkind _ _
  · rw [hband, ← compared_velocity hkind]
    exact bandAfter_table (by rw [hkind]; nofun) _ _
  · rw [hband]
    have htable := bandAfter_table hpressure s.channels[c].band (averageOf (s.handedOver c w).history)
    rwa [compared_other hvelocity] at htable
  · rw [hsummary]
    simp [and_assoc]

/-- Settles O25: a good window of a channel that waits for its zero sets the zero count, live and staged, and answers the card. -/
theorem aGoodWindowTakesThePendingZero : Obligations.AGoodWindowTakesThePendingZero := by
  intro c w rest s hrunning hm hwindow hzero
  refine windowHandover_acts hrunning hwindow ?_
  have hd : s.handedOver c w = { s.channels[c] with
      status := .ok, history := [], zero := none, lastCount := w.count, windowLength := w.lengthMs
      windowTime := s.regs.seconds } := handOver_zero _ w _ hzero
  have heq := takeWindow_eq s c w
  simp only [if_pos ((takesZero_iff _ _ _).mpr hzero), answered_zero s c w hzero, windows_tail hwindow] at heq
  rw [takeWindow_channel]
  refine ⟨hd, ?_, ?_, fun x hx hx' => ?_, fun d => ?_, fun z => ?_, ?_, fun k hk => takeWindow_channel_other s c w hk, ?_⟩
  · rw [heq]
    rfl
  · rw [heq]
    exact Memory.readWord_writeWord_same _ _ hm
  · rw [heq]
    exact Memory.read_writeWord_other _ hx hx'
  · rw [heq]
    exact complete_card _ _ _ d
  · rw [takeWindow_tells, hd]
    simp [eq_comm]
  · rw [takeWindow_readings, hd]
    rfl
  · rw [heq]
    rfl

end Sys2Proof.Machine

/-! CHANNEL_SERVICE and ZERO (R66, R67, R70): a channel goes out of service and back, and waits for its zero. -/

namespace Sys2Proof.Machine

section
variable {t : Take} {c : Fin 12} {s : State}

theorem channelService_badArgument (s : State) (h : 2 ≤ t.card.a0.toNat) : s.channelService c t = s.reply t (.refuse .badArgument) :=
  if_pos h

theorem channelService_eq (s : State) {out : Bool} (h : t.card.a0 = BitVec.ofNat 16 (if out then 1 else 0)) :
    s.channelService c t = (s.setService c out).reply t (.plain .done (if s.channels[c].out then 1 else 0) 0) := by
  obtain ⟨hrange, hout⟩ := choice_of_ofNat h
  rw [State.channelService, if_neg hrange, hout, wordNat_boolNat]

theorem setService_same {out : Bool} (h : out = s.channels[c].out) : s.setService c out = s := if_pos h

theorem setService_out (h : true ≠ s.channels[c].out) : s.setService c true = { s with
    channels := s.channels.set c { s.channels[c] with out := true }
    mail := s.mail.reevaluate s.active.channels[c].zone } := by
  simp only [State.setService, if_neg h, if_true]

theorem setService_back (h : false ≠ s.channels[c].out) : s.setService c false = { s with
    channels := s.channels.set c s.channels[c].returnToService
    mail := (s.mail.complete s.channels[c].zeroCard.toList (.plain .overtaken 0 0)).reevaluate s.active.channels[c].zone } := by
  simp only [State.setService, if_neg h, Bool.false_eq_true, if_false]

theorem setService_leaves (s : State) (c : Fin 12) (out : Bool) :
    let a := s.setService c out
    a = { s with channels := a.channels, mail := { s.mail with
      completions := a.mail.completions, reevaluations := a.mail.reevaluations } } := by
  simp only [State.setService]
  split
  · rfl
  · split <;> cases s.active.channels[c].zone <;> rfl

theorem setService_other {k : Fin 12} (out : Bool) (hk : k ≠ c) : (s.setService c out).channels[k] = s.channels[k] := by
  simp only [State.setService]
  split
  · rfl
  · split <;> exact set_get_other _ _ hk

theorem setService_tells {out : Bool} (h : out ≠ s.channels[c].out) (z : Fin 8) : (s.setService c out).mail.reevaluations[z] =
    s.mail.reevaluations[z] + if s.active.channels[c].zone = some z then 1 else 0 := by
  cases out with
  | true =>
    rw [setService_out h]
    exact reevaluate_get _ _ z
  | false =>
    rw [setService_back h]
    exact reevaluate_get _ _ z

theorem reevaluate_completions (m : Mail) (zone : Option (Fin 8)) : (m.reevaluate zone).completions = m.completions := by
  cases zone <;> rfl

theorem wordNat_zero_one (b : Bool) : (if b then 1 else 0 : Word) = BitVec.ofNat 16 (if b then 1 else 0) := by
  cases b <;> rfl

/-! ## ZERO (R70) -/

theorem zeroChannel_notPermitted (h : s.channels[c].out = false) : s.zeroChannel c t = s.reply t (.refuse .notPermitted) :=
  if_pos h

theorem zeroChannel_busy (h : s.channels[c].out = true) (hzero : s.channels[c].zero.isSome = true) :
    s.zeroChannel c t = s.reply t (.refuse .busy) := by
  simp only [State.zeroChannel, h, hzero, Bool.true_eq_false, if_true, if_false]

theorem zeroChannel_accepted (h : s.channels[c].out = true) (hzero : s.channels[c].zero = none) (hwait : t.card.wait = false) :
    s.zeroChannel c t = State.reply t (.plain .accepted 0 0)
      { s with channels := s.channels.set c { s.channels[c] with zero := some { card := none } } } := by
  simp only [State.zeroChannel, h, hzero, hwait, Option.isSome_none, Bool.true_eq_false, Bool.false_eq_true, if_false]

theorem zeroChannel_waits (h : s.channels[c].out = true) (hzero : s.channels[c].zero = none) (hwait : t.card.wait = true) :
    s.zeroChannel c t = State.started { s with channels := s.channels.set c { s.channels[c] with
      zero := some { card := s.attachment t.deck } } } := by
  simp only [State.zeroChannel, h, hzero, hwait, Option.isSome_none, Bool.true_eq_false, Bool.false_eq_true, if_false, if_true]

end

/-- Settles O27: the two cards work on the channel they name, and a return to service overtakes the card that waits for a zero. -/
theorem channelServiceAndZeroWorkOnTheChannel : Obligations.ChannelServiceAndZeroWorkOnTheChannel := by
  refine ⟨fun t s h => ⟨refuses_badTarget h rfl, fun c htarget => ⟨fun hbad => ?_, fun out hout => ⟨fun hsame => ?_,
    fun hchange => ?_⟩⟩⟩, fun t s h => ⟨refuses_badTarget h rfl, fun c htarget => ⟨fun hout => ?_, fun hout hzero => ?_,
      fun hout hzero hwait => ?_, fun hout hzero hwait => ?_⟩⟩⟩
  · exact refuses_badArgument h rfl (by decide) htarget (channelService_badArgument s hbad)
  · refine answersAlone_of_reply h rfl ((onTarget_ofNat State.channelService s (by decide) htarget).trans ?_)
    rw [channelService_eq s hout, setService_same hsame, wordNat_zero_one]
    rfl
  · refine acts_dispatched h rfl ?_
    rw [onTarget_ofNat State.channelService s (by decide) htarget, channelService_eq s hout, wordNat_zero_one]
    refine ⟨rfl, fun htrue => ?_, fun hfalse => ?_, setService_tells hchange, fun k => setService_other out, ?_⟩
    · subst htrue
      rw [setService_out hchange]
      exact ⟨Vector.getElem_set_self _, reevaluate_completions _ _⟩
    · subst hfalse
      rw [setService_back hchange]
      refine ⟨Vector.getElem_set_self _, fun d => ?_⟩
      refine (congrArg (fun v : Vector (Option Answer) 4 => v[d]) (reevaluate_completions _ _)).trans ?_
      exact complete_card _ _ _ d
    · exact congrArg (State.reply t _) (setService_leaves s c out)
  · exact answersAlone_of_reply h rfl ((onTarget_ofNat State.zeroChannel s (by decide) htarget).trans (zeroChannel_notPermitted hout))
  · exact answersAlone_of_reply h rfl ((onTarget_ofNat State.zeroChannel s (by decide) htarget).trans (zeroChannel_busy hout hzero))
  · refine acts_dispatched h rfl ?_
    rw [onTarget_ofNat State.zeroChannel s (by decide) htarget, zeroChannel_accepted hout hzero hwait]
    rfl
  · refine acts_dispatched h rfl ?_
    rw [onTarget_ofNat State.zeroChannel s (by decide) htarget, zeroChannel_waits hout hzero hwait]
    rfl

end Sys2Proof.Machine

/-! The zone evaluator (sections 4.7, 4.8): what the channel table says of a zone, and the events of a zone. -/

namespace Sys2Proof.Machine

theorem seconds_eq (n : Nat) : seconds n = 1000 * n := Nat.mul_comm n 1000

theorem expired_some {due now : Nat} : expired (some due) now = decide (due ≤ now) := rfl

/-! ## The channel table (R76, R77) -/

section
variable (s : State) (z : Fin 8)

theorem counted_iff (c : Fin 12) : counted s.active.channels[c] s.channels[c] z = true ↔ s.isCounted c z := by
  simp [counted, State.isCounted, and_assoc]

theorem inWorst_iff (k : ChannelKind) : k.inWorst = true ↔ k ≠ .velocity ∧ k ≠ .pressure := by
  cases k <;> simp [ChannelKind.inWorst]

theorem triggers_iff (c : Fin 12) : triggers s.active.channels[c] s.channels[c] z = true ↔ s.isTriggering c z := by
  simp only [triggers, Bool.and_eq_true, counted_iff, decide_eq_true_eq, State.isTriggering, and_assoc]

/-- The highest of the bands that a list of channels shows, of those that take part. -/
def highestBand (takesPart : Fin 12 → Bool) (band : Fin 12 → Band) (l : List (Fin 12)) (start : Band) : Band :=
  l.foldl (fun acc c => if takesPart c then acc.max (band c) else acc) start

theorem demand_max (a b : Band) : a.demand ≤ (a.max b).demand ∧ b.demand ≤ (a.max b).demand ∧ (a.max b = a ∨ a.max b = b) := by
  cases a <;> cases b <;> decide

theorem highestBand_spec (takesPart : Fin 12 → Bool) (band : Fin 12 → Band) (l : List (Fin 12)) (start : Band) :
    let w := highestBand takesPart band l start
    start.demand ≤ w.demand ∧ (∀ c ∈ l, takesPart c = true → (band c).demand ≤ w.demand) ∧
      (w = start ∨ ∃ c ∈ l, takesPart c = true ∧ band c = w) := by
  induction l generalizing start with
  | nil => exact ⟨Nat.le_refl _, nofun, .inl rfl⟩
  | cons k l ih =>
    by_cases hk : takesPart k = true
    · have hstep : highestBand takesPart band (k :: l) start = highestBand takesPart band l (start.max (band k)) := by
        simp only [highestBand, List.foldl_cons, hk, if_true]
      obtain ⟨hstart, hbands, hfound⟩ := ih (start.max (band k))
      obtain ⟨hleft, hright, hone⟩ := demand_max start (band k)
      rw [hstep]
      refine ⟨hleft.trans hstart, fun c hc hpart => ?_, ?_⟩
      · rcases List.mem_cons.mp hc with rfl | hc
        · exact hright.trans hstart
        · exact hbands c hc hpart
      · rcases hfound with hfound | ⟨c, hc, hpart, hband⟩
        · rcases hone with hone | hone
          · exact .inl (hfound.trans hone)
          · exact .inr ⟨k, List.mem_cons_self, hk, (hfound.trans hone).symm⟩
        · exact .inr ⟨c, List.mem_cons_of_mem k hc, hpart, hband⟩
    · have hstep : highestBand takesPart band (k :: l) start = highestBand takesPart band l start := by
        simp only [highestBand, List.foldl_cons, hk]
        rfl
      obtain ⟨hstart, hbands, hfound⟩ := ih start
      rw [hstep]
      refine ⟨hstart, fun c hc hpart => ?_, hfound.imp_right fun ⟨c, hc, hrest⟩ => ⟨c, List.mem_cons_of_mem k hc, hrest⟩⟩
      rcases List.mem_cons.mp hc with rfl | hc
      · exact absurd hpart hk
      · exact hbands c hc hpart

theorem worstBand_eq : s.worstBand z = highestBand
    (fun c => counted s.active.channels[c] s.channels[c] z && s.active.channels[c].kind.inWorst) (fun c => s.channels[c].band)
    (List.finRange 12) .normal := rfl

theorem entersWorst_iff (c : Fin 12) :
    (counted s.active.channels[c] s.channels[c] z && s.active.channels[c].kind.inWorst) = true ↔ s.entersWorst c z := by
  rw [Bool.and_eq_true, counted_iff, inWorst_iff]
  rfl

theorem worstBand_spec : (∀ c, s.entersWorst c z → s.channels[c].band.demand ≤ (s.worstBand z).demand) ∧
    (s.worstBand z = .normal ∨ ∃ c, s.entersWorst c z ∧ s.channels[c].band = s.worstBand z) := by
  obtain ⟨-, hbands, hfound⟩ := highestBand_spec
    (fun c => counted s.active.channels[c] s.channels[c] z && s.active.channels[c].kind.inWorst) (fun c => s.channels[c].band)
    (List.finRange 12) .normal
  rw [worstBand_eq]
  refine ⟨fun c hc => hbands c (List.mem_finRange c) ((entersWorst_iff s z c).mpr hc), hfound.imp_right ?_⟩
  exact fun ⟨c, _, hpart, hband⟩ => ⟨c, (entersWorst_iff s z c).mp hpart, hband⟩

theorem evidence_iff : s.evidence z = true ↔ ∃ c, s.isTriggering c z := by
  simp only [State.evidence, List.any_eq_true, List.mem_finRange, true_and, triggers_iff]

/-! ## A creation request (R78, R80) -/

theorem pairwise_finRange_lt (n : Nat) : (List.finRange n).Pairwise (· < ·) := List.pairwise_lt_finRange n

theorem requestOf_isRequest : s.IsRequest z (s.requestOf z) := by
  have hmem (c : Fin 12) :
      c ∈ (List.finRange 12).filter (fun i => triggers s.active.channels[i] s.channels[i] z) ↔ s.isTriggering c z := by
    simp only [List.mem_filter, List.mem_finRange, true_and, triggers_iff]
  have hsorted := (List.pairwise_lt_finRange 12).filter fun i => triggers s.active.channels[i] s.channels[i] z
  have hlist : s.evidenceList z = ((List.finRange 12).filter fun i => triggers s.active.channels[i] s.channels[i] z).take 4 := rfl
  generalize (List.finRange 12).filter (fun i => triggers s.active.channels[i] s.channels[i] z) = l at hmem hsorted hlist
  have hevidence : (s.requestOf z).evidence = l.take 4 := hlist
  refine ⟨rfl, rfl, rfl, ?_, ?_, fun c hc => ?_, fun c hc => ?_⟩
  · rw [hevidence]
    exact List.length_take_le 4 l
  · rw [hevidence]
    exact hsorted.sublist (List.take_sublist 4 l)
  · rw [hevidence] at hc
    exact (hmem c).mp (List.mem_of_mem_take hc)
  · rw [hevidence]
    have hl := (hmem c).mpr hc
    rw [← List.take_append_drop 4 l] at hl hsorted
    rcases List.mem_append.mp hl with hfirst | hlater
    · exact .inl hfirst
    · refine .inr ⟨?_, fun e he => (List.pairwise_append.mp hsorted).2.2 e he c hlater⟩
      have hlong := List.length_pos_of_mem hlater
      rw [List.length_drop] at hlong
      rw [List.length_take]
      omega

theorem ask_asks : Asks s (s.ask z) z := ⟨s.requestOf z, requestOf_isRequest s z, rfl⟩

end

/-! ## A zone takes its evidence (R79, R81, R83) -/

section
variable (item : ZoneItem) (now : Nat) (sec : DWord) (worst : Band) (o : Zone)

theorem reevaluate_worst (ev : Bool) : (o.reevaluate item now sec worst ev).worst = worst := by
  simp only [Zone.reevaluate]
  split
  · rfl
  split
  · split <;> rfl
  · split <;> rfl

theorem reevaluate_evidence (ev : Bool) : (o.reevaluate item now sec worst ev).evidence = ev := by
  simp only [Zone.reevaluate]
  split
  · rfl
  split
  · split <;> rfl
  · split <;> rfl

theorem reevaluate_unchanged {ev : Bool} (h : ev = o.evidence) :
    o.reevaluate item now sec worst ev = { o with worst := worst } := by
  subst h
  simp only [Zone.reevaluate, if_true]

theorem reevaluate_confirms (h : o.evidence = false) (hstate : o.state = .quiet) (htime : item.confirmTime ≠ 0) :
    o.reevaluate item now sec worst true = { o with
      worst := worst, evidence := true, state := .confirming
      confirm := some { since := sec, due := now + 1000 * item.confirmTime } } := by
  simp only [Zone.reevaluate, h, Bool.true_eq_false, if_true, if_false, hstate, seconds_eq]
  exact if_pos ⟨trivial, htime⟩

theorem reevaluate_shown (h : o.evidence = false) (hstate : o.state ≠ .quiet ∨ item.confirmTime = 0) :
    o.reevaluate item now sec worst true = { o with worst := worst, evidence := true } := by
  simp only [Zone.reevaluate, h, Bool.true_eq_false, if_true, if_false]
  exact if_neg fun hq => hstate.elim (fun hs => hs hq.1) hq.2

theorem reevaluate_gone (h : o.evidence = true) : o.reevaluate item now sec worst false = { o with
    worst := worst, evidence := false, confirm := if o.state = .confirming then none else o.confirm
    state := if o.state = .confirming ∨ o.state = .blocked ∨ o.state = .held then .quiet else o.state } := by
  simp only [Zone.reevaluate, h, Bool.false_eq_true, if_false]
  split
  next hstate => simp [hstate]
  next hstate => simp [hstate]
  next hstate => simp [hstate]
  next hc hb hh => rw [if_neg hc, if_neg fun h => h.elim hc fun h => h.elim hb hh]

theorem asksAtOnce_iff (ev : Bool) : o.asksAtOnce item ev = true ↔
    ev = true ∧ o.evidence = false ∧ o.state = .quiet ∧ item.confirmTime = 0 := by
  simp [Zone.asksAtOnce, and_assoc]

end

theorem demand_inj {a b : Band} : a.demand = b.demand ↔ a = b := by
  cases a <;> cases b <;> decide

/-! ## ZONE_REEVALUATION -/

section
variable (z : Fin 8) (s : State)

theorem reevaluate_zone : (s.reevaluate z).zones[z] =
    s.zones[z].reevaluate s.active.zones[z] s.now s.regs.seconds (s.worstBand z) (s.evidence z) := by
  simp only [State.reevaluate]
  split <;> exact Vector.getElem_set_self _

theorem reevaluate_zone_other {k : Fin 8} (hk : k ≠ z) : (s.reevaluate z).zones[k] = s.zones[k] := by
  simp only [State.reevaluate]
  split <;> exact set_get_other _ _ hk

theorem reevaluate_demandLevels : (s.reevaluate z).mail.demandLevels =
    if s.worstBand z = s.zones[z].worst then s.mail.demandLevels
    else modify s.mail.demandLevels z (· ++ [(s.worstBand z).demand]) := by
  simp only [State.reevaluate, demand_inj]
  split <;> rfl

theorem reevaluate_demandLevel : (s.reevaluate z).mail.demandLevels[z] = s.mail.demandLevels[z] ++
    if s.worstBand z = s.zones[z].worst then [] else [(s.worstBand z).demand] := by
  simp only [reevaluate_demandLevels]
  split
  · exact (List.append_nil _).symm
  · exact modify_get_same _ _ _

theorem reevaluate_asks (h : s.zones[z].asksAtOnce s.active.zones[z] (s.evidence z) = true) : Asks s (s.reevaluate z) z := by
  simp only [State.reevaluate, h, if_true]
  exact ⟨s.requestOf z, requestOf_isRequest s z, rfl⟩

theorem reevaluate_keepsRequests (h : ¬s.zones[z].asksAtOnce s.active.zones[z] (s.evidence z) = true) :
    (s.reevaluate z).mail.requests = s.mail.requests := by
  simp only [State.reevaluate, h]
  rfl

theorem reevaluate_leaves : let a := s.reevaluate z
    a = { s with zones := a.zones, mail := { s.mail with demandLevels := a.mail.demandLevels, requests := a.mail.requests } } := by
  simp only [State.reevaluate]
  split <;> rfl

end

/-- Settles O28: a zone takes the worst band and the evidence of its channels, and asks for an incident when it is its time. -/
theorem zonesFollowTheirEvidence : Obligations.ZonesFollowTheirEvidence := by
  refine ⟨fun z s hrunning hwaits hfree => ?_, fun z s hrunning hfree => ?_⟩
  · let p : State := { s with mail := { s.mail with reevaluations := modify s.mail.reevaluations z (· - 1) } }
    have hwaiting : (decide (0 < s.mail.reevaluations[z]) && s.zoneFree z) = true := by
      rw [decide_eq_true hwaits, State.zoneFree, hfree]
      rfl
    refine ⟨p.reevaluate z, ?_, ?_⟩
    · change execZoneReevaluation z s = _
      exact internal_acts hrunning hwaiting
    have hzone := reevaluate_zone z p
    have hworst : (p.reevaluate z).zones[z].worst = s.worstBand z := by rw [hzone, reevaluate_worst]; rfl
    have hevidence : (p.reevaluate z).zones[z].evidence = s.evidence z := by rw [hzone, reevaluate_evidence]; rfl
    have hcount : (p.reevaluate z).mail.reevaluations = p.mail.reevaluations := by rw [reevaluate_leaves z p]
    obtain ⟨hbands, hfound⟩ := worstBand_spec s z
    dsimp only
    rw [hworst, hevidence, hcount]
    refine ⟨hbands, hfound, evidence_iff s z, fun hsame => ?_, fun hev hold hquiet htime => ?_, fun hev hold hstate => ?_,
      fun hev hold hquiet htime => ?_, fun hnot => ?_, fun hev hold => ?_, ?_, ?_, fun k hk => ⟨reevaluate_zone_other z p hk, ?_, ?_⟩,
      ?_⟩
    · exact hzone.trans (reevaluate_unchanged _ _ _ _ _ hsame)
    · rw [hzone]
      have hpev : p.evidence z = true := hev
      rw [hpev]
      exact reevaluate_confirms _ _ _ _ _ hold hquiet htime
    · rw [hzone]
      have hpev : p.evidence z = true := hev
      rw [hpev]
      exact reevaluate_shown _ _ _ _ _ hold hstate
    · exact reevaluate_asks z p ((asksAtOnce_iff _ _ _).mpr ⟨hev, hold, hquiet, htime⟩)
    · exact reevaluate_keepsRequests z p (mt (asksAtOnce_iff _ _ _).mp hnot)
    · rw [hzone]
      have hpev : p.evidence z = false := hev
      rw [hpev]
      exact reevaluate_gone _ _ _ _ _ hold
    · exact reevaluate_demandLevel z p
    · have hone : p.mail.reevaluations[z] = s.mail.reevaluations[z] - 1 := modify_get_same _ _ _
      omega
    · rw [reevaluate_demandLevels]
      split
      · rfl
      · exact modify_get_other _ _ hk
    · exact modify_get_other _ _ hk
    · exact reevaluate_leaves z p
  · have hfreeZone : s.zoneFree z = true := by rw [State.zoneFree, hfree]; rfl
    refine ⟨fun timer hstate htimer hdue => ⟨s.ask z, ?_, ask_asks s z, rfl⟩, fun timer htimer hdue => ?_, fun hslot => ?_,
      fun i rest hfreed => ?_⟩
    · refine internal_acts hrunning ?_
      simp only [State.confirmDue, hstate, htimer, Option.map_some, expired_some, decide_eq_true hdue, hfreeZone]
      rfl
    · refine internal_idle ?_
      simp only [State.confirmDue, htimer, Option.map_some, expired_some, decide_eq_false (Nat.not_le.mpr hdue), Bool.and_false,
        Bool.false_and]
    · let p : State := { s with mail := { s.mail with slotFreed := modify s.mail.slotFreed z (· - 1) } }
      refine ⟨if s.zones[z].state = .blocked then p.ask z else p, ?_, fun hblocked => ?_, fun hblocked => ?_, ?_⟩
      · change execSlotFreed z s = _
        refine internal_acts hrunning ?_
        rw [decide_eq_true hslot, hfreeZone]
        rfl
      · rw [if_pos hblocked]
        exact ask_asks p z
      · rw [if_neg hblocked]
      · split <;> rfl
    · have hwaiting : (!s.mail.incidentFreed[z].isEmpty && s.zoneFree z) = true := by
        rw [hfreed, hfreeZone]
        rfl
      refine ⟨{ s with zones := modify s.zones z (Zone.freed i)
                       mail := { s.mail with incidentFreed := s.mail.incidentFreed.set z rest } }, ?_,
        fun hstate hident => ?_, fun hother => ?_, fun k hk => modify_get_other _ _ hk, rfl⟩
      · change execIncidentFreed z s = _
        refine (internal_acts hrunning hwaiting).trans ?_
        simp only [hfreed]
      · exact (modify_get_same _ _ _).trans (if_pos ⟨hstate, hident⟩)
      · refine (modify_get_same _ _ _).trans (if_neg fun h => ?_)
        exact hother.elim (fun hs => hs h.1) fun hi => hi h.2

end Sys2Proof.Machine

/-! What one event of the fan controller makes of the fan it acts on, in the words of the statements: the states that it passes
through (R92 to R100), its place in the queue (R102) and its claim (R87 to R91). -/

namespace Sys2Proof.Machine

/-! ## The fan after an event -/

/-- The change of an event, before start slots are granted, leaves the fan as the unit `v` has it. -/
structure Brings (s : State) (act : FanUnit → FanUnit) (f : Fin 8) (v : FanUnit) : Prop where
  fan : (act s.fans).fans[f] = v.fans[f]
  queued : f ∈ (act s.fans).queue ↔ f ∈ v.queue

theorem fanEvent_queue (act : FanUnit → FanUnit) (s : State) :
    (s.fanEvent act).fans.queue = ((act s.fans).grant s.ctx 8).queue := by
  simp only [State.fanEvent]

theorem fanEvent_galleryDemand (act : FanUnit → FanUnit) (s : State) :
    (s.fanEvent act).fans.galleryDemand = (act s.fans).galleryDemand :=
  (grant_frame s.ctx 8 (act s.fans)).2.2.2

theorem fanEvent_zoneDemand (act : FanUnit → FanUnit) (s : State) :
    (s.fanEvent act).fans.zoneDemand = (act s.fans).zoneDemand :=
  (grant_frame s.ctx 8 (act s.fans)).2.2.1

section
variable {s : State} {act : FanUnit → FanUnit} {f : Fin 8} {u v : FanUnit}

theorem Brings.refl : Brings s act f (act s.fans) := ⟨rfl, .rfl⟩

/-- A fan out of the queue takes no start slot. -/
theorem Brings.rests (h : Brings s act f v) (hv : f ∉ v.queue) : Rests (s.fanEvent act) f v.fans[f] := by
  have hq : f ∉ (act s.fans).queue := mt h.queued.mp hv
  have hfan := fanEvent_fan act s f
  rw [(grant_frame s.ctx 8 (act s.fans)).1 f hq, h.fan] at hfan
  refine ⟨?_, hfan⟩
  rw [fanEvent_queue]
  exact fun hmem => hq ((grant_sublist s.ctx 8 _).mem hmem)

/-- A fan in the queue waits there, or takes a start slot. -/
theorem Brings.waits (h : Brings s act f v) (hv : f ∈ v.queue) : Waits s (s.fanEvent act) f v.fans[f] := by
  have hfan := fanEvent_fan act s f
  obtain ⟨hwaits, hgranted⟩ := grant_each s 8 (act s.fans) f
  unfold Waits
  rw [fanEvent_queue]
  by_cases hq : f ∈ ((act s.fans).grant s.ctx 8).queue
  · rw [hwaits hq, h.fan] at hfan
    exact .inl ⟨hq, hfan⟩
  · rw [hgranted (h.queued.mpr hv) hq, h.fan] at hfan
    exact .inr ⟨hq, hfan⟩

/-! ## Entering a state (R92, R96) -/

theorem enterFaulted_same (p : State) (f : Fin 8) (c : FanFault) (u : FanUnit) :
    (u.enterFaulted p.ctx f c).fans[f] = u.fans[f].entering p p.active.fans[f] .faulted c := by
  unfold FanUnit.enterFaulted
  rw [change_same, enter_same]
  rfl

theorem enterQueued_same (p : State) (f : Fin 8) (u : FanUnit) :
    (u.enterQueued p.ctx f).fans[f] = u.fans[f].entering p p.active.fans[f] .queued .none := by
  rw [← enter_same, enter_fan, enterQueued_fan]

theorem rundownOver_iff (p : State) (item : FanItem) (e : Fan) : e.rundownOver p.ctx item = true ↔ e.atRest item p.now := by
  simp [Fan.rundownOver, Fan.atRest, seconds_eq, State.ctx]

/-! ## Leaving STOPPED (R93, R94) -/

theorem leaveStopped_of_stop (x : Ctx) (h : v.fans[f].target = .stop) : v.leaveStopped x f = v := by
  simp only [FanUnit.leaveStopped, h]

theorem leaveStopped_of_fault (x : Ctx) {dir : Direction} {speed : Nat} (h : v.fans[f].target = .run dir speed)
    (hfault : v.fans[f].fault = true) : v.leaveStopped x f = v.enterFaulted x f .driveFault := by
  simp only [FanUnit.leaveStopped, h, hfault, if_true]

theorem leaveStopped_of_run (x : Ctx) {dir : Direction} {speed : Nat} (h : v.fans[f].target = .run dir speed)
    (hfault : v.fans[f].fault = false) :
    v.leaveStopped x f = (v.change f ({ · with reverse := decide (dir = .rev) })).enterQueued x f := by
  simp only [FanUnit.leaveStopped, h, hfault, Bool.false_eq_true, if_false]

theorem Brings.leavesRest (h : Brings s act f (v.leaveStopped s.ctx f)) (hv : f ∉ v.queue) :
    LeavesRest s (s.fanEvent act) f v.fans[f] := by
  refine ⟨fun htarget => ?_, fun dir speed htarget hfault => ?_, fun dir speed htarget hfault => ?_⟩
  · rw [leaveStopped_of_stop _ htarget] at h
    exact h.rests hv
  · rw [leaveStopped_of_fault _ htarget hfault] at h
    have hrests := h.rests (not_mem_enterFaulted _ f v _)
    rwa [enterFaulted_same] at hrests
  · rw [leaveStopped_of_run _ htarget hfault] at h
    have hwaits := h.waits (mem_enterQueued _ f _)
    rwa [enterQueued_same, change_same] at hwaits

/-! ## STOPPING (R98) -/

theorem checkRundown_of_not_over (h : ¬v.fans[f].atRest s.active.fans[f] s.now) : v.checkRundown s.ctx f = v := by
  unfold FanUnit.checkRundown
  exact if_neg (mt (rundownOver_iff s _ _).mp h)

theorem checkRundown_of_over (h : v.fans[f].atRest s.active.fans[f] s.now) (hv : f ∉ v.queue) :
    v.checkRundown s.ctx f = (v.enter s.ctx f .stopped).leaveStopped s.ctx f := by
  unfold FanUnit.checkRundown
  exact (if_pos ((rundownOver_iff s _ _).mpr h)).trans (if_neg (mt List.contains_iff_mem.mp hv))

theorem checkRundown_of_queued (h : v.fans[f].atRest s.active.fans[f] s.now) (hv : f ∈ v.queue) :
    v.checkRundown s.ctx f = v.enterQueued s.ctx f := by
  unfold FanUnit.checkRundown
  exact (if_pos ((rundownOver_iff s _ _).mpr h)).trans (if_pos (List.contains_iff_mem.mpr hv))

theorem Brings.stopped (h : Brings s act f ((v.enter s.ctx f .stopped).leaveStopped s.ctx f)) :
    LeavesRest s (s.fanEvent act) f (v.fans[f].entering s s.active.fans[f] .stopped .none) := by
  have hleaves := h.leavesRest (not_mem_enter _ f v _)
  rwa [enter_same] at hleaves

theorem Brings.entersStopping (h : Brings s act f (v.enterStopping s.ctx f)) :
    EntersStopping s (s.fanEvent act) f v.fans[f] := by
  have hout := not_mem_enter s.ctx f v .stopping
  have hsame := enter_same s f .stopping v
  refine ⟨fun hfault => ?_, fun hfault hrest => ?_, fun hfault hrest => ?_⟩
  · have hunit : v.enterStopping s.ctx f = (v.enter s.ctx f .stopping).enterFaulted s.ctx f .driveFault := by
      simp only [FanUnit.enterStopping, FanUnit.enterChecked, hfault, if_true]
    rw [hunit] at h
    have hrests := h.rests (not_mem_enterFaulted _ f _ _)
    rwa [enterFaulted_same, hsame] at hrests
  all_goals
    have hunit : v.enterStopping s.ctx f = (v.enter s.ctx f .stopping).checkRundown s.ctx f := by
      simp only [FanUnit.enterStopping, hfault, Bool.false_eq_true, if_false]
    rw [hunit] at h
  · rw [checkRundown_of_over (by rwa [hsame]) hout] at h
    have hstopped := h.stopped
    rwa [hsame] at hstopped
  · rw [checkRundown_of_not_over (by rwa [hsame])] at h
    have hrests := h.rests hout
    rwa [hsame] at hrests

/-! ## A new target (R99) -/

theorem recompute_of_same (x : Ctx) (h : (u.claim x f).fans[f].target = u.fans[f].target) : u.recompute x f = u.claim x f := if_pos h

theorem recompute_of_changed (x : Ctx) (h : (u.claim x f).fans[f].target ≠ u.fans[f].target) :
    u.recompute x f = (u.claim x f).pursue x f := if_neg h

/-- A target that a claim gives is pursued from the unit that the claim was made in. -/
theorem Brings.pursuesFrom (h : Brings s act f (u.recompute s.ctx f)) :
    PursuesTarget { s with fans := u } (s.fanEvent act) f (u.claim s.ctx f).fans[f] := by
  unfold PursuesTarget
  simp only [← mem_claim s.ctx f u]
  have hkept (hsame : ¬(u.claim s.ctx f).fans[f].target ≠ u.fans[f].target) : Brings s act f (u.claim s.ctx f) := by
    rwa [recompute_of_same _ (not_not.mp hsame)] at h
  have hpursued (hchanged : (u.claim s.ctx f).fans[f].target ≠ u.fans[f].target) :
      Brings s act f ((u.claim s.ctx f).pursue s.ctx f) := by
    rwa [recompute_of_changed _ hchanged] at h
  generalize u.claim s.ctx f = v at hkept hpursued
  have hstays (hchanged : v.fans[f].target ≠ u.fans[f].target) (hpursue : v.pursue s.ctx f = v) : Brings s act f v := by
    have hv := hpursued hchanged
    rwa [hpursue] at hv
  refine ⟨fun hsame hv => (hkept hsame).waits hv, fun hsame hv => (hkept hsame).rests hv, fun hchanged hs hv => ?_,
    fun hchanged hs hv hd => ?_, fun hchanged hs hd => ?_, fun hchanged hs hv hd => ?_, fun hchanged hs hv hd => ?_,
    fun hchanged hs hd => ?_, fun hchanged hs hd hflying => ?_, fun hchanged hs hd hflying hv => ?_, fun hchanged hs hd => ?_,
    fun hchanged hs hv => ?_⟩
  · have hbrings := hpursued hchanged
    simp only [FanUnit.pursue, hs] at hbrings
    exact hbrings.leavesRest hv
  · exact (hstays hchanged (by simp only [FanUnit.pursue, hs, (sameDirection_iff _).mpr hd, if_true])).waits hv
  · have hbrings := hpursued hchanged
    simp only [FanUnit.pursue, hs, mt (sameDirection_iff _).mp hd] at hbrings
    exact hbrings.stopped
  · exact (hstays hchanged (by simp only [FanUnit.pursue, hs, (sameDirection_iff _).mpr hd, if_true])).rests hv
  · have hbrings := hpursued hchanged
    simp only [FanUnit.pursue, hs, (sameDirection_iff _).mpr hd, if_true, seconds_eq] at hbrings
    have hrests := hbrings.rests hv
    rwa [change_same] at hrests
  · have hbrings := hpursued hchanged
    have hstopping : v.pursue s.ctx f = v.enterStopping s.ctx f := by
      rcases hs with hs | hs <;> simp only [FanUnit.pursue, hs, mt (sameDirection_iff _).mp hd] <;> rfl
    rw [hstopping] at hbrings
    exact hbrings.entersStopping
  · have hbrings := hpursued hchanged
    have hjoins : v.pursue s.ctx f = v.joinQueue f := by
      simp only [FanUnit.pursue, hs, (sameDirection_iff _).mpr hd, if_true]
      exact if_pos hflying
    rw [hjoins] at hbrings
    have hwaits := hbrings.waits ((mem_joinQueue v f).mpr (.inl rfl))
    simp only [joinQueue_fans] at hwaits
    exact hwaits
  · refine (hstays hchanged ?_).rests hv
    simp only [FanUnit.pursue, hs, (sameDirection_iff _).mpr hd, if_true]
    exact if_neg (by rw [show s.ctx.cfg = s.active from rfl, hflying]; exact nofun)
  · have hbrings := hpursued hchanged
    simp only [FanUnit.pursue, hs, mt (sameDirection_iff _).mp hd] at hbrings
    exact hbrings.rests (by simp)
  · refine (hstays hchanged ?_).rests hv
    rcases hs with hs | hs | hs <;> simp only [FanUnit.pursue, hs]

theorem Brings.pursues (hqueue : f ∈ u.queue ↔ f ∈ s.fans.queue) (htarget : u.fans[f].target = s.fans.fans[f].target)
    (h : Brings s act f (u.recompute s.ctx f)) : PursuesTarget s (s.fanEvent act) f (u.claim s.ctx f).fans[f] := by
  unfold PursuesTarget
  rw [← htarget, ← hqueue]
  exact h.pursuesFrom

/-! ## Owner and target after the event -/

theorem Fan.Moved.owner {e n : Fan} (h : e.Moved n) : n.owner = e.owner := (congrArg Fan.owner h).trans rfl

theorem Fan.Moved.target {e n : Fan} (h : e.Moved n) : n.target = e.target := (congrArg Fan.target h).trans rfl

theorem Fan.Moved.out {e n : Fan} (h : e.Moved n) : n.out = e.out := (congrArg Fan.out h).trans rfl

theorem Fan.Moved.demand {e n : Fan} (h : e.Moved n) : n.demand = e.demand := (congrArg Fan.demand h).trans rfl

theorem Fan.Moved.incident {e n : Fan} (h : e.Moved n) : n.incident = e.incident := (congrArg Fan.incident h).trans rfl

theorem Fan.Moved.entryTarget {e n : Fan} (h : e.Moved n) : n.entryTarget = e.entryTarget :=
  (congrArg Fan.entryTarget h).trans rfl

theorem granted_moved (e : Fan) (p : State) (item : FanItem) : e.Moved (e.granted p item) := by
  unfold Fan.granted
  simp only
  split
  · rfl
  · split <;> rfl

/-- The grants and the answers of an event leave what the claims read. -/
theorem Brings.moved (h : Brings s act f v) : v.fans[f].Moved (s.fanEvent act).fans.fans[f] := by
  have hfan := fanEvent_fan act s f
  have hgrant : v.fans[f].Moved ((act s.fans).grant s.ctx 8).fans[f] := by
    obtain ⟨hwaits, hgranted⟩ := grant_each s 8 (act s.fans) f
    rw [← h.fan]
    by_cases hq : f ∈ (act s.fans).queue
    · by_cases hg : f ∈ ((act s.fans).grant s.ctx 8).queue
      · rw [hwaits hg]
        exact .refl _
      · rw [hgranted hq hg]
        exact granted_moved _ s _
    · rw [(grant_frame s.ctx 8 (act s.fans)).1 f hq]
      exact .refl _
  refine hgrant.trans ?_
  rw [hfan]
  rfl

theorem Brings.owned (h : Brings s act f v) (hv : OwnedByHighest s.active v f)
    (hdemand : (act s.fans).galleryDemand = v.galleryDemand) : OwnedByHighest s.active (s.fanEvent act).fans f :=
  hv.congr h.moved (.inl ((fanEvent_galleryDemand act s).trans hdemand))

theorem Brings.follows (h : Brings s act f v) (hv : FollowsOwner s.active v f)
    (hdemand : (act s.fans).galleryDemand = v.galleryDemand) : FollowsOwner s.active (s.fanEvent act).fans f :=
  hv.congr h.moved ((fanEvent_galleryDemand act s).trans hdemand)

/-! ## The frame of an event -/

/-- Changes at a fan that its place in the queue does not look at. -/
def Fan.SamePlace (e n : Fan) : Prop := n.owner = e.owner ∧ n.state = e.state ∧ n.out = e.out ∧ n.reverse = e.reverse

theorem KeepsPlace.of_samePlace {acted : Fin 8 → Prop} {k : Fin 8} {w : FanUnit} (hqueue : v.queue = u.queue)
    (hk : u.fans[k].SamePlace v.fans[k]) : KeepsPlace v w acted k ↔ KeepsPlace u w acted k := by
  obtain ⟨howner, hstate, hout, hreverse⟩ := hk
  unfold KeepsPlace SameClass
  rw [hqueue, howner, hstate, hout, hreverse]

theorem QueueInOrder.of_samePlace {acted : Fin 8 → Prop} {w : FanUnit} (h : QueueInOrder v w acted) (hqueue : v.queue = u.queue)
    (hfans : ∀ k : Fin 8, u.fans[k].SamePlace v.fans[k]) : QueueInOrder u w acted := by
  intro j k hjk hj hjw
  obtain ⟨hkept, hback⟩ := h j k hjk ((KeepsPlace.of_samePlace hqueue (hfans j)).mpr hj) hjw
  rw [hqueue] at hkept
  refine ⟨fun hk => hkept ((KeepsPlace.of_samePlace hqueue (hfans k)).mpr hk), fun ha hkw hclass hjoins => hback ha hkw hclass ?_⟩
  obtain ⟨howner, hstate, -, hreverse⟩ := hfans k
  unfold JoinsBack SameClass at hjoins ⊢
  rwa [hqueue, howner, hstate, hreverse]

theorem Placed.of_samePlace {w : FanUnit} (h : Placed f v w) (hqueue : v.queue = u.queue) (hf : u.fans[f].SamePlace v.fans[f]) :
    Placed f u w := by
  cases h with
  | kept hq hc hr =>
    obtain ⟨howner, hstate, -, hreverse⟩ := hf
    unfold SameClass at hc
    rw [hqueue] at hq hc hr
    rw [howner] at hc
    rw [hstate, hreverse] at hr
    exact .kept hq hc hr
  | gone h => exact .gone h
  | back hb hm => exact .back hb fun hk => hm ((KeepsPlace.of_samePlace hqueue hf).mpr hk)

/-- The frame of an event at one fan. -/
theorem OneFan.frame (hone : OneFan f s.fans (act s.fans)) (hplaced : Placed f s.fans (act s.fans)) :
    FanEventFrame s (s.fanEvent act) (· = f) := by
  have hframe := fanEvent_frame s act (· = f) (fun k hk => ⟨hone.touches.other k hk, hone.member k hk⟩)
    (fun k => by
      by_cases hk : k = f
      · subst hk; exact hone.touches.attached
      · rw [hone.touches.other k hk])
    hone.nodup fun _ hclasses => hone.queueInOrder hplaced hclasses
  rwa [hone.zoneDemand, hone.galleryDemand] at hframe

/-- The frame of an event that changes nothing in the unit. -/
theorem fanEventFrame_of_eq (h : act s.fans = s.fans) : FanEventFrame s (s.fanEvent act) (fun _ => False) := by
  have hframe := fanEvent_frame s act (fun _ => False) (fun k _ => by rw [h]; exact ⟨rfl, .rfl⟩) (fun k => by rw [h])
    (by rw [h]; exact id) fun _ _ j k _ _ _ => by rw [h]; exact ⟨fun _ _ hs => hs, False.elim⟩
  rwa [h] at hframe

end

end Sys2Proof.Machine

/-! The contacts of a fan (R93 to R98): RUNNING, FAULT and LOCAL. -/

namespace Sys2Proof.Machine

theorem Brings.of_eq {s : State} {act : FanUnit → FanUnit} {f : Fin 8} {v : FanUnit} (h : act s.fans = v) : Brings s act f v := by
  subst h
  exact .refl

theorem popContact_eq {s : State} {i : Fin 36} {level : Bool} {rest : List Bool} (h : s.mail.contactChanges[i] = level :: rest) :
    s.popContact i = { s with mail := { s.mail with contactChanges := s.mail.contactChanges.set i rest } } := by
  simp only [State.popContact, modify, h, List.tail_cons]

theorem fanContact_acts {s : State} {f : Fin 8} {k : Fin 3} {level : Bool} {rest : List Bool} {c : Instr} {post : State → Prop}
    {act : Ctx → Bool → FanUnit → FanUnit} (hrunning : s.running = true)
    (hexec : exec c s = internal s (s.contactWaiting (fanInput f k)) (State.fanContact f k act))
    (hchange : s.mail.contactChanges[fanInput f k] = level :: rest)
    (hpost : post (State.fanEvent (act s.ctx level)
      { s with mail := { s.mail with contactChanges := s.mail.contactChanges.set (fanInput f k) rest } })) : Acts c s post := by
  have hwaiting : s.contactWaiting (fanInput f k) = true := by
    rw [State.contactWaiting, hchange]
    rfl
  refine ⟨_, ?_, hpost⟩
  rw [hexec, internal_acts hrunning hwaiting]
  simp only [State.fanContact, hchange, popContact_eq hchange]

/-! ## RUNNING -/

section
variable {x : Ctx} {f : Fin 8} {level : Bool} {u : FanUnit}

theorem setRunning_oneFan : OneFan f u (u.change f ({ · with running := level })) := change_oneFan rfl (fun _ => rfl) id

theorem change_samePlace {g : Fan → Fan} (hg : u.fans[f].SamePlace (g u.fans[f])) : u.fans[f].SamePlace (u.change f g).fans[f] := by
  rwa [change_same]

theorem change_placed {g : Fan → Fan} (hg : u.fans[f].SamePlace (g u.fans[f])) : Placed f u (u.change f g) :=
  (Placed.refl f (u.change f g)).of_samePlace rfl (change_samePlace hg)

theorem runningContact_oneFan : OneFan f u (u.runningContact x f level) := by
  unfold FanUnit.runningContact
  simp only
  split
  · split
    · exact setRunning_oneFan.trans (enterStopping_oneFan x f _)
    · exact setRunning_oneFan
  · split
    · exact setRunning_oneFan.trans (enterStopping_oneFan x f _)
    · exact setRunning_oneFan
  · split
    · exact setRunning_oneFan.trans (enterChecked_oneFan x f _ nofun)
    · exact setRunning_oneFan
  · split
    · exact setRunning_oneFan
    · exact setRunning_oneFan.trans (enterFaulted_oneFan x f _ _)
  · exact setRunning_oneFan.trans (checkRundown_oneFan x f _)
  · exact setRunning_oneFan

/-- A fan that is turning does not rest on the way through STOPPING. -/
theorem enterStopping_gone {v : FanUnit} (h : v.fans[f].running = true) : f ∉ (v.enterStopping x f).queue := by
  unfold FanUnit.enterStopping
  split
  · exact not_mem_enterChecked x f v _
  · unfold FanUnit.checkRundown
    have hturns : ¬(v.enter x f .stopping).fans[f].rundownOver x x.cfg.fans[f] = true := by
      rw [enter_fan]
      unfold Fan.rundownOver
      rw [show (Fan.enter x x.cfg.fans[f] .stopping v.fans[f]).running = true from h]
      exact nofun
    rw [if_neg hturns]
    exact not_mem_enter x f v _

theorem checkRundown_placed (h : u.fans[f].state = .stopping) : Placed f u (u.checkRundown x f) := by
  unfold FanUnit.checkRundown
  split
  · split
    next hin =>
      unfold FanUnit.enterQueued
      have hmem : f ∈ u.queue := List.contains_iff_mem.mp hin
      rw [joinQueue_of_mem (by exact hmem)]
      exact .kept rfl (fun _ => .of_owner (by rw [change_same]; rfl)) fun _ hq => nomatch h.symm.trans hq
    next hout =>
      exact .of_gone_or_back (leaveStopped_gone_or_back x (not_mem_enter x f u _))
        (not_keepsPlace_of_not_mem (mt List.contains_iff_mem.mpr hout))
  · exact .refl f u

theorem runningContact_placed : Placed f u (u.runningContact x f level) := by
  have hplace : u.fans[f].SamePlace (u.change f ({ · with running := level })).fans[f] := change_samePlace ⟨rfl, rfl, rfl, rfl⟩
  have hkept : Placed f u (u.change f ({ · with running := level })) := change_placed ⟨rfl, rfl, rfl, rfl⟩
  unfold FanUnit.runningContact
  simp only
  split
  · split
    next hl => exact .gone (enterStopping_gone (by rw [change_same]; exact hl))
    · exact hkept
  · split
    next hl => exact .gone (enterStopping_gone (by rw [change_same]; exact hl))
    · exact hkept
  · split
    · exact .gone (not_mem_enterChecked x f _ _)
    · exact hkept
  · split
    · exact hkept
    · exact .gone (not_mem_enterFaulted x f _ _)
  next hs => exact (checkRundown_placed (by rw [change_same]; exact hs)).of_samePlace rfl hplace
  · exact hkept

/-- The fan unit with the new level at the RUNNING contact. -/
def FanUnit.setRunning (f : Fin 8) (level : Bool) (u : FanUnit) : FanUnit := u.change f ({ · with running := level })

theorem runningContact_idle (h : u.fans[f].state = .stopped ∨ u.fans[f].state = .queued) : u.runningContact x f level =
    if level then (u.setRunning f level).enterStopping x f else u.setRunning f level := by
  rcases h with h | h <;> simp only [FanUnit.runningContact, h] <;> rfl

theorem runningContact_starting (h : u.fans[f].state = .starting) : u.runningContact x f level =
    if level then (u.setRunning f level).enterChecked x f .running else u.setRunning f level := by
  simp only [FanUnit.runningContact, h]
  rfl

theorem runningContact_running (h : u.fans[f].state = .running) : u.runningContact x f level =
    if level then u.setRunning f level else (u.setRunning f level).enterFaulted x f .feedbackLost := by
  simp only [FanUnit.runningContact, h]
  rfl

theorem runningContact_stopping (h : u.fans[f].state = .stopping) : u.runningContact x f level =
    (u.setRunning f level).checkRundown x f := by
  simp only [FanUnit.runningContact, h]
  rfl

theorem runningContact_unavailable (h : u.fans[f].state.isUnavailable) : u.runningContact x f level = u.setRunning f level := by
  rcases h with h | h | h <;> simp only [FanUnit.runningContact, h] <;> rfl

theorem enterChecked_of_fault (st : FanState) (h : u.fans[f].fault = true) :
    u.enterChecked x f st = (u.enter x f st).enterFaulted x f .driveFault := if_pos h

theorem enterChecked_of_sound (st : FanState) (h : u.fans[f].fault = false) : u.enterChecked x f st = u.enter x f st :=
  if_neg (by rw [h]; exact nofun)

end

/-- A state entered on the way to the next leaves only its clock. -/
theorem entering_entering_faulted (e : Fan) (p : State) (item : FanItem) (c : FanFault) (h : e.state = .starting ∨ e.state = .running) :
    (e.entering p item .running .none).entering p item .faulted c = e.entering p item .faulted c := by
  rcases h with h | h <;> simp [Fan.entering, h]

/-- What a change of the RUNNING contact makes of the fan, by its state (R93 to R98). -/
theorem runningContact_event (p : State) (f : Fin 8) (level : Bool) :
    let a := p.fanEvent (FanUnit.runningContact p.ctx f level)
    let o := p.fans.fans[f]
    let w := { o with running := level }
    let item := p.active.fans[f]
    (level = true → o.state = .stopped ∨ o.state = .queued → EntersStopping p a f w) ∧
    (level = true → o.state = .starting → o.fault = false → Rests a f (w.entering p item .running .none)) ∧
    (level = true → o.state = .starting → o.fault = true → Rests a f (w.entering p item .faulted .driveFault)) ∧
    (level = false → o.state = .running → Rests a f (w.entering p item .faulted .feedbackLost)) ∧
    (o.state = .stopping → w.atRest item p.now → f ∉ p.fans.queue → LeavesRest p a f (w.entering p item .stopped .none)) ∧
    (o.state = .stopping → w.atRest item p.now → f ∈ p.fans.queue → Waits p a f (w.entering p item .queued .none)) ∧
    (o.state = .stopping → ¬w.atRest item p.now → f ∉ p.fans.queue → Rests a f w) ∧
    (o.state = .stopping → ¬w.atRest item p.now → f ∈ p.fans.queue → Waits p a f w) ∧
    (f ∉ p.fans.queue → o.state.isUnavailable ∨ (level = true ∧ o.state = .running) ∨
      (level = false ∧ (o.state = .stopped ∨ o.state = .starting)) → Rests a f w) ∧
    (f ∈ p.fans.queue → level = false → o.state = .queued → Waits p a f w) ∧
    FanEventFrame p a (· = f) := by
  intro a o w item
  let act := FanUnit.runningContact p.ctx f level
  let v := p.fans.setRunning f level
  have hv : v.fans[f] = w := change_same p.fans f _
  have hkept (hact : act p.fans = v) : (f ∉ p.fans.queue → Rests (p.fanEvent act) f w) ∧
      (f ∈ p.fans.queue → Waits p (p.fanEvent act) f w) := by
    rw [← hv]
    exact ⟨fun hf => (Brings.of_eq hact).rests hf, fun hf => (Brings.of_eq hact).waits hf⟩
  have hover (hrest : w.atRest item p.now) : v.fans[f].atRest p.active.fans[f] p.now := by rw [hv]; exact hrest
  refine ⟨fun hl hs => ?_, fun hl hs hfault => ?_, fun hl hs hfault => ?_, fun hl hs => ?_, fun hs hrest hq => ?_, fun hs hrest hq => ?_,
    fun hs hrest hq => ?_, fun hs hrest hq => ?_, fun hq hs => ?_, fun hq hl hs => ?_,
    runningContact_oneFan.frame runningContact_placed⟩
  · have hunit : act p.fans = v.enterStopping p.ctx f := (runningContact_idle hs).trans (if_pos hl)
    have hstops := (Brings.of_eq hunit).entersStopping
    rwa [hv] at hstops
  · have hunit : act p.fans = v.enter p.ctx f .running :=
      ((runningContact_starting hs).trans (if_pos hl)).trans (enterChecked_of_sound _ (by rw [hv]; exact hfault))
    have hrests := (Brings.of_eq hunit).rests (not_mem_enter _ f v _)
    rwa [enter_same, hv] at hrests
  · have hunit : act p.fans = (v.enter p.ctx f .running).enterFaulted p.ctx f .driveFault :=
      ((runningContact_starting hs).trans (if_pos hl)).trans (enterChecked_of_fault _ (by rw [hv]; exact hfault))
    have hrests := (Brings.of_eq hunit).rests (not_mem_enterFaulted _ f _ _)
    rwa [enterFaulted_same, enter_same, hv, entering_entering_faulted w p _ _ (.inl hs)] at hrests
  · have hunit : act p.fans = v.enterFaulted p.ctx f .feedbackLost :=
      (runningContact_running hs).trans (if_neg (by rw [hl]; exact nofun))
    have hrests := (Brings.of_eq hunit).rests (not_mem_enterFaulted _ f v _)
    rwa [enterFaulted_same, hv] at hrests
  · have hstopped := (Brings.of_eq ((runningContact_stopping hs).trans (checkRundown_of_over (hover hrest) hq))).stopped
    rwa [hv] at hstopped
  · have hunit := (runningContact_stopping (x := p.ctx) (level := level) hs).trans (checkRundown_of_queued (hover hrest) hq)
    have hwaits := (Brings.of_eq hunit).waits (mem_enterQueued _ f v)
    rwa [enterQueued_same, hv] at hwaits
  · exact (hkept ((runningContact_stopping hs).trans (checkRundown_of_not_over (by rw [hv]; exact hrest)))).1 hq
  · exact (hkept ((runningContact_stopping hs).trans (checkRundown_of_not_over (by rw [hv]; exact hrest)))).2 hq
  · refine (hkept ?_).1 hq
    obtain hs | ⟨hl, hs⟩ | ⟨hl, hs | hs⟩ := hs
    · exact runningContact_unavailable hs
    · exact (runningContact_running hs).trans (if_pos hl)
    · exact (runningContact_idle (.inl hs)).trans (if_neg (by rw [hl]; exact nofun))
    · exact (runningContact_starting hs).trans (if_neg (by rw [hl]; exact nofun))
  · exact (hkept ((runningContact_idle (.inr hs)).trans (if_neg (by rw [hl]; exact nofun)))).2 hq

/-- Settles O29: what a change of the RUNNING contact makes of the fan, by its state. -/
theorem runningContactMovesTheFan : Obligations.RunningContactMovesTheFan :=
  fun f level rest s hrunning hchange => fanContact_acts hrunning rfl hchange (runningContact_event
    { s with mail := { s.mail with contactChanges := s.mail.contactChanges.set (fanInput f 0) rest } } f level)

/-! ## FAULT (R96, R97) -/

/-- The fan unit with the new level at the FAULT contact. -/
def FanUnit.setFault (f : Fin 8) (level : Bool) (u : FanUnit) : FanUnit := u.change f ({ · with fault := level })

/-- The states that a drive fault is taken up in at once. -/
def FanState.inDrive (st : FanState) : Prop := st = .queued ∨ st = .starting ∨ st = .running ∨ st = .stopping

section
variable {x : Ctx} {f : Fin 8} {level : Bool} {u : FanUnit}

theorem faultContact_inDrive (hl : level = true) (h : u.fans[f].state.inDrive) :
    u.faultContact x f level = (u.setFault f level).enterFaulted x f .driveFault := by
  rcases h with h | h | h | h <;> simp only [FanUnit.faultContact, hl, h, if_true] <;> rfl

theorem faultContact_other (h : level = false ∨ u.fans[f].state = .stopped ∨ u.fans[f].state.isUnavailable) :
    u.faultContact x f level = u.setFault f level := by
  obtain h | h | h | h | h := h
  · exact if_neg (by rw [h]; exact nofun)
  all_goals
    simp only [FanUnit.faultContact, h]
    split <;> rfl

theorem setFault_oneFan : OneFan f u (u.setFault f level) := change_oneFan rfl (fun _ => rfl) id

theorem faultContact_cases : u.faultContact x f level = (u.setFault f level).enterFaulted x f .driveFault ∨
    u.faultContact x f level = u.setFault f level := by
  cases level
  · exact .inr (faultContact_other (.inl rfl))
  · unfold FanUnit.faultContact
    cases u.fans[f].state <;> simp <;> tauto

theorem faultContact_oneFan : OneFan f u (u.faultContact x f level) := by
  rcases faultContact_cases (x := x) (f := f) (level := level) (u := u) with h | h <;> rw [h]
  · exact setFault_oneFan.trans (enterFaulted_oneFan x f _ _)
  · exact setFault_oneFan

theorem faultContact_placed : Placed f u (u.faultContact x f level) := by
  rcases faultContact_cases (x := x) (f := f) (level := level) (u := u) with h | h <;> rw [h]
  · exact .gone (not_mem_enterFaulted x f _ _)
  · exact change_placed ⟨rfl, rfl, rfl, rfl⟩

end

theorem faultContact_event (p : State) (f : Fin 8) (level : Bool) :
    let a := p.fanEvent (FanUnit.faultContact p.ctx f level)
    let o := p.fans.fans[f]
    let w := { o with fault := level }
    (level = true → o.state = .queued ∨ o.state = .starting ∨ o.state = .running ∨ o.state = .stopping →
      Rests a f (w.entering p p.active.fans[f] .faulted .driveFault)) ∧
    (f ∉ p.fans.queue → level = false ∨ o.state = .stopped ∨ o.state.isUnavailable → Rests a f w) ∧
    (f ∈ p.fans.queue → level = false → Waits p a f w) ∧
    FanEventFrame p a (· = f) := by
  intro a o w
  have hw : (p.fans.setFault f level).fans[f] = w := change_same p.fans f _
  refine ⟨fun hl hs => ?_, fun hq hs => ?_, fun hq hl => ?_, faultContact_oneFan.frame faultContact_placed⟩
  · have hrests := (Brings.of_eq (s := p) (act := FanUnit.faultContact p.ctx f level) (faultContact_inDrive hl hs)).rests
      (not_mem_enterFaulted _ f _ _)
    rwa [enterFaulted_same, hw] at hrests
  · rw [← hw]
    exact (Brings.of_eq (faultContact_other hs)).rests hq
  · rw [← hw]
    exact (Brings.of_eq (faultContact_other (.inl hl))).waits hq

/-! ## LOCAL (R95, R99) -/

/-- The fan unit with the new level at the LOCAL contact. -/
def FanUnit.setLocal (f : Fin 8) (level : Bool) (u : FanUnit) : FanUnit := u.change f ({ · with localSwitch := level })

section
variable {x : Ctx} {f : Fin 8} {level : Bool} {u v : FanUnit}

theorem localContact_service (h : u.fans[f].state = .service) : u.localContact x f level = (u.setLocal f level).claim x f :=
  if_pos h

theorem localContact_on (h : u.fans[f].state ≠ .service) (hl : level = true) :
    u.localContact x f level = ((u.setLocal f level).enter x f .localPanel).claim x f :=
  (if_neg h).trans (if_pos hl)

theorem localContact_off (h : u.fans[f].state = .localPanel) (hl : level = false) :
    u.localContact x f level = (((u.setLocal f level).claim x f).restartClock x f).enterStopping x f :=
  ((if_neg (by rw [h]; exact nofun)).trans (if_neg (by rw [hl]; exact nofun))).trans (if_pos h)

theorem localContact_claims (h : u.fans[f].state ≠ .service) (h' : u.fans[f].state ≠ .localPanel) (hl : level = false) :
    u.localContact x f level = (u.setLocal f level).recompute x f :=
  ((if_neg h).trans (if_neg (by rw [hl]; exact nofun))).trans (if_neg h')

theorem setLocal_oneFan : OneFan f u (u.setLocal f level) := change_oneFan rfl (fun _ => rfl) id

theorem setLocal_samePlace : u.fans[f].SamePlace (u.setLocal f level).fans[f] := change_samePlace ⟨rfl, rfl, rfl, rfl⟩

theorem localContact_oneFan : OneFan f u (u.localContact x f level) := by
  refine (setLocal_oneFan (level := level)).trans ?_
  unfold FanUnit.localContact
  simp only
  split
  · exact claim_oneFan x f _
  split
  · exact (enter_oneFan x f _ (st := .localPanel) nofun).trans (claim_oneFan x f _)
  split
  · exact ((claim_oneFan x f _).trans (restartClock_oneFan x f _)).trans (enterStopping_oneFan x f _)
  · exact recompute_oneFan x f _

theorem localContact_placed : Placed f u (u.localContact x f level) := by
  by_cases hs : u.fans[f].state = .service
  · rw [localContact_service hs]
    exact (claim_placed x f _).of_samePlace rfl setLocal_samePlace
  cases hl : level with
  | true =>
    rw [localContact_on hs rfl]
    exact .gone (mt (mem_claim x f _).mp (not_mem_enter x f _ _))
  | false =>
    by_cases hp : u.fans[f].state = .localPanel
    · rw [localContact_off hp rfl]
      exact .of_gone_or_back (enterStopping_gone_or_back x f _) (not_keepsPlace_of_state (by rw [hp]; exact ⟨nofun, nofun⟩))
    · rw [localContact_claims hs hp rfl]
      exact (recompute_placed x f _).of_samePlace rfl setLocal_samePlace

/-- A claim in terms of the owner and the target that its fan keeps from then on. -/
theorem claim_fan_of_moved {n : Fan} (h : (u.claim x f).fans[f].Moved n) :
    (u.claim x f).fans[f] = { u.fans[f] with owner := n.owner, target := n.target } := by
  rw [h.owner, h.target, claim_fan]

end

/-- An event whose unit comes of a claim leaves the fan to the highest owner, on its target. -/
theorem claimed_event {s : State} {act : FanUnit → FanUnit} {f : Fin 8} {u : FanUnit} (hact : OneFan f (u.claim s.ctx f) (act s.fans))
    (hmoved : (u.claim s.ctx f).fans[f].Moved (act s.fans).fans[f]) :
    OwnedByHighest s.active (s.fanEvent act).fans f ∧ FollowsOwner s.active (s.fanEvent act).fans f ∧
      (u.claim s.ctx f).fans[f] = { u.fans[f] with
        owner := (s.fanEvent act).fans.fans[f].owner, target := (s.fanEvent act).fans.fans[f].target } := by
  have hbrings : Brings s act f (act s.fans) := .refl
  refine ⟨hbrings.owned ((claim_owned s.ctx f u).congr hmoved (.inl hact.galleryDemand)) rfl,
    hbrings.follows ((claim_follows s.ctx f u).congr hmoved hact.galleryDemand) rfl,
    claim_fan_of_moved (hmoved.trans hbrings.moved)⟩

theorem recomputed_event {s : State} {act : FanUnit → FanUnit} {f : Fin 8} {u : FanUnit} (hact : act s.fans = u.recompute s.ctx f)
    (hqueue : f ∈ u.queue ↔ f ∈ s.fans.queue) (htarget : u.fans[f].target = s.fans.fans[f].target) :
    OwnedByHighest s.active (s.fanEvent act).fans f ∧ FollowsOwner s.active (s.fanEvent act).fans f ∧
      PursuesTarget s (s.fanEvent act) f { u.fans[f] with
        owner := (s.fanEvent act).fans.fans[f].owner, target := (s.fanEvent act).fans.fans[f].target } := by
  have hbrings : Brings s act f (u.recompute s.ctx f) := .of_eq hact
  have hclaim := claim_fan_of_moved ((recompute_moved s.ctx f u).trans hbrings.moved)
  rw [← hclaim]
  exact ⟨hbrings.owned (recompute_owned s.ctx f u) (by rw [hact]), hbrings.follows (recompute_follows s.ctx f u) (by rw [hact]),
    hbrings.pursues hqueue htarget⟩

theorem localContact_event (p : State) (f : Fin 8) (level : Bool) :
    let a := p.fanEvent (FanUnit.localContact p.ctx f level)
    let o := p.fans.fans[f]
    let item := p.active.fans[f]
    let n := a.fans.fans[f]
    let w := { o with localSwitch := level, owner := n.owner, target := n.target }
    OwnedByHighest p.active a.fans f ∧ FollowsOwner p.active a.fans f ∧
    (level = true → o.state ≠ .service → Rests a f (w.entering p item .localPanel .none)) ∧
    (level = false → o.state = .localPanel → EntersStopping p a f { w with rundownFrom := p.now }) ∧
    (level = false → o.state ≠ .localPanel → o.state ≠ .service → PursuesTarget p a f w) ∧
    (o.state = .service → f ∉ p.fans.queue → Rests a f w) ∧
    FanEventFrame p a (· = f) := by
  intro a o item n w
  let act := FanUnit.localContact p.ctx f level
  let v := p.fans.setLocal f level
  have hv : v.fans[f] = { o with localSwitch := level } := change_same p.fans f _
  have hframe : FanEventFrame p a (· = f) := localContact_oneFan.frame localContact_placed
  by_cases hs : o.state = .service
  · have hunit : act p.fans = v.claim p.ctx f := localContact_service hs
    obtain ⟨howned, hfollows, hfan⟩ := claimed_event (s := p) (act := act) (u := v) (f := f) (by rw [hunit]; exact .refl f _)
      (by rw [hunit]; exact .refl _)
    refine ⟨howned, hfollows, fun _ hns => absurd hs hns, fun _ hp => (nomatch hs.symm.trans hp), fun _ _ hns => absurd hs hns,
      fun _ hq => ?_, hframe⟩
    have hrests := (Brings.of_eq (s := p) hunit).rests (mt (mem_claim _ f v).mp hq)
    rwa [hfan, hv] at hrests
  have hns (h : o.state = .service) : f ∉ p.fans.queue → Rests a f w := absurd h hs
  cases hl : level with
  | true =>
    have hunit : act p.fans = (v.enter p.ctx f .localPanel).claim p.ctx f := localContact_on hs hl
    obtain ⟨howned, hfollows, hfan⟩ := claimed_event (s := p) (act := act) (u := v.enter p.ctx f .localPanel) (f := f)
      (by rw [hunit]; exact .refl f _) (by rw [hunit]; exact .refl _)
    refine ⟨howned, hfollows, fun _ _ => ?_, nofun, nofun, hns, hframe⟩
    have hrests := (Brings.of_eq (s := p) hunit).rests (mt (mem_claim _ f _).mp (not_mem_enter _ f v _))
    rwa [hfan, enter_same, hv] at hrests
  | false =>
    by_cases hp : o.state = .localPanel
    · have hunit : act p.fans = ((v.claim p.ctx f).restartClock p.ctx f).enterStopping p.ctx f := localContact_off hp hl
      obtain ⟨howned, hfollows, hfan⟩ := claimed_event (s := p) (act := act) (u := v) (f := f)
        (by rw [hunit]; exact (restartClock_oneFan p.ctx f _).trans (enterStopping_oneFan p.ctx f _))
        (by rw [hunit]; exact (restartClock_moved p.ctx f _).trans (enterStopping_moved p.ctx f _))
      refine ⟨howned, hfollows, nofun, fun _ _ => ?_, fun _ hnp => absurd hp hnp, hns, hframe⟩
      have hstops := (Brings.of_eq (s := p) hunit).entersStopping
      have hclock : ((v.claim p.ctx f).restartClock p.ctx f).fans[f] = { (v.claim p.ctx f).fans[f] with rundownFrom := p.now } :=
        change_same _ f _
      rwa [hclock, hfan, hv] at hstops
    · obtain ⟨howned, hfollows, hpursues⟩ := recomputed_event (s := p) (act := act) (u := v) (f := f)
        (localContact_claims hs hp hl) .rfl (by rw [hv])
      refine ⟨howned, hfollows, nofun, fun _ hp' => absurd hp' hp, fun _ _ _ => ?_, hns, hframe⟩
      rwa [hv] at hpursues

/-- Settles O30: what a change of the FAULT contact or of the LOCAL contact makes of the fan. -/
theorem faultAndLocalContactsMoveTheFan : Obligations.FaultAndLocalContactsMoveTheFan := by
  refine fun f level rest s hrunning => ⟨fun hchange => ?_, fun hchange => ?_⟩
  · exact fanContact_acts hrunning rfl hchange (faultContact_event
      { s with mail := { s.mail with contactChanges := s.mail.contactChanges.set (fanInput f 1) rest } } f level)
  · exact fanContact_acts hrunning rfl hchange (localContact_event
      { s with mail := { s.mail with contactChanges := s.mail.contactChanges.set (fanInput f 2) rest } } f level)

end Sys2Proof.Machine

/-! The timers of a fan and its tach windows (R94, R98, R104). -/

namespace Sys2Proof.Machine

section
variable {s : State} {f : Fin 8}

/-! ## START_LIMIT_EXPIRY, SETTLE_EXPIRY, RUNDOWN_EXPIRY -/

theorem startLimitExpiry_moves {due : Nat} (hrunning : s.running = true) (hs : s.fans.fans[f].state = .starting)
    (hdue : s.fans.fans[f].startLimitDue = some due) (hnow : due ≤ s.now) : Acts (.startLimitExpiry f) s fun a =>
      Rests a f (s.fans.fans[f].entering s s.active.fans[f] .faulted .startFailed) ∧ FanEventFrame s a (· = f) := by
  have hwaiting : s.startLimitDue f = true := by
    rw [State.startLimitDue, hs, hdue, expired_some, decide_eq_true hnow]
    rfl
  refine ⟨s.fanEvent (FanUnit.enterFaulted s.ctx f .startFailed), ?_, ?_,
    (enterFaulted_oneFan s.ctx f s.fans _).frame (.gone (not_mem_enterFaulted s.ctx f s.fans _))⟩
  · change execStartLimitExpiry f s = _
    exact internal_acts hrunning hwaiting
  · have hrests := (Brings.of_eq (s := s) (act := FanUnit.enterFaulted s.ctx f .startFailed) rfl).rests
      (not_mem_enterFaulted s.ctx f s.fans _)
    rwa [enterFaulted_same] at hrests

theorem startLimitExpiry_waits {due : Nat} (hdue : s.fans.fans[f].startLimitDue = some due) (hnow : s.now < due) :
    exec (.startLimitExpiry f) s = .next s := by
  change execStartLimitExpiry f s = _
  refine internal_idle ?_
  rw [State.startLimitDue, hdue, expired_some, decide_eq_false (Nat.not_le.mpr hnow), Bool.and_false, Bool.and_false]

theorem settleExpiry_moves {due : Nat} (hrunning : s.running = true) (hs : s.fans.fans[f].state = .running)
    (hq : f ∉ s.fans.queue) (hdue : s.fans.fans[f].settleDue = some due) (hnow : due ≤ s.now) : Acts (.settleExpiry f) s fun a =>
      Rests a f { s.fans.fans[f] with settleDue := none, supervised := true } ∧ FanEventFrame s a (· = f) := by
  have hwaiting : s.settleDue f = true := by
    rw [State.settleDue, hs, hdue, expired_some, decide_eq_true hnow]
    rfl
  have hone : OneFan f s.fans (s.fans.supervise f) := change_oneFan rfl (fun _ => rfl) id
  refine ⟨s.fanEvent (FanUnit.supervise f), internal_acts hrunning hwaiting, ?_, hone.frame (change_placed ⟨rfl, rfl, rfl, rfl⟩)⟩
  have hrests := (Brings.of_eq (s := s) (act := FanUnit.supervise f) rfl).rests hq
  have hfan : (s.fans.supervise f).fans[f] = _ := change_same s.fans f _
  rwa [hfan] at hrests

theorem settleExpiry_waits {due : Nat} (hdue : s.fans.fans[f].settleDue = some due) (hnow : s.now < due) :
    exec (.settleExpiry f) s = .next s := by
  refine internal_idle ?_
  rw [State.settleDue, hdue, expired_some, decide_eq_false (Nat.not_le.mpr hnow), Bool.and_false, Bool.and_false]

theorem rundownExpiry_acts {post : State → Prop} (hrunning : s.running = true) (hs : s.fans.fans[f].state = .stopping)
    (hrest : s.fans.fans[f].atRest s.active.fans[f] s.now) (hpost : post (s.fanEvent (FanUnit.checkRundown s.ctx f))) :
    Acts (.rundownExpiry f) s fun a => post a ∧ FanEventFrame s a (· = f) := by
  have hwaiting : s.rundownDue f = true := by
    rw [State.rundownDue, hs, (rundownOver_iff s _ _).mpr hrest]
    rfl
  refine ⟨_, ?_, hpost, (checkRundown_oneFan s.ctx f s.fans).frame (checkRundown_placed hs)⟩
  change execRundownExpiry f s = _
  exact internal_acts hrunning hwaiting

theorem rundownExpiry_waits (hrest : ¬s.fans.fans[f].atRest s.active.fans[f] s.now) :
    exec (.rundownExpiry f) s = .next s := by
  change execRundownExpiry f s = _
  refine internal_idle ?_
  rw [State.rundownDue, Bool.eq_false_iff.mpr (mt (rundownOver_iff s _ _).mp hrest), Bool.and_false, Bool.and_false]

/-! ## TACH_HANDOVER (R104) -/

theorem tachHandover_acts {w : Window} {rest : List Window} {post : State → Prop} (hrunning : s.running = true)
    (hwindow : s.mail.tachWindows[f] = w :: rest)
    (hpost : post (State.fanEvent (fun u => u.change f (Fan.tachWindow s.active.fans[f] w))
      { s with mail := { s.mail with tachWindows := s.mail.tachWindows.set f rest } })) : Acts (.tachHandover f) s post := by
  refine ⟨_, ?_, hpost⟩
  change execTachHandover f s = _
  unfold execTachHandover
  rw [internal_acts hrunning (by rw [hwindow]; rfl), hwindow]

theorem tachWindow_samePlace (item : FanItem) (w : Window) (e : Fan) : e.SamePlace (e.tachWindow item w) := by
  unfold Fan.tachWindow
  split <;> exact ⟨rfl, rfl, rfl, rfl⟩

theorem tachWindow_attached (item : FanItem) (w : Window) (e : Fan) : (e.tachWindow item w).attached = e.attached := by
  unfold Fan.tachWindow
  split <;> rfl

theorem tachWindow_none {item : FanItem} (h : item.tachGate = none) (w : Window) (e : Fan) : e.tachWindow item w = e := if_pos h

theorem tachWindow_some {item : FanItem} (h : item.tachGate.isSome = true) (w : Window) (e : Fan) : e.tachWindow item w = { e with
    lastRpm := item.rpm w
    underspeed := if e.state = .running ∧ e.supervised then decide (item.rpm w < item.underspeedLimit e.target.speed)
      else e.underspeed } :=
  if_neg (Option.isSome_iff_ne_none.mp h)

end

/-- The fan that a tach window leaves, in the words of the statement. -/
theorem tachWindow_event (p : State) (f : Fin 8) (w : Window) :
    let a := p.fanEvent fun u => u.change f (Fan.tachWindow p.active.fans[f] w)
    let e := p.fans.fans[f].tachWindow p.active.fans[f] w
    (f ∉ p.fans.queue → Rests a f e) ∧ (f ∈ p.fans.queue → Waits p a f e) ∧ FanEventFrame p a (· = f) := by
  intro a e
  obtain ⟨howner, hstate, hout, hreverse⟩ := tachWindow_samePlace p.active.fans[f] w p.fans.fans[f]
  let act : FanUnit → FanUnit := fun u => u.change f (Fan.tachWindow p.active.fans[f] w)
  have hfan : (act p.fans).fans[f] = e := change_same p.fans f _
  have hbrings : Brings p act f (act p.fans) := .refl
  have hone : OneFan f p.fans (act p.fans) := change_oneFan (tachWindow_attached _ w _)
    (fun _ => congrArg Owner.priority howner) fun h => hstate.symm.trans h
  rw [← hfan]
  exact ⟨hbrings.rests, hbrings.waits, hone.frame (change_placed ⟨howner, hstate, hout, hreverse⟩)⟩

/-- Settles O31: a timer acts on the fan when it is due in its state, and a tach window supervises the fan. -/
theorem fanTimersAndTachHandoversAct : Obligations.FanTimersAndTachHandoversAct := by
  refine ⟨fun f s hrunning => ⟨fun due hs hdue hnow => startLimitExpiry_moves hrunning hs hdue hnow,
    fun due hdue hnow => startLimitExpiry_waits hdue hnow,
    fun due hs hq hdue hnow => settleExpiry_moves hrunning hs hq hdue hnow, fun due hdue hnow => settleExpiry_waits hdue hnow,
    fun hs hrest hq => rundownExpiry_acts hrunning hs hrest ?_, fun hs hrest hq => rundownExpiry_acts hrunning hs hrest ?_,
    fun hrest => rundownExpiry_waits hrest⟩, fun f w rest s hrunning hwindow => tachHandover_acts hrunning hwindow ?_⟩
  · exact (Brings.of_eq (checkRundown_of_over hrest hq)).stopped
  · have hwaits := (Brings.of_eq (act := FanUnit.checkRundown s.ctx f) (checkRundown_of_queued hrest hq)).waits (mem_enterQueued _ f _)
    rwa [enterQueued_same] at hwaits
  · obtain ⟨hrests, hwaits, hframe⟩ := tachWindow_event
      { s with mail := { s.mail with tachWindows := s.mail.tachWindows.set f rest } } f w
    refine ⟨fun hgate hs hsup => ?_, fun hgate hs => ?_, fun hgate => ?_, hframe⟩
    · have he := tachWindow_some hgate w s.fans.fans[f]
      rw [if_pos ⟨hs, hsup⟩] at he
      exact ⟨fun hq => he ▸ hrests hq, fun hq => he ▸ hwaits hq⟩
    · have he := tachWindow_some hgate w s.fans.fans[f]
      rw [if_neg fun h => hs.elim (fun hn => hn h.1) fun hn => Bool.false_ne_true (hn.symm.trans h.2)] at he
      exact ⟨fun hq => he ▸ hrests hq, fun hq => he ▸ hwaits hq⟩
    · have he := tachWindow_none hgate w s.fans.fans[f]
      exact ⟨fun hq => he ▸ hrests hq, fun hq => he ▸ hwaits hq⟩

end Sys2Proof.Machine

/-! The claims of fans (R87 to R91): demand levels, placements and the gallery's demand reach the fans in one event each. -/

namespace Sys2Proof.Machine

/-! ## An event that recomputes several fans -/

/-- What the recomputing of a fan, among others, makes of it. -/
theorem Brings.recomputed {s : State} {act : FanUnit → FanUnit} {f : Fin 8} {u : FanUnit} (h : Brings s act f (u.recompute s.ctx f))
    (hdemand : (act s.fans).galleryDemand = u.galleryDemand) (hqueue : f ∈ u.queue ↔ f ∈ s.fans.queue)
    (htarget : u.fans[f].target = s.fans.fans[f].target) :
    OwnedByHighest s.active (s.fanEvent act).fans f ∧ FollowsOwner s.active (s.fanEvent act).fans f ∧
      PursuesTarget s (s.fanEvent act) f { u.fans[f] with
        owner := (s.fanEvent act).fans.fans[f].owner, target := (s.fanEvent act).fans.fans[f].target } := by
  have hgallery := hdemand.trans (recompute_oneFan s.ctx f u).galleryDemand.symm
  rw [← claim_fan_of_moved ((recompute_moved s.ctx f u).trans h.moved)]
  exact ⟨h.owned (recompute_owned s.ctx f u) hgallery, h.follows (recompute_follows s.ctx f u) hgallery, h.pursues hqueue htarget⟩

/-- The recomputing of a fan leaves what only its claims set. -/
theorem recompute_claims (x : Ctx) (f : Fin 8) (u : FanUnit) : (u.recompute x f).fans[f].demand = u.fans[f].demand ∧
    (u.recompute x f).fans[f].incident = u.fans[f].incident ∧ (u.recompute x f).fans[f].entryTarget = u.fans[f].entryTarget := by
  have hmoved := recompute_moved x f u
  rw [hmoved.demand, hmoved.incident, hmoved.entryTarget, claim_fan]
  exact ⟨rfl, rfl, rfl⟩

/-- A change of the claims on some fans, before these are recomputed. -/
structure ClaimsChange (which : Fin 8 → Bool) (u v : FanUnit) : Prop where
  queue : v.queue = u.queue
  place : ∀ k : Fin 8, u.fans[k].SamePlace v.fans[k]
  target : ∀ k : Fin 8, v.fans[k].target = u.fans[k].target
  attached : ∀ k : Fin 8, v.fans[k].attached = u.fans[k].attached
  untouched : ∀ k : Fin 8, which k = false → v.fans[k] = u.fans[k]

section
variable {s : State} {which : Fin 8 → Bool} {u : FanUnit} {act : FanUnit → FanUnit}

theorem ClaimsChange.recomputed (h : ClaimsChange which s.fans u) (hact : act s.fans = FanUnit.recomputeAll s.ctx which u)
    {f : Fin 8} (hf : which f = true) :
    let n := (s.fanEvent act).fans.fans[f]
    (OwnedByHighest s.active (s.fanEvent act).fans f ∧ FollowsOwner s.active (s.fanEvent act).fans f ∧
      PursuesTarget s (s.fanEvent act) f { u.fans[f] with owner := n.owner, target := n.target }) ∧
    n.demand = u.fans[f].demand ∧ n.incident = u.fans[f].incident ∧ n.entryTarget = u.fans[f].entryTarget := by
  have hall := recomputeAll_afterAll s.ctx which u
  rw [← hact] at hall
  obtain ⟨w, hfan, hqueue, hv, hvq, hgallery⟩ := hall.recomputed f hf
  have hbrings : Brings s act f (w.recompute s.ctx f) := ⟨hv, hvq⟩
  have hevent := hbrings.recomputed (hall.galleryDemand.trans hgallery.symm) (hqueue.trans (by rw [h.queue]))
    ((congrArg Fan.target hfan).trans (h.target f))
  obtain ⟨hdemand, hincident, hentry⟩ := recompute_claims s.ctx f w
  rw [hfan] at hevent hdemand hincident hentry
  refine ⟨hevent, ?_, ?_, ?_⟩
  · exact hbrings.moved.demand.trans hdemand
  · exact hbrings.moved.incident.trans hincident
  · exact hbrings.moved.entryTarget.trans hentry

theorem ClaimsChange.frame {acted : Fin 8 → Prop} (h : ClaimsChange which s.fans u)
    (hact : act s.fans = FanUnit.recomputeAll s.ctx which u) (hacted : ∀ k, which k = true ↔ acted k) :
    FanEventFrame { s with fans := { s.fans with zoneDemand := u.zoneDemand, galleryDemand := u.galleryDemand } }
      (s.fanEvent act) acted := by
  obtain rfl : (fun k => which k = true) = acted := funext fun k => propext (hacted k)
  have hall := recomputeAll_afterAll s.ctx which u
  rw [← hact] at hall
  have hframe := fanEvent_frame s act (fun k => which k = true)
    (fun k hk => by
      obtain ⟨hfan, hqueue⟩ := hall.untouched k hk
      exact ⟨hfan.trans (h.untouched k (Bool.eq_false_iff.mpr hk)), hqueue.trans (by rw [h.queue])⟩)
    (fun k => (hall.attached k).trans (h.attached k))
    (fun hnodup => hall.nodup (by rwa [h.queue]))
    fun _ hclasses => (hall.order (hclasses.congr h.queue fun k _ => by rw [(h.place k).1])).of_samePlace h.queue h.place
  rwa [hall.zoneDemand, hall.galleryDemand] at hframe

end

/-! ## Demand levels (R89) -/

theorem covers_iff (cfg : ActiveConfig) (z f : Fin 8) : cfg.zones[z].covers cfg.fans[f].niche = true ↔ Covers cfg z f := by
  simp [ZoneItem.covers, Covers]

theorem foldl_max_spec (takesPart : Fin 8 → Bool) (level : Fin 8 → Nat) (l : List (Fin 8)) (start : Nat) :
    let m := l.foldl (fun acc z => if takesPart z then max acc (level z) else acc) start
    start ≤ m ∧ (∀ z ∈ l, takesPart z = true → level z ≤ m) ∧ (m = start ∨ ∃ z ∈ l, takesPart z = true ∧ m = level z) := by
  induction l generalizing start with
  | nil => exact ⟨Nat.le_refl _, nofun, .inl rfl⟩
  | cons k l ih =>
    rw [List.foldl_cons]
    split
    next hk =>
      obtain ⟨hstart, hlevels, hfound⟩ := ih (max start (level k))
      refine ⟨(Nat.le_max_left _ _).trans hstart, fun z hz hpart => ?_, ?_⟩
      · rcases List.mem_cons.mp hz with rfl | hz
        · exact (Nat.le_max_right _ _).trans hstart
        · exact hlevels z hz hpart
      · rcases hfound with hfound | ⟨z, hz, hpart, hlevel⟩
        · rcases Nat.le_total start (level k) with hle | hle
          · exact .inr ⟨k, List.mem_cons_self, hk, hfound.trans (Nat.max_eq_right hle)⟩
          · exact .inl (hfound.trans (Nat.max_eq_left hle))
        · exact .inr ⟨z, List.mem_cons_of_mem k hz, hpart, hlevel⟩
    next hk =>
      obtain ⟨hstart, hlevels, hfound⟩ := ih start
      refine ⟨hstart, fun z hz hpart => ?_, hfound.imp_right fun ⟨z, hz, hrest⟩ => ⟨z, List.mem_cons_of_mem k hz, hrest⟩⟩
      rcases List.mem_cons.mp hz with rfl | hz
      · exact absurd hpart hk
      · exact hlevels z hz hpart

theorem demandIsHighest_of_demandOf {cfg : ActiveConfig} {u v : FanUnit} {f : Fin 8} (hzones : u.zoneDemand = v.zoneDemand)
    (hf : u.fans[f].demand = v.demandOf cfg f) : DemandIsHighest cfg u f := by
  obtain ⟨-, hlevels, hfound⟩ := foldl_max_spec (fun z => cfg.zones[z].covers cfg.fans[f].niche) (fun z => v.zoneDemand[z])
    (List.finRange 8) 0
  unfold DemandIsHighest
  rw [hf, hzones]
  refine ⟨fun z hz => hlevels z (List.mem_finRange z) ((covers_iff cfg z f).mpr hz), hfound.imp_right ?_⟩
  exact fun ⟨z, _, hpart, hlevel⟩ => ⟨z, (covers_iff cfg z f).mp hpart, hlevel⟩

/-- The fans that see a demand level take their highest demand anew. -/
def FanUnit.takeDemand (cfg : ActiveConfig) (z : Fin 8) (level : Nat) (which : Fin 8 → Bool) (u : FanUnit) : FanUnit :=
  let v := { u with zoneDemand := u.zoneDemand.set z level }
  let fans : Vector Fan 8 := Vector.ofFn fun f => if which f then { v.fans[f] with demand := v.demandOf cfg f } else v.fans[f]
  { v with fans := fans }

section
variable (cfg : ActiveConfig) (z : Fin 8) (level : Nat) (which : Fin 8 → Bool) (u : FanUnit)

theorem takeDemand_fan (k : Fin 8) : (u.takeDemand cfg z level which).fans[k] =
    if which k then { u.fans[k] with demand := (u.takeDemand cfg z level which).demandOf cfg k } else u.fans[k] := by
  have hk (g : Fin 8 → Fan) : (Vector.ofFn g)[k] = g k := Vector.getElem_ofFn _
  unfold FanUnit.takeDemand
  simp only
  rw [hk]
  rfl

theorem takeDemand_claimsChange : ClaimsChange which u (u.takeDemand cfg z level which) := by
  refine ⟨rfl, fun k => ?_, fun k => ?_, fun k => ?_, fun k hk => ?_⟩
  all_goals rw [takeDemand_fan]
  · split <;> exact ⟨rfl, rfl, rfl, rfl⟩
  · split <;> rfl
  · split <;> rfl
  · exact if_neg (by rw [hk]; exact nofun)

theorem zoneDemandChange_eq (x : Ctx) : u.zoneDemandChange x z level =
    FanUnit.recomputeAll x (fun f => x.cfg.zones[z].covers x.cfg.fans[f].niche)
      (u.takeDemand x.cfg z level fun f => x.cfg.zones[z].covers x.cfg.fans[f].niche) := rfl

theorem zoneLoadCommit_eq (x : Ctx) : u.zoneLoadCommit x z level =
    FanUnit.recomputeAll x (fun _ => true) (u.takeDemand x.cfg z level fun _ => true) := rfl

end

/-- What a demand level makes of a fan that sees it. -/
def TakesDemand (p a : State) (f : Fin 8) : Prop :=
  let n := a.fans.fans[f]
  DemandIsHighest p.active a.fans f ∧ OwnedByHighest p.active a.fans f ∧ FollowsOwner p.active a.fans f ∧
    PursuesTarget p a f { p.fans.fans[f] with demand := n.demand, owner := n.owner, target := n.target }

/-- The pursuit of a target does not look at the demands. -/
theorem pursuesTarget_demands (s a : State) (f : Fin 8) (w : Fan) (zones : Vector Nat 8) (gallery : GalleryDemand) :
    PursuesTarget { s with fans := { s.fans with zoneDemand := zones, galleryDemand := gallery } } a f w =
      PursuesTarget s a f w := rfl

theorem takeDemand_event {s : State} {act : FanUnit → FanUnit} {z : Fin 8} {level : Nat} {which : Fin 8 → Bool}
    {acted : Fin 8 → Prop} (hact : act s.fans = FanUnit.recomputeAll s.ctx which (s.fans.takeDemand s.active z level which))
    (hacted : ∀ k, which k = true ↔ acted k) :
    let p := { s with fans := { s.fans with zoneDemand := s.fans.zoneDemand.set z level } }
    (∀ f, acted f → TakesDemand p (s.fanEvent act) f) ∧ FanEventFrame p (s.fanEvent act) acted := by
  intro p
  have hchange := takeDemand_claimsChange s.active z level which s.fans
  refine ⟨fun f hf => ?_, hchange.frame hact hacted⟩
  rw [← hacted] at hf
  obtain ⟨⟨howned, hfollows, hpursues⟩, hdemand, -⟩ := hchange.recomputed hact hf
  have hfan := takeDemand_fan s.active z level which s.fans f
  rw [if_pos hf] at hfan
  have hlevel := hdemand.trans (congrArg Fan.demand hfan)
  refine ⟨demandIsHighest_of_demandOf ?_ hlevel, howned, hfollows, ?_⟩
  · rw [fanEvent_zoneDemand, hact, (recomputeAll_afterAll s.ctx which _).zoneDemand]
  · rw [hfan] at hpursues
    rw [hlevel, pursuesTarget_demands]
    exact hpursues

theorem demandLevelChange_acts {s : State} {z : Fin 8} {level : Nat} {rest : List Nat} {post : State → Prop}
    (hrunning : s.running = true) (hlevel : s.mail.demandLevels[z] = level :: rest)
    (hpost : post (State.fanEvent (FanUnit.zoneDemandChange s.ctx z level)
      { s with mail := { s.mail with demandLevels := s.mail.demandLevels.set z rest } })) : Acts (.demandLevelChange z) s post := by
  refine ⟨_, ?_, hpost⟩
  change execDemandLevelChange z s = _
  unfold execDemandLevelChange
  rw [internal_acts hrunning (by rw [hlevel]; rfl), hlevel]

theorem zoneLoadCommit_acts {s : State} {z : Fin 8} {rest : List (Fin 8)} {post : State → Prop}
    (hrunning : s.running = true) (hcommit : s.mail.zoneCommits = z :: rest)
    (hpost : post (State.fanEvent (FanUnit.zoneLoadCommit s.ctx z s.zones[z].worst.demand)
      { s with mail := { s.mail with zoneCommits := rest } })) : Acts .zoneLoadCommit s post := by
  refine ⟨_, ?_, hpost⟩
  change execZoneLoadCommit s = _
  unfold execZoneLoadCommit
  rw [internal_acts hrunning (by rw [hcommit]; rfl), hcommit]

/-- Settles O32: a new demand level of a zone reaches the fans of its niches, and a load of the zone every fan. -/
theorem demandLevelsReachTheFans : Obligations.DemandLevelsReachTheFans := by
  intro z s hrunning
  refine ⟨fun level rest hlevel => demandLevelChange_acts hrunning hlevel ?_,
    fun rest hcommit => zoneLoadCommit_acts hrunning hcommit ?_⟩
  · exact takeDemand_event (s := { s with mail := { s.mail with demandLevels := s.mail.demandLevels.set z rest } })
      (zoneDemandChange_eq z level s.fans s.ctx) (covers_iff s.active z)
  · obtain ⟨hfans, hframe⟩ := takeDemand_event (s := { s with mail := { s.mail with zoneCommits := rest } })
      (acted := fun _ => True) (zoneLoadCommit_eq z s.zones[z].worst.demand s.fans s.ctx) fun _ => iff_of_true rfl trivial
    exact ⟨fun f => hfans f trivial, hframe⟩

/-! ## Placements and the gallery's demand (R90, R91) -/

/-- The fan unit with the entries of a placement list, before its fans are recomputed. -/
def FanUnit.takePlacement (l : List ListEntry) (u : FanUnit) : FanUnit :=
  { u with fans := Vector.ofFn fun f => u.fans[f].place (listed l f) }

theorem takePlacement_fan (l : List ListEntry) (u : FanUnit) (k : Fin 8) :
    (u.takePlacement l).fans[k] = u.fans[k].place (listed l k) := by
  have hk (g : Fin 8 → Fan) : (Vector.ofFn g)[k] = g k := Vector.getElem_ofFn _
  unfold FanUnit.takePlacement
  simp only
  rw [hk]

theorem place_eq (entry : Option ListEntry) (e : Fan) : e.place entry =
    { e with incident := (e.place entry).incident, entryTarget := (e.place entry).entryTarget } := by
  unfold Fan.place
  cases entry <;> rfl

theorem place_some (p : ListEntry) (e : Fan) : (e.place (some p)).incident = some p.action ∧
    (e.place (some p)).entryTarget = if e.incident = none then some e.target else e.entryTarget := by
  unfold Fan.place
  cases h : e.incident <;> exact ⟨rfl, rfl⟩

theorem takePlacement_claimsChange (l : List ListEntry) (u : FanUnit) : ClaimsChange (fun _ => true) u (u.takePlacement l) := by
  refine ⟨rfl, fun k => ?_, fun k => ?_, fun k => ?_, nofun⟩
  all_goals rw [takePlacement_fan, place_eq]
  exact ⟨rfl, rfl, rfl, rfl⟩

theorem placementChange_eq (x : Ctx) (l : List ListEntry) (u : FanUnit) :
    u.placementChange x l = FanUnit.recomputeAll x (fun _ => true) (u.takePlacement l) := rfl

theorem listed_none {l : List ListEntry} {f : Fin 8} (h : ∀ e ∈ l, e.fan ≠ f) : listed l f = none :=
  List.find?_eq_none.mpr fun e he => by simpa using h e he

theorem placementChange_acts {s : State} {l : List ListEntry} {rest : List (List ListEntry)} {post : State → Prop}
    (hrunning : s.running = true) (hplaced : s.mail.placements = l :: rest)
    (hpost : post (State.fanEvent (FanUnit.placementChange s.ctx l) { s with mail := { s.mail with placements := rest } })) :
    Acts .placementChange s post := by
  refine ⟨_, ?_, hpost⟩
  change execPlacementChange s = _
  unfold execPlacementChange
  rw [internal_acts hrunning (by rw [hplaced]; rfl), hplaced]

theorem galleryChange_claimsChange (which : Fin 8 → Bool) (d : GalleryDemand) (u : FanUnit) :
    ClaimsChange which u { u with galleryDemand := d } :=
  ⟨rfl, fun _ => ⟨rfl, rfl, rfl, rfl⟩, fun _ => rfl, fun _ => rfl, fun _ _ => rfl⟩

theorem galleryDemandChange_acts {s : State} {d : GalleryDemand} {rest : List GalleryDemand} {post : State → Prop}
    (hrunning : s.running = true) (hdemand : s.mail.galleryDemands = d :: rest)
    (hpost : post (State.fanEvent (FanUnit.galleryChange s.ctx d) { s with mail := { s.mail with galleryDemands := rest } })) :
    Acts .galleryDemandChange s post := by
  refine ⟨_, ?_, hpost⟩
  change execGalleryDemandChange s = _
  unfold execGalleryDemandChange
  rw [internal_acts hrunning (by rw [hdemand]; rfl), hdemand]

/-- What a placement makes of every fan. -/
theorem placementChange_event (p : State) (l : List ListEntry) :
    let a := p.fanEvent (FanUnit.placementChange p.ctx l)
    (∀ f : Fin 8,
      let o := p.fans.fans[f]
      let n := a.fans.fans[f]
      (∀ e, l.find? (fun e => decide (e.fan = f)) = some e → n.incident = some e.action ∧
        n.entryTarget = if o.incident = none then some o.target else o.entryTarget) ∧
      ((∀ e ∈ l, e.fan ≠ f) → n.incident = none ∧ n.entryTarget = none) ∧
      OwnedByHighest p.active a.fans f ∧ FollowsOwner p.active a.fans f ∧
      PursuesTarget p a f { o with
        incident := n.incident, entryTarget := n.entryTarget, owner := n.owner, target := n.target }) ∧
    FanEventFrame p a (fun _ => True) := by
  intro a
  have hchange := takePlacement_claimsChange l p.fans
  have hact := placementChange_eq p.ctx l p.fans
  refine ⟨fun f => ?_, hchange.frame hact fun _ => iff_of_true rfl trivial⟩
  obtain ⟨⟨howned, hfollows, hpursues⟩, -, hincident, hentry⟩ := hchange.recomputed hact (f := f) rfl
  have hfan := (takePlacement_fan l p.fans f).trans (place_eq _ _)
  rw [takePlacement_fan] at hincident hentry
  refine ⟨fun e he => ?_, fun hnone => ?_, howned, hfollows, ?_⟩
  · rw [hincident, hentry, show listed l f = some e from he]
    exact place_some e _
  · rw [hincident, hentry, listed_none hnone]
    exact ⟨rfl, rfl⟩
  · rw [hfan, ← hincident, ← hentry] at hpursues
    exact hpursues

/-- What the gallery's demand makes of the gallery's fans. -/
theorem galleryChange_event (q : State) (d : GalleryDemand) :
    let a := q.fanEvent (FanUnit.galleryChange q.ctx d)
    let p := { q with fans := { q.fans with galleryDemand := d } }
    (∀ f : Fin 8, q.active.fans[f].role = .gallery →
      OwnedByHighest q.active a.fans f ∧ FollowsOwner q.active a.fans f ∧
      PursuesTarget p a f { q.fans.fans[f] with owner := a.fans.fans[f].owner, target := a.fans.fans[f].target }) ∧
    FanEventFrame p a (fun f => q.active.fans[f].role = .gallery) := by
  intro a p
  have hchange := galleryChange_claimsChange (fun f => decide (q.active.fans[f].role = .gallery)) d q.fans
  have hact : FanUnit.galleryChange q.ctx d q.fans = FanUnit.recomputeAll q.ctx
    (fun f => decide (q.active.fans[f].role = .gallery)) { q.fans with galleryDemand := d } := rfl
  refine ⟨fun f hf => ?_, hchange.frame hact fun f => decide_eq_true_iff⟩
  obtain ⟨⟨howned, hfollows, hpursues⟩, -⟩ := hchange.recomputed hact (decide_eq_true hf)
  refine ⟨howned, hfollows, ?_⟩
  rw [pursuesTarget_demands]
  exact hpursues

/-- Settles O33: a placement claims the fans of its list, and the gallery's demand the fans of the gallery. -/
theorem placementAndGalleryDemandsClaimFans : Obligations.PlacementAndGalleryDemandsClaimFans := by
  refine fun s hrunning => ⟨fun l rest hplaced => placementChange_acts hrunning hplaced ?_,
    fun d rest hdemand => galleryDemandChange_acts hrunning hdemand ?_⟩
  · exact placementChange_event { s with mail := { s.mail with placements := rest } } l
  · exact galleryChange_event { s with mail := { s.mail with galleryDemands := rest } } d

end Sys2Proof.Machine

/-! The cards of the fan controller: FAN_REQUEST (R105, R106), FAN_SERVICE (R100) and FAN_RESET (R107). -/

namespace Sys2Proof.Machine

/-! ## FAN_REQUEST -/

/-- The fan unit with the new request of the host. -/
def FanUnit.setRequest (f : Fin 8) (r : HostRequest) (u : FanUnit) : FanUnit := u.change f ({ · with request := r })

theorem request_oneFan (x : Ctx) (f : Fin 8) (r : HostRequest) (u : FanUnit) : OneFan f u (u.request x f r) :=
  (change_oneFan (g := ({ · with request := r })) rfl (fun _ => rfl) id).trans (recompute_oneFan x f _)

theorem request_placed (x : Ctx) (f : Fin 8) (r : HostRequest) (u : FanUnit) : Placed f u (u.request x f r) :=
  (recompute_placed x f (u.setRequest f r)).of_samePlace rfl (change_samePlace ⟨rfl, rfl, rfl, rfl⟩)

theorem request_event (s : State) (f : Fin 8) (r : HostRequest) :
    let v := s.fanEvent (FanUnit.request s.ctx f r)
    let n := v.fans.fans[f]
    OwnedByHighest s.active v.fans f ∧ FollowsOwner s.active v.fans f ∧
      PursuesTarget s v f { s.fans.fans[f] with request := r, owner := n.owner, target := n.target } ∧
      FanEventFrame s v (· = f) := by
  intro v n
  have hfan : (s.fans.setRequest f r).fans[f] = { s.fans.fans[f] with request := r } := change_same _ f _
  obtain ⟨howned, hfollows, hpursues⟩ := recomputed_event (s := s) (act := FanUnit.request s.ctx f r) (f := f)
    (u := s.fans.setRequest f r) rfl .rfl (by rw [hfan])
  rw [hfan] at hpursues
  exact ⟨howned, hfollows, hpursues, (request_oneFan s.ctx f r s.fans).frame (request_placed s.ctx f r s.fans)⟩

theorem fanRequestOf_none {c : Card} (h : 2 ≤ c.a0.toNat ∨ (c.a0 = 0 ∧ (2 ≤ c.a1.toNat ∨ 101 ≤ c.a2.toNat))) :
    fanRequestOf c = none := by
  unfold fanRequestOf
  rcases h with h | ⟨h, hargs⟩
  · split
    · omega
    · omega
    · rfl
  · rw [h]
    exact if_neg (by omega)

theorem fanRequestOf_auto {c : Card} (h : c.a0 = 1) : fanRequestOf c = some .auto := by
  unfold fanRequestOf
  rw [h]
  rfl

theorem fanRequestOf_manual {c : Card} {dir : Direction} (h : c.a0 = 0) (hspeed : c.a2.toNat ≤ 100)
    (hdir : c.a1 = if dir = .rev then 1 else 0) : fanRequestOf c = some (.manual dir c.a2.toNat) := by
  unfold fanRequestOf
  rw [h, hdir]
  cases dir <;> exact if_pos ⟨by decide, hspeed⟩

theorem fanRequest_answered {s v : State} {t : Take} {r : HostRequest} {f : Fin 8} {o : CardOutcome} (h : fanRequestOf t.card = some r)
    (hv : s.fanEvent (FanUnit.request s.ctx f r) = v) (houtcome : requestOutcome v.fans.fans[f] t.card.wait = some o) :
    s.fanRequest f t = v.reply t (.fanStatus o f) := by
  simp only [State.fanRequest, h, hv, houtcome]

theorem fanRequest_waits {s v : State} {t : Take} {r : HostRequest} {f : Fin 8} (h : fanRequestOf t.card = some r)
    (hv : s.fanEvent (FanUnit.request s.ctx f r) = v) (houtcome : requestOutcome v.fans.fans[f] t.card.wait = none) :
    s.fanRequest f t = State.started { v with
      fans := v.fans.change f fun e => { e with attached := e.attached ++ (v.attachment t.deck).toList } } := by
  simp only [State.fanRequest, h, hv, houtcome]

/-- The answer that a request finds in the fan (R106): none where the card waits for the target. -/
theorem requestOutcome_spec (e : Fan) (wait : Bool) :
    (e.owner ≠ .host → requestOutcome e wait = some .deferred) ∧
    (e.owner = .host → e.state = .faulted → requestOutcome e wait = some .accepted) ∧
    (e.owner = .host → e.state ≠ .faulted → e.atTarget → requestOutcome e wait = some .done) ∧
    (e.owner = .host → e.state ≠ .faulted → ¬e.atTarget → wait = false → requestOutcome e wait = some .accepted) ∧
    (e.owner = .host → e.state ≠ .faulted → ¬e.atTarget → wait = true → requestOutcome e wait = none) := by
  unfold requestOutcome
  simp only [← reached_iff]
  refine ⟨fun ho => if_pos ho, fun ho hs => ?_, fun ho hs ht => ?_, fun ho hs ht hw => ?_, fun ho hs ht hw => ?_⟩ <;>
    simp [*]

/-- Settles O34: FAN_REQUEST hands the request to the fan and answers by the owner that it finds. -/
theorem fanRequestIsAnsweredByTheOwnerItFinds : Obligations.FanRequestIsAnsweredByTheOwnerItFinds := by
  refine fun t s h => ⟨refuses_badTarget h rfl, fun f htarget => ?_⟩
  have hfan := onTarget_ofNat State.fanRequest s (by decide) htarget
  refine ⟨fun hargs => answersAlone_of_reply h rfl (hfan.trans ?_), fun r hr => acts_dispatched h rfl ?_⟩
  · simp only [State.fanRequest, fanRequestOf_none hargs]
  have hrequest : fanRequestOf t.card = some r := by
    rcases hr with ⟨ha0, hr⟩ | ⟨dir, ha0, ha2, ha1, hr⟩ <;> rw [hr]
    · exact fanRequestOf_auto ha0
    · exact fanRequestOf_manual ha0 ha2 ha1
  rw [hfan]
  have hevent := request_event s f r
  have hdecks : (s.fanEvent (FanUnit.request s.ctx f r)).decks = s.decks := rfl
  obtain ⟨v, hv⟩ : ∃ v, s.fanEvent (FanUnit.request s.ctx f r) = v := ⟨_, rfl⟩
  simp only [hv] at hevent hdecks
  obtain ⟨howned, hfollows, hpursues, hframe⟩ := hevent
  obtain ⟨hdeferred, hfaulted, hdone, haccepted, hwaits⟩ := requestOutcome_spec v.fans.fans[f] t.card.wait
  refine ⟨v, howned, hfollows, hpursues, hframe, fun ho => fanRequest_answered hrequest hv (hdeferred ho),
    fun ho hs => fanRequest_answered hrequest hv (hfaulted ho hs), fun ho hs ht => fanRequest_answered hrequest hv (hdone ho hs ht),
    fun ho hs ht hw => fanRequest_answered hrequest hv (haccepted ho hs ht hw), fun ho hs ht hw => ?_⟩
  rw [fanRequest_waits hrequest hv (hwaits ho hs ht hw)]
  have hattachment : (v.attachment t.deck).toList = if s.decks[t.deck].inFlight.isSome then [t.deck] else [] := by
    rw [State.attachment, hdecks]
    split <;> rfl
  rw [hattachment]
  rfl

/-! ## FAN_SERVICE -/

theorem fanEventFrame_reply {s a : State} {acted : Fin 8 → Prop} (h : FanEventFrame s a acted) (t : Take) (r : Answer) :
    FanEventFrame { s with executor := (a.reply t r).executor } (a.reply t r) acted := by
  obtain ⟨hrests, hwaits, hslots, horder, hzones, hgallery, havailable, hattached, hdetached, hrest⟩ := h
  exact ⟨hrests, hwaits, hslots, horder, hzones, hgallery, havailable, hattached, hdetached, congrArg (State.reply t r) hrest⟩

/-- The fan unit with the fan in or out of service. -/
def FanUnit.setOut (f : Fin 8) (out : Bool) (u : FanUnit) : FanUnit := u.change f ({ · with out := out })

section
variable {x : Ctx} {f : Fin 8} {u v : FanUnit}

theorem setOut_oneFan (out : Bool) : OneFan f u (u.setOut f out) := change_oneFan rfl (fun _ => rfl) id

/-- A new target does nothing at once in a fan that is not available. -/
theorem recompute_of_unavailable (h : u.fans[f].state.isUnavailable) : u.recompute x f = u.claim x f := by
  have hs : (u.claim x f).fans[f].state.isUnavailable := by rwa [claim_fan]
  have hpursue : (u.claim x f).pursue x f = u.claim x f := by
    rcases hs with hs | hs | hs <;> simp only [FanUnit.pursue, hs]
  unfold FanUnit.recompute
  simp only [hpursue, ite_self]

theorem enter_state (st : FanState) : (u.enter x f st).fans[f].state = st := by
  rw [enter_fan]
  rfl

theorem fanService_same (out : Bool) (h : out = u.fans[f].out) : u.service x f out = u := if_pos h

theorem fanService_out (h : u.fans[f].out = false) :
    u.service x f true = ((u.setOut f true).enter x f .service).claim x f := by
  rw [← recompute_of_unavailable (.inr (.inr (enter_state _)))]
  exact (if_neg (by rw [h]; exact nofun)).trans (if_pos rfl)

theorem fanService_local (h : u.fans[f].out = true) (hlocal : u.fans[f].localSwitch = true) :
    u.service x f false = ((u.setOut f false).enter x f .localPanel).claim x f := by
  rw [← recompute_of_unavailable (.inr (.inl (enter_state _)))]
  exact (if_neg (by rw [h]; exact nofun)).trans ((if_neg nofun).trans (if_pos hlocal))

theorem fanService_returns (h : u.fans[f].out = true) (hlocal : u.fans[f].localSwitch = false) :
    u.service x f false = (((u.setOut f false).restartClock x f).enterStopping x f).recompute x f :=
  (if_neg (by rw [h]; exact nofun)).trans ((if_neg nofun).trans (if_neg (by rw [hlocal]; exact nofun)))

/-- A fan that goes into a state out of the queue, under a new claim. -/
theorem entered_claimed_oneFan {st : FanState} (hst : st ≠ .starting) : OneFan f u ((u.enter x f st).claim x f) :=
  (enter_oneFan x f u hst).trans (claim_oneFan x f _)

theorem entered_claimed_gone (st : FanState) : f ∉ ((u.enter x f st).claim x f).queue :=
  mt (mem_claim x f _).mp (not_mem_enter x f u st)

end

section
variable {s : State} {f : Fin 8} {act : FanUnit → FanUnit} {u : FanUnit}

/-- An event that ends with the fan in a state out of the queue, under a new claim. -/
theorem entered_claimed_event {st : FanState} (hact : act s.fans = (u.enter s.ctx f st).claim s.ctx f) :
    let n := (s.fanEvent act).fans.fans[f]
    OwnedByHighest s.active (s.fanEvent act).fans f ∧ FollowsOwner s.active (s.fanEvent act).fans f ∧
      Rests (s.fanEvent act) f
        (({ u.fans[f] with owner := n.owner, target := n.target } : Fan).entering s s.active.fans[f] st .none) := by
  intro n
  obtain ⟨howned, hfollows, hfan⟩ := claimed_event (s := s) (act := act) (u := u.enter s.ctx f st) (f := f)
    (by rw [hact]; exact .refl f _) (by rw [hact]; exact .refl _)
  refine ⟨howned, hfollows, ?_⟩
  have hrests := (Brings.of_eq hact).rests (entered_claimed_gone st)
  rwa [hfan, enter_same] at hrests

theorem Rests.out {a : State} {e : Fan} (h : Rests a f e) : a.fans.fans[f].out = e.out := by
  obtain ⟨-, hfan⟩ := h
  exact (congrArg Fan.out hfan).trans rfl

/-- A fan whose owner is out in service, or at its local panel, has the target STOP. -/
theorem owner_stops {cfg : ActiveConfig} {st : Owner} (hst : st = .service ∨ st = .localPanel) (howner : u.fans[f].owner = st)
    (hfollows : FollowsOwner cfg u f) : u.fans[f].owner = st ∧ u.fans[f].target = .stop := by
  obtain ⟨hstop, -⟩ := hfollows
  exact ⟨howner, hstop (by rw [howner]; exact hst)⟩

end

/-! ## Back from service -/

section
variable {p a : State} {f : Fin 8} {w : Fan}

theorem PursuesTarget.of_unavailable (h : PursuesTarget p a f w) (hqueue : f ∉ p.fans.queue) (hs : w.state.isUnavailable) :
    Rests a f w := by
  obtain ⟨-, hsame, -, -, -, -, -, -, -, -, -, hchanged⟩ := h
  by_cases htarget : w.target ≠ p.fans.fans[f].target
  · exact hchanged htarget hs hqueue
  · exact hsame htarget hqueue

theorem PursuesTarget.of_stopped (h : PursuesTarget p a f w) (hqueue : f ∉ p.fans.queue) (hstop : p.fans.fans[f].target = .stop)
    (hs : w.state = .stopped) : LeavesRest p a f w := by
  obtain ⟨-, hsame, hchanged, -⟩ := h
  by_cases htarget : w.target ≠ p.fans.fans[f].target
  · exact hchanged htarget hs hqueue
  · have hrun {dir : Direction} {speed : Nat} : w.target ≠ .run dir speed := by
      rw [not_not.mp htarget, hstop]
      exact nofun
    exact ⟨fun _ => hsame htarget hqueue, fun _ _ ht => absurd ht hrun, fun _ _ ht => absurd ht hrun⟩

theorem PursuesTarget.of_stopping (h : PursuesTarget p a f w) (hqueue : f ∉ p.fans.queue) (hstop : p.fans.fans[f].target = .stop)
    (hs : w.state = .stopping) : (w.drivesTarget → p.active.fans[f].flyingRestart = true → Waits p a f w) ∧
      (¬w.drivesTarget ∨ p.active.fans[f].flyingRestart = false → Rests a f w) := by
  obtain ⟨-, hsame, -, -, -, -, -, -, hjoins, hstays, hleaves, -⟩ := h
  by_cases htarget : w.target ≠ p.fans.fans[f].target
  · refine ⟨hjoins htarget hs, fun hor => ?_⟩
    by_cases hdrives : w.drivesTarget
    · exact hstays htarget hs hdrives (hor.resolve_left (not_not_intro hdrives)) hqueue
    · exact hleaves htarget hs hdrives
  · refine ⟨fun ⟨dir, speed, hrun, _⟩ => ?_, fun _ => hsame htarget hqueue⟩
    rw [not_not.mp htarget, hstop] at hrun
    exact nomatch hrun

end

section
variable {s : State} {f : Fin 8} {v : FanUnit}

theorem enterStopping_of_fault (hfault : v.fans[f].fault = true) :
    v.enterStopping s.ctx f = (v.enter s.ctx f .stopping).enterFaulted s.ctx f .driveFault :=
  (if_pos hfault).trans (if_pos hfault)

theorem enterStopping_of_sound (hfault : v.fans[f].fault = false) :
    v.enterStopping s.ctx f = (v.enter s.ctx f .stopping).checkRundown s.ctx f :=
  if_neg (by rw [hfault]; exact nofun)

/-- A fan without a target that goes to STOPPING: where it comes to rest, and what it is then. -/
theorem enterStopping_of_stop (hstop : v.fans[f].target = .stop) :
    let item := s.active.fans[f]
    let e := v.fans[f].entering s item .stopping .none
    let n := (v.enterStopping s.ctx f).fans[f]
    f ∉ (v.enterStopping s.ctx f).queue ∧
    (v.fans[f].fault = true → n = e.entering s item .faulted .driveFault) ∧
    (v.fans[f].fault = false → e.atRest item s.now → n = e.entering s item .stopped .none) ∧
    (v.fans[f].fault = false → ¬e.atRest item s.now → n = e) := by
  intro item e n
  have hsame : (v.enter s.ctx f .stopping).fans[f] = e := enter_same s f .stopping v
  by_cases hfault : v.fans[f].fault = true
  · have hunit := enterStopping_of_fault (s := s) hfault
    refine ⟨by rw [hunit]; exact not_mem_enterFaulted _ f _ _, fun _ => ?_, fun hsound => (nomatch hfault.symm.trans hsound),
      fun hsound => (nomatch hfault.symm.trans hsound)⟩
    rw [show n = _ from congrArg (fun u : FanUnit => u.fans[f]) hunit, enterFaulted_same, hsame]
  have hunit := enterStopping_of_sound (s := s) (Bool.eq_false_iff.mpr hfault)
  by_cases hrest : e.atRest item s.now
  · rw [checkRundown_of_over (by rwa [hsame]) (not_mem_enter _ f v _), leaveStopped_of_stop _ (by rw [enter_same, hsame]; exact hstop)]
      at hunit
    refine ⟨by rw [hunit]; exact not_mem_enter _ f _ _, fun hf => absurd hf hfault, fun _ _ => ?_, fun _ hr => absurd hrest hr⟩
    rw [show n = _ from congrArg (fun u : FanUnit => u.fans[f]) hunit, enter_same, hsame]
  · rw [checkRundown_of_not_over (by rwa [hsame])] at hunit
    refine ⟨by rw [hunit]; exact not_mem_enter _ f v _, fun hf => absurd hf hfault, fun _ hr => absurd hr hrest, fun _ _ => ?_⟩
    rw [show n = _ from congrArg (fun u : FanUnit => u.fans[f]) hunit, hsame]

end

/-- What an event makes of a fan does not hang on the fans before it. -/
theorem waits_fans (s a : State) (u : FanUnit) (f : Fin 8) (w : Fan) : Waits { s with fans := u } a f w = Waits s a f w := rfl

theorem leavesRest_fans (s a : State) (u : FanUnit) (f : Fin 8) (w : Fan) :
    LeavesRest { s with fans := u } a f w = LeavesRest s a f w := rfl

theorem recomputed_event_from {s : State} {act : FanUnit → FanUnit} {f : Fin 8} {u : FanUnit} (hact : act s.fans = u.recompute s.ctx f) :
    OwnedByHighest s.active (s.fanEvent act).fans f ∧ FollowsOwner s.active (s.fanEvent act).fans f ∧
      PursuesTarget { s with fans := u } (s.fanEvent act) f { u.fans[f] with
        owner := (s.fanEvent act).fans.fans[f].owner, target := (s.fanEvent act).fans.fans[f].target } := by
  have hbrings : Brings s act f (u.recompute s.ctx f) := .of_eq hact
  rw [← claim_fan_of_moved ((recompute_moved s.ctx f u).trans hbrings.moved)]
  exact ⟨hbrings.owned (recompute_owned s.ctx f u) (by rw [hact]), hbrings.follows (recompute_follows s.ctx f u) (by rw [hact]),
    hbrings.pursuesFrom⟩

/-- A fan that comes back from service and has had no target since then. -/
theorem returns_event {s : State} {f : Fin 8} {act : FanUnit → FanUnit} {v : FanUnit} (hstop : v.fans[f].target = .stop)
    (hact : act s.fans = (v.enterStopping s.ctx f).recompute s.ctx f) :
    let a := s.fanEvent act
    let n := a.fans.fans[f]
    let item := s.active.fans[f]
    let e := ({ v.fans[f] with owner := n.owner, target := n.target } : Fan).entering s item .stopping .none
    (v.fans[f].fault = true → Rests a f (e.entering s item .faulted .driveFault)) ∧
    (v.fans[f].fault = false → e.atRest item s.now → LeavesRest s a f (e.entering s item .stopped .none)) ∧
    (v.fans[f].fault = false → ¬e.atRest item s.now → e.drivesTarget → item.flyingRestart = true → Waits s a f e) ∧
    (v.fans[f].fault = false → ¬e.atRest item s.now → ¬e.drivesTarget ∨ item.flyingRestart = false → Rests a f e) := by
  intro a n item e
  obtain ⟨-, -, hpursues⟩ := recomputed_event_from hact
  obtain ⟨hqueue, hfaulted, hstopped, hstopping⟩ := enterStopping_of_stop (s := s) hstop
  have htarget : (v.enterStopping s.ctx f).fans[f].target = .stop := (enterStopping_moved s.ctx f v).target.trans hstop
  refine ⟨fun hf => ?_, fun hf hrest => ?_, fun hf hrest => ?_, fun hf hrest => ?_⟩
  · rw [hfaulted hf] at hpursues
    exact hpursues.of_unavailable hqueue (.inl rfl)
  · rw [hstopped hf hrest] at hpursues
    have hleaves := hpursues.of_stopped hqueue htarget rfl
    rwa [leavesRest_fans] at hleaves
  · rw [hstopping hf hrest] at hpursues
    have hwaits := (hpursues.of_stopping hqueue htarget rfl).1
    rwa [waits_fans] at hwaits
  · rw [hstopping hf hrest] at hpursues
    exact (hpursues.of_stopping hqueue htarget rfl).2

theorem service_oneFan (x : Ctx) (f : Fin 8) (out : Bool) (u : FanUnit) : OneFan f u (u.service x f out) := by
  by_cases hsame : out = u.fans[f].out
  · rw [fanService_same out hsame]
    exact .refl f u
  cases out with
  | true =>
    rw [fanService_out (Bool.eq_false_iff.mpr (Ne.symm hsame))]
    exact (setOut_oneFan true).trans (entered_claimed_oneFan nofun)
  | false =>
    have hout : u.fans[f].out = true := Bool.eq_true_of_not_eq_false (Ne.symm hsame)
    cases hlocal : u.fans[f].localSwitch with
    | true =>
      rw [fanService_local hout hlocal]
      exact (setOut_oneFan false).trans (entered_claimed_oneFan nofun)
    | false =>
      rw [fanService_returns hout hlocal]
      exact ((setOut_oneFan false).trans (restartClock_oneFan x f _)).trans
        ((enterStopping_oneFan x f _).trans (recompute_oneFan x f _))

theorem service_placed {x : Ctx} {f : Fin 8} {out : Bool} {u : FanUnit} (hchange : out ≠ u.fans[f].out) :
    Placed f u (u.service x f out) := by
  cases out with
  | true =>
    rw [fanService_out (Bool.eq_false_iff.mpr (Ne.symm hchange))]
    exact .gone (entered_claimed_gone _)
  | false =>
    have hout : u.fans[f].out = true := Bool.eq_true_of_not_eq_false (Ne.symm hchange)
    cases hlocal : u.fans[f].localSwitch with
    | true =>
      rw [fanService_local hout hlocal]
      exact .gone (entered_claimed_gone _)
    | false =>
      rw [fanService_returns hout hlocal]
      refine .of_gone_or_back ((recompute_placed x f _).gone_or_back (recompute_oneFan x f _).touches.other
        (enterStopping_gone_or_back x f _)) fun ⟨_, _, hacted⟩ => ?_
      exact nomatch hout.symm.trans (hacted rfl).2.1

/-- What FAN_SERVICE makes of the fan (R100). -/
theorem service_event (s : State) (f : Fin 8) (out : Bool) :
    let a := s.fanEvent (FanUnit.service s.ctx f out)
    let o := s.fans.fans[f]
    let item := s.active.fans[f]
    let n := a.fans.fans[f]
    let w := { o with out := n.out, owner := n.owner, target := n.target }
    let e := ({ w with rundownFrom := s.now } : Fan).entering s item .stopping .none
    let returns := out = false ∧ o.out = true
    n.out = out ∧
    (out = true → o.out = false → Rests a f (w.entering s item .service .none) ∧ n.owner = .service ∧ n.target = .stop) ∧
    (returns → o.localSwitch = true →
      Rests a f (w.entering s item .localPanel .none) ∧ n.owner = .localPanel ∧ n.target = .stop) ∧
    (returns → OwnedByHighest s.active a.fans f ∧ FollowsOwner s.active a.fans f) ∧
    (returns → o.localSwitch = false → o.state = .service → o.target = .stop →
      (o.fault = true → Rests a f (e.entering s item .faulted .driveFault)) ∧
      (o.fault = false → e.atRest item s.now → LeavesRest s a f (e.entering s item .stopped .none)) ∧
      (o.fault = false → ¬e.atRest item s.now → e.drivesTarget → item.flyingRestart = true → Waits s a f e) ∧
      (o.fault = false → ¬e.atRest item s.now → ¬e.drivesTarget ∨ item.flyingRestart = false → Rests a f e)) ∧
    (n.out ≠ o.out → FanEventFrame s a (· = f)) ∧
    (n.out = o.out → FanEventFrame s a (fun _ => False)) := by
  intro a o item n w e returns
  let act := FanUnit.service s.ctx f out
  have hfan : (s.fans.setOut f out).fans[f] = { o with out := out } := change_same _ f _
  by_cases hsame : out = o.out
  · have hunit : act s.fans = s.fans := fanService_same out hsame
    have hout : n.out = out := ((Brings.of_eq (s := s) hunit).moved (f := f)).out.trans hsame.symm
    have hnot : ¬returns := fun ⟨hf, ht⟩ => nomatch (hf.symm.trans hsame).trans ht
    exact ⟨hout, fun ht hf => (nomatch (ht.symm.trans hsame).trans hf), fun h => absurd h hnot, fun h => absurd h hnot,
      fun h => absurd h hnot, fun hne => absurd (hout.trans hsame) hne, fun _ => fanEventFrame_of_eq hunit⟩
  have hframe (hout : n.out = out) : (n.out ≠ o.out → FanEventFrame s a (· = f)) ∧
      (n.out = o.out → FanEventFrame s a (fun _ => False)) :=
    ⟨fun _ => (service_oneFan s.ctx f out s.fans).frame (service_placed hsame), fun heq => absurd (hout.symm.trans heq) hsame⟩
  by_cases hout : out = true
  · subst hout
    have hin : o.out = false := Bool.eq_false_iff.mpr (Ne.symm hsame)
    have hunit : act s.fans = ((s.fans.setOut f true).enter s.ctx f .service).claim s.ctx f := fanService_out hin
    obtain ⟨howned, hfollows, hrests⟩ := entered_claimed_event hunit
    rw [hfan] at hrests
    have hno : n.out = true := hrests.out
    have howner : n.owner = .service := howned.1 hno
    rw [← hno] at hrests
    exact ⟨hno, fun _ _ => ⟨hrests, owner_stops (.inl rfl) howner hfollows⟩, fun h => (nomatch h.1), fun h => (nomatch h.1),
      fun h => (nomatch h.1), hframe hno⟩
  obtain rfl : out = false := Bool.eq_false_iff.mpr hout
  have hin : o.out = true := Bool.eq_true_of_not_eq_false (Ne.symm hsame)
  by_cases hlocal : o.localSwitch = true
  · have hunit : act s.fans = ((s.fans.setOut f false).enter s.ctx f .localPanel).claim s.ctx f := fanService_local hin hlocal
    obtain ⟨howned, hfollows, hrests⟩ := entered_claimed_event hunit
    rw [hfan] at hrests
    have hno : n.out = false := hrests.out
    have hnlocal : n.localSwitch = true := ((congrArg Fan.localSwitch hrests.2).trans rfl).trans hlocal
    have howner : n.owner = .localPanel := howned.2.1 hno hnlocal
    rw [← hno] at hrests
    exact ⟨hno, nofun, fun _ _ => ⟨hrests, owner_stops (.inr rfl) howner hfollows⟩, fun _ => ⟨howned, hfollows⟩,
      fun _ hf => (nomatch hlocal.symm.trans hf), hframe hno⟩
  · have hunit : act s.fans = (((s.fans.setOut f false).restartClock s.ctx f).enterStopping s.ctx f).recompute s.ctx f :=
      fanService_returns hin (Bool.eq_false_iff.mpr hlocal)
    obtain ⟨howned, hfollows, -⟩ := recomputed_event_from hunit
    have hno : n.out = false := by
      rw [((Brings.of_eq hunit).moved (f := f)).out, (recompute_moved s.ctx f _).out, claim_fan]
      refine (enterStopping_moved s.ctx f _).out.trans ?_
      rw [FanUnit.restartClock, change_same, hfan]
    have hclock : ((s.fans.setOut f false).restartClock s.ctx f).fans[f] = { o with out := n.out, rundownFrom := s.now } := by
      rw [FanUnit.restartClock, change_same, hfan, hno]
      rfl
    refine ⟨hno, nofun, fun _ hl => absurd hl hlocal, fun _ => ⟨howned, hfollows⟩, fun _ _ _ hstop => ?_, hframe hno⟩
    have hreturns := returns_event (by rw [hclock]; exact hstop) hunit
    rw [hclock] at hreturns
    exact hreturns

/-! ## FAN_RESET -/

theorem clearFault_oneFan (x : Ctx) (f : Fin 8) (u : FanUnit) : OneFan f (u.claim x f) (u.clearFault x f) :=
  (enter_oneFan x f _ (st := .stopped) nofun).trans (leaveStopped_oneFan x f _)

theorem clearFault_moved (x : Ctx) (f : Fin 8) (u : FanUnit) : (u.claim x f).fans[f].Moved (u.clearFault x f).fans[f] :=
  (enter_moved x f _ .stopped).trans (leaveStopped_moved x f _)

theorem clearFault_placed {x : Ctx} {f : Fin 8} {u : FanUnit} (h : u.fans[f].state = .faulted) : Placed f u (u.clearFault x f) :=
  .of_gone_or_back (leaveStopped_gone_or_back x (not_mem_enter x f _ _)) (not_keepsPlace_of_state (by rw [h]; exact ⟨nofun, nofun⟩))

/-- What FAN_RESET makes of a faulted fan (R107). -/
theorem clearFault_event {s : State} {f : Fin 8} (hfaulted : s.fans.fans[f].state = .faulted) :
    let a := s.fanEvent (FanUnit.clearFault s.ctx f)
    let n := a.fans.fans[f]
    let w := { s.fans.fans[f] with owner := n.owner, target := n.target }
    OwnedByHighest s.active a.fans f ∧ FollowsOwner s.active a.fans f ∧
      LeavesRest s a f (w.entering s s.active.fans[f] .stopped .none) ∧ FanEventFrame s a (· = f) := by
  intro a n w
  obtain ⟨howned, hfollows, hfan⟩ := claimed_event (s := s) (act := FanUnit.clearFault s.ctx f) (u := s.fans) (f := f)
    (clearFault_oneFan s.ctx f _) (clearFault_moved s.ctx f _)
  have hleaves := (Brings.refl (s := s) (act := FanUnit.clearFault s.ctx f) (f := f)).stopped
  rw [hfan] at hleaves
  exact ⟨howned, hfollows, hleaves,
    ((claim_oneFan s.ctx f s.fans).trans (clearFault_oneFan s.ctx f s.fans)).frame (clearFault_placed hfaulted)⟩

theorem fanReset_notPermitted {s : State} {f : Fin 8} (t : Take) (h : s.fans.fans[f].state ≠ .faulted) :
    s.fanReset f t = s.reply t (.refuse .notPermitted) := if_pos h

theorem fanReset_busy {s : State} {f : Fin 8} (t : Take) (hfaulted : s.fans.fans[f].state = .faulted)
    (h : s.fans.fans[f].fault = true ∨ ¬s.fans.fans[f].atRest s.active.fans[f] s.now) :
    s.fanReset f t = s.reply t (.refuse .busy) := by
  refine (if_neg (not_not_intro hfaulted)).trans (if_pos ?_)
  simpa [← rundownOver_iff] using h

theorem fanReset_done {s : State} {f : Fin 8} (t : Take) (hfaulted : s.fans.fans[f].state = .faulted)
    (hsound : s.fans.fans[f].fault = false) (hrest : s.fans.fans[f].atRest s.active.fans[f] s.now) :
    s.fanReset f t = (s.fanEvent (FanUnit.clearFault s.ctx f)).reply t (.plain .done (wordNat s.fans.fans[f].cause.code) 0) := by
  refine (if_neg (not_not_intro hfaulted)).trans (if_neg ?_)
  rw [hsound, (rundownOver_iff s _ _).mpr hrest]
  exact nofun

/-! ## The obligation -/

/-- What an event makes of a fan does not hang on the executor. -/
theorem waits_reply (s a : State) (t : Take) (r : Answer) (f : Fin 8) (w : Fan) :
    Waits { s with executor := (a.reply t r).executor } (a.reply t r) f w = Waits s a f w := rfl

theorem leavesRest_reply (s a : State) (t : Take) (r : Answer) (f : Fin 8) (w : Fan) :
    LeavesRest { s with executor := (a.reply t r).executor } (a.reply t r) f w = LeavesRest s a f w := rfl

theorem fanService_badArgument {s : State} {f : Fin 8} {t : Take} (h : 2 ≤ t.card.a0.toNat) :
    s.fanService f t = s.reply t (.refuse .badArgument) := if_pos h

theorem fanService_done {s : State} {f : Fin 8} {t : Take} (h : t.card.a0.toNat ≤ 1) :
    s.fanService f t = (s.fanEvent (FanUnit.service s.ctx f (t.card.a0 == 1))).reply t
      (.plain .done (wordNat (boolNat s.fans.fans[f].out)) 0) := if_neg (by omega)

/-- Settles O35: what FAN_SERVICE and FAN_RESET make of the fan, and what they answer. -/
theorem fanServiceAndFanResetAct : Obligations.FanServiceAndFanResetAct := by
  refine ⟨fun t s h => ⟨refuses_badTarget h rfl, fun f htarget => ?_⟩, fun t s h => ⟨refuses_badTarget h rfl, fun f htarget => ?_⟩⟩
  · refine ⟨fun ha0 => refuses_badArgument h rfl (by decide) htarget (fanService_badArgument ha0), fun ha0 => acts_dispatched h rfl ?_⟩
    rw [onTarget_ofNat State.fanService s (by decide) htarget, fanService_done ha0]
    have hevent := service_event s f (t.card.a0 == 1)
    generalize s.fanEvent (FanUnit.service s.ctx f (t.card.a0 == 1)) = v at hevent ⊢
    obtain ⟨hout, houtOf, hlocal, howned, hreturns, hframe, hkept⟩ := hevent
    have hone (h1 : t.card.a0 = 1) : (t.card.a0 == 1) = true := beq_iff_eq.mpr h1
    have hzero (h0 : t.card.a0 = 0) : (t.card.a0 == 1) = false := by rw [h0]; rfl
    refine ⟨?_, hout, fun h1 => ?_, fun h0 => ?_, fun h0 => ?_, fun h0 => ?_, fun hne => fanEventFrame_reply (hframe hne) t _,
      fun heq => fanEventFrame_reply (hkept heq) t _⟩
    · rw [wordNat_boolNat]
      rfl
    · exact houtOf (hone h1)
    · exact hlocal ⟨hzero h0.1, h0.2⟩
    · exact howned ⟨hzero h0.1, h0.2⟩
    · intro hl hs hstop
      obtain ⟨hfaulted, hstopped, hjoins, hstays⟩ := hreturns ⟨hzero h0.1, h0.2⟩ hl hs hstop
      refine ⟨hfaulted, ?_, ?_, hstays⟩
      · rwa [← leavesRest_reply s v t] at hstopped
      · rwa [← waits_reply s v t] at hjoins
  · have honFan := onTarget_ofNat State.fanReset s (by decide) htarget
    refine ⟨fun hs => answersAlone_of_reply h rfl (honFan.trans (fanReset_notPermitted t hs)),
      fun hs hbusy => answersAlone_of_reply h rfl (honFan.trans (fanReset_busy t hs ?_)), fun hs hsound hstill hrest => ?_⟩
    · refine hbusy.imp_right fun hbusy ⟨hstill, hrest⟩ => ?_
      rcases hbusy with hrunning | hearly
      · exact nomatch hrunning.symm.trans hstill
      · omega
    · refine acts_dispatched h rfl ?_
      rw [honFan, fanReset_done t hs hsound ⟨hstill, hrest⟩]
      have hevent := clearFault_event hs
      generalize s.fanEvent (FanUnit.clearFault s.ctx f) = v at hevent ⊢
      obtain ⟨howned, hfollows, hleaves, hframe⟩ := hevent
      exact ⟨rfl, howned, hfollows, hleaves, fanEventFrame_reply hframe t _⟩

end Sys2Proof.Machine

/-! The events of the door controller (R112 to R124): contacts, the push sequence, the timers, incidents and the pressure reading. -/

namespace Sys2Proof.Machine

/-! ## An event at one door -/

/-- What an event at one door leaves: the reach list, the pressure and the other doors. -/
def DoorEventKeeps (p a : State) (d : Fin 4) : Prop :=
  a.doors.reach = p.doors.reach ∧ a.doors.pressure = p.doors.pressure ∧ DoorEventFrame p a (· = d)

section
variable {s : State} {d : Fin 4} {post : State → Prop}

/-- An event whose change at a door may read the whole door unit. -/
theorem doorEvent_change (p : State) (d : Fin 4) (f : DoorUnit → DoorItem → Door → Door) :
    let a := p.doorEvent fun u => u.change p.ctx d (f u)
    a.doors.doors[d] = f p.doors p.active.doors[d] p.doors.doors[d] ∧ DoorEventKeeps p a d := by
  intro a
  obtain ⟨hreach, hpressure, hdoors⟩ := doorEvent_reach p fun u => u.change p.ctx d (f u)
  refine ⟨?_, hreach, hpressure, doorEvent_frame p _ _ (fun _ hk => change_door_other p.ctx (f p.doors) p.doors hk) rfl rfl⟩
  rw [hdoors]
  exact change_door_same p.ctx d (f p.doors) p.doors

theorem doorContact_acts {k : Fin 3} {level : Bool} {rest : List Bool} {c : Instr}
    {f : Ctx → Bool → DoorUnit → DoorItem → Door → Door} (hrunning : s.running = true)
    (hexec : exec c s = internal s (s.contactWaiting (doorInput d k)) (State.doorContact d k fun x l u => u.change x d (f x l u)))
    (hchange : s.mail.contactChanges[doorInput d k] = level :: rest)
    (hpost : ∀ a : State, a.doors.doors[d] = f s.ctx level s.doors s.active.doors[d] s.doors.doors[d] →
      DoorEventKeeps { s with mail := { s.mail with contactChanges := s.mail.contactChanges.set (doorInput d k) rest } } a d →
      post a) : Acts c s post := by
  have hwaiting : s.contactWaiting (doorInput d k) = true := by
    rw [State.contactWaiting, hchange]
    rfl
  let p := { s with mail := { s.mail with contactChanges := s.mail.contactChanges.set (doorInput d k) rest } }
  obtain ⟨hdoor, hkeeps⟩ := doorEvent_change p d (f s.ctx level)
  refine ⟨_, ?_, hpost _ hdoor hkeeps⟩
  rw [hexec, internal_acts hrunning hwaiting]
  simp only [State.doorContact, hchange, popContact_eq hchange]
  rfl

theorem doorTimer_acts {c : Instr} {due : Bool} {f : Ctx → DoorItem → Door → Door} (hrunning : s.running = true)
    (hexec : exec c s = internal s due fun s => s.doorEvent fun u => u.change s.ctx d (f s.ctx)) (hdue : due = true)
    (hpost : ∀ a : State, a.doors.doors[d] = f s.ctx s.active.doors[d] s.doors.doors[d] → DoorEventKeeps s a d → post a) :
    Acts c s post := by
  obtain ⟨hdoor, hkeeps⟩ := doorEvent_change s d fun _ => f s.ctx
  exact ⟨_, by rw [hexec, internal_acts hrunning hdue], hpost _ hdoor hkeeps⟩

end

/-! ## Entering a state -/

section
variable {x : Ctx} {item : DoorItem} {e : Door}

theorem enter_enters {st : DoorState} (hforced : st ≠ .forced) (hheld : st ≠ .heldOpen) :
    e.Enters (e.enter x st) x.sec st none none := by
  simp [Door.Enters, Door.enter, hforced, hheld]

theorem goForced_enters : e.Enters (e.goForced x) x.sec .forced none none := by
  simp [Door.Enters, Door.goForced, Door.enter]

theorem heldOpenExpired_enters : e.Enters (e.heldOpenExpired x) x.sec .heldOpen none none := by
  simp [Door.Enters, Door.heldOpenExpired, Door.enter]

theorem energise_assists (p : AssistPath) : e.Assists (e.energise x item p) x.now item p := by
  simp only [Door.Assists, Door.energise, seconds_eq]

/-! ## The CLOSED and BOLTED contacts (R113 to R120) -/

theorem closedContact_on : e.closedContact x item true = { e with closed := true }.closedReturns x item := rfl

theorem closedContact_off : e.closedContact x item false = { e with closed := false }.closedLost x item := rfl

theorem closedLost_opens (h : e.state = .released ∨ e.state = .bolting ∨ e.state = .opening) :
    e.closedLost x item = e.goOpen x item := by
  rcases h with h | h | h <;> simp only [Door.closedLost, h]

theorem closedLost_secured (h : e.state = .secured) :
    e.closedLost x item = if e.push then e.goOpen x item else e.goForced x := by
  simp only [Door.closedLost, h]

theorem closedLost_other (h : e.state ≠ .released ∧ e.state ≠ .bolting ∧ e.state ≠ .opening ∧ e.state ≠ .secured) :
    e.closedLost x item = e := by
  unfold Door.closedLost
  cases hs : e.state <;> simp_all

theorem closedReturns_forced (h : e.state = .forced) : e.closedReturns x item = e.throwBolt x item := by
  simp only [Door.closedReturns, h]

theorem closedReturns_open (h : e.state = .openLeaf ∨ e.state = .heldOpen) :
    e.closedReturns x item = if e.secureWanted then e.throwBolt x item else e.enter x .released := by
  rcases h with h | h <;> simp only [Door.closedReturns, h]

theorem closedReturns_other (h : e.state ≠ .forced ∧ e.state ≠ .openLeaf ∧ e.state ≠ .heldOpen) : e.closedReturns x item = e := by
  unfold Door.closedReturns
  cases hs : e.state <;> simp_all

theorem closedContact_spec (x : Ctx) (item : DoorItem) (level : Bool) (e : Door) :
    let c := { e with closed := level }
    let n := e.closedContact x item level
    (level = false → e.state = .released ∨ e.state = .bolting ∨ e.state = .opening → c.Opens n x.now x.sec item) ∧
    (level = false → e.state = .secured → e.push = true → c.Opens n x.now x.sec item) ∧
    (level = false → e.state = .secured → e.push = false → c.Enters n x.sec .forced none none) ∧
    (level = true → e.state = .forced → c.Bolts n x.now x.sec item) ∧
    (level = true → e.state = .openLeaf ∨ e.state = .heldOpen → e.secureWanted = true → c.Bolts n x.now x.sec item) ∧
    (level = true → e.state = .openLeaf ∨ e.state = .heldOpen → e.secureWanted = false → c.Enters n x.sec .released none none) ∧
    (level = true → e.state ≠ .forced → e.state ≠ .openLeaf → e.state ≠ .heldOpen → n = c) ∧
    (level = false → e.state ≠ .released → e.state ≠ .bolting → e.state ≠ .opening → e.state ≠ .secured → n = c) := by
  intro c n
  have hon (hl : level = true) : n = c.closedReturns x item := by subst hl; exact closedContact_on
  have hoff (hl : level = false) : n = c.closedLost x item := by subst hl; exact closedContact_off
  refine ⟨fun hl hs => ?_, fun hl hs hp => ?_, fun hl hs hp => ?_, fun hl hs => ?_, fun hl hs hw => ?_, fun hl hs hw => ?_,
    fun hl h1 h2 h3 => (hon hl).trans (closedReturns_other ⟨h1, h2, h3⟩),
    fun hl h1 h2 h3 h4 => (hoff hl).trans (closedLost_other ⟨h1, h2, h3, h4⟩)⟩
  · rw [hoff hl, closedLost_opens (by exact hs)]
    exact goOpen_spec x item c
  · rw [hoff hl, closedLost_secured (by exact hs), if_pos (by exact hp)]
    exact goOpen_spec x item c
  · rw [hoff hl, closedLost_secured (by exact hs), if_neg (by rw [show c.push = false from hp]; exact nofun)]
    exact goForced_enters
  · rw [hon hl, closedReturns_forced (by exact hs)]
    exact throwBolt_spec x item c
  · rw [hon hl, closedReturns_open (by exact hs), if_pos (by exact hw)]
    exact throwBolt_spec x item c
  · rw [hon hl, closedReturns_open (by exact hs), if_neg (by rw [show c.secureWanted = false from hw]; exact nofun)]
    exact enter_enters nofun nofun

/-- The door with the new level at the BOLTED contact. -/
def Door.setBolted (level : Bool) (e : Door) : Door := { e with bolted := level }

theorem boltedContact_bolting {level : Bool} (h : e.state = .bolting) :
    e.boltedContact x item level = if level then (e.setBolted level).enter x .secured else e.setBolted level := by
  unfold Door.boltedContact
  split
  next => rfl
  next hs => exact nomatch h.symm.trans hs
  next hb _ => exact absurd h hb

theorem boltedContact_secured {level : Bool} (h : e.state = .secured) :
    e.boltedContact x item level = if level then e.setBolted level else (e.setBolted level).throwBolt x item := by
  unfold Door.boltedContact
  split
  next hb => exact nomatch h.symm.trans hb
  next => rfl
  next _ hs => exact absurd h hs

theorem boltedContact_other {level : Bool} (hb : e.state ≠ .bolting) (hs : e.state ≠ .secured) :
    e.boltedContact x item level = e.setBolted level := by
  unfold Door.boltedContact
  split
  next h => exact absurd h hb
  next h => exact absurd h hs
  next => rfl

theorem boltedContact_spec (x : Ctx) (item : DoorItem) (level : Bool) (e : Door) :
    let c := { e with bolted := level }
    let n := e.boltedContact x item level
    (level = true → e.state = .bolting → c.Enters n x.sec .secured none none) ∧
    (level = false → e.state = .secured → c.Enters n x.sec .bolting (some (x.now + 1000 * item.boltTime)) none) ∧
    (level = true ∧ e.state ≠ .bolting ∨ level = false ∧ e.state ≠ .secured → n = c) := by
  intro c n
  refine ⟨fun hl hs => ?_, fun hl hs => ?_, fun h => ?_⟩
  · rw [show n = c.enter x .secured from (boltedContact_bolting hs).trans (if_pos hl)]
    exact enter_enters nofun nofun
  · rw [show n = c.throwBolt x item from (boltedContact_secured hs).trans (if_neg (by rw [hl]; exact nofun))]
    exact (throwBolt_spec x item c).2 hl
  · by_cases hb : e.state = .bolting
    · obtain ⟨hl, -⟩ := h.resolve_left fun h => h.2 hb
      exact (boltedContact_bolting hb).trans (if_neg (by rw [hl]; exact nofun))
    by_cases hs : e.state = .secured
    · obtain ⟨hl, -⟩ := h.resolve_right fun h => h.2 hs
      exact (boltedContact_secured hs).trans (if_pos hl)
    · exact boltedContact_other hb hs

end

/-- Settles O36: what the CLOSED and the BOLTED contact make of a door, by its state. -/
theorem closedAndBoltedContactsMoveTheDoor : Obligations.ClosedAndBoltedContactsMoveTheDoor := by
  refine fun d level rest s hrunning => ⟨fun hchange => ?_, fun hchange => ?_⟩
  · refine doorContact_acts (f := fun x l _ item e => e.closedContact x item l) hrunning rfl hchange fun a hdoor hkeeps => ?_
    dsimp only
    rw [hdoor]
    obtain ⟨h1, h2, h3, h4, h5, h6, h7, h8⟩ := closedContact_spec s.ctx s.active.doors[d] level s.doors.doors[d]
    exact ⟨h1, h2, h3, h4, h5, h6, h7, h8, hkeeps⟩
  · refine doorContact_acts (f := fun x l _ item e => e.boltedContact x item l) hrunning rfl hchange fun a hdoor hkeeps => ?_
    dsimp only
    rw [hdoor]
    obtain ⟨h1, h2, h3⟩ := boltedContact_spec s.ctx s.active.doors[d] level s.doors.doors[d]
    exact ⟨h1, h2, h3, hkeeps⟩

/-! ## The push sequence (R118 to R121) -/

theorem pressurePasses_iff (cfg : ActiveConfig) (r : Reading) : pressurePasses cfg.gallery r = true ↔ PressurePasses cfg r := by
  have haverage : (match r.average with | none => false | some a => decide (a ≤ cfg.gallery.openLimit)) = true ↔
      ∃ a, r.average = some a ∧ a ≤ cfg.gallery.openLimit := by
    cases r.average <;> simp
  have hpasses : pressurePasses cfg.gallery r = (cfg.gallery.pressureChannel.isSome &&
      (decide (r.status = .ok) || decide (r.status = .over)) &&
      (match r.average with | none => false | some a => decide (a ≤ cfg.gallery.openLimit))) := rfl
  rw [hpasses, Bool.and_eq_true, haverage]
  simp [PressurePasses, Option.isSome_iff_ne_none, and_assoc]

section
variable {x : Ctx} {item : DoorItem} {e : Door}

/-- A door that has gone to OPENING and waits for the relief of the pressure. -/
def Door.waiting (x : Ctx) (item : DoorItem) (e : Door) : Door :=
  { e.enter x .opening with path := .none, reliefDue := some (x.now + 1000 * item.reliefTime) }

theorem goOpening_eq (passes : Bool) :
    e.goOpening x item passes = if passes then (e.waiting x item).energise x item .pressure else e.waiting x item := by
  simp only [Door.goOpening, Door.waiting, seconds_eq]

/-- The door with the new level at the PUSH contact. -/
def Door.setPush (level : Bool) (e : Door) : Door := { e with push := level }

theorem pushContact_closed (passes : Bool) (h : e.state = .released ∨ e.state = .bolting ∨ e.state = .secured) :
    e.pushContact x item passes true = (e.setPush true).goOpening x item passes := by
  unfold Door.pushContact
  rcases h with h | h | h <;> simp only [h, if_true] <;> rw [Door.setPush, h]

theorem pushContact_forced (passes : Bool) (h : e.state = .forced) :
    e.pushContact x item passes true = (e.setPush true).goOpen x item := by
  unfold Door.pushContact
  simp only [h, if_true]
  rw [Door.setPush, h]

theorem pushContact_other {level : Bool} (passes : Bool) (h : level = false ∨
    (e.state ≠ .released ∧ e.state ≠ .bolting ∧ e.state ≠ .secured ∧ e.state ≠ .forced)) :
    e.pushContact x item passes level = e.setPush level := by
  rcases h with rfl | ⟨h1, h2, h3, h4⟩
  · rfl
  · unfold Door.pushContact
    split
    · split
      next h => exact absurd h h1
      next h => exact absurd h h2
      next h => exact absurd h h3
      next h => exact absurd h h4
      next => rfl
    · rfl

theorem pushContact_spec {cfg : ActiveConfig} {r : Reading} (x : Ctx) (item : DoorItem) (level : Bool) (e : Door) :
    let n := e.pushContact x item (pressurePasses cfg.gallery r) level
    let c := { e with push := level }
    let waiting := c.waiting x item
    (level = true → e.state = .released ∨ e.state = .bolting ∨ e.state = .secured →
      (PressurePasses cfg r → waiting.Assists n x.now item .pressure ∧ n.reliefDue = waiting.reliefDue) ∧
      (¬PressurePasses cfg r → n = waiting)) ∧
    (level = true → e.state = .forced → c.Opens n x.now x.sec item) ∧
    (level = false ∨ (e.state ≠ .released ∧ e.state ≠ .bolting ∧ e.state ≠ .secured ∧ e.state ≠ .forced) → n = c) := by
  intro n c waiting
  refine ⟨fun hl hs => ?_, fun hl hs => ?_, pushContact_other _⟩ <;> subst hl
  · rw [show n = _ from (pushContact_closed _ hs).trans (goOpening_eq _), ← pressurePasses_iff]
    refine ⟨fun hpasses => ?_, fun hpasses => if_neg hpasses⟩
    rw [if_pos hpasses]
    exact ⟨energise_assists .pressure, rfl⟩
  · rw [show n = _ from pushContact_forced _ hs]
    exact goOpen_spec x item c

theorem reliefExpired_spec (x : Ctx) (item : DoorItem) (e : Door) :
    let n := e.reliefExpired x item
    (e.assist = false → e.Assists n x.now item .time) ∧ (e.assist = true → n = { e with reliefDue := none }) ∧ n.reliefDue = none := by
  intro n
  by_cases hassist : e.assist = true
  · have hn : n = { e with reliefDue := none } := if_pos hassist
    exact ⟨fun h => (nomatch hassist.symm.trans h), fun _ => hn, by rw [hn]⟩
  · have hn : n = ({ e with reliefDue := none } : Door).energise x item .time := if_neg hassist
    have hrelief : n.reliefDue = none := by rw [hn]; rfl
    refine ⟨fun _ => ?_, fun h => absurd h hassist, hrelief⟩
    unfold Door.Assists
    rw [hrelief, hn]
    simp only [Door.energise, seconds_eq]

theorem assistExpired_takesUp (x : Ctx) (item : DoorItem) (e : Door) :
    { e with assistTimeoutFlag := true }.TakesUp (e.assistExpired x item) x.now x.sec item :=
  takeUp_spec x item { e with assistTimeoutFlag := true }

end

/-! ## The timers -/

theorem doorTimer_due {st st' : DoorState} {timer : Option Nat} {due now : Nat} (hs : st = st') (hdue : timer = some due)
    (hnow : due ≤ now) : (decide (st = st') && expired timer now) = true := by
  rw [decide_eq_true hs, hdue, expired_some, decide_eq_true hnow]
  rfl

theorem doorTimer_early {st st' : DoorState} {timer : Option Nat} {due now : Nat} (hdue : timer = some due) (hnow : now < due) :
    (decide (st = st') && expired timer now) = false := by
  rw [hdue, expired_some, decide_eq_false (Nat.not_le.mpr hnow), Bool.and_false]

theorem doorTimer_waits {c : Instr} {s : State} {due : Bool} {act : State → State} (hexec : exec c s = internal s due act)
    (hdue : due = false) : exec c s = .next s := by
  rw [hexec]
  exact internal_idle (by rw [hdue, Bool.and_false])

/-- Settles O37: the push sequence and the door timers run. -/
theorem thePushSequenceAndTheDoorTimersRun : Obligations.ThePushSequenceAndTheDoorTimersRun := by
  refine ⟨fun d s hrunning => ⟨fun level rest hchange => ?_, fun due hs hdue hnow => ?_, fun due hs hdue hnow => ?_,
    fun due hdue hnow => doorTimer_waits rfl (doorTimer_early hdue hnow),
    fun due hdue hnow => doorTimer_waits rfl (doorTimer_early hdue hnow)⟩,
    fun d due s hrunning => ⟨fun hs hdue hnow => ?_, fun hs hdue hnow => ?_,
    fun hdue hnow => doorTimer_waits rfl (doorTimer_early hdue hnow),
    fun hdue hnow => doorTimer_waits rfl (doorTimer_early hdue hnow)⟩⟩
  · refine doorContact_acts (f := fun x l u item e => e.pushContact x item (pressurePasses x.cfg.gallery u.pressure) l)
      hrunning rfl hchange fun a hdoor hkeeps => ?_
    dsimp only
    rw [hdoor]
    obtain ⟨hcloses, hforced, hother⟩ := pushContact_spec (cfg := s.active) (r := s.doors.pressure) s.ctx s.active.doors[d] level
      s.doors.doors[d]
    exact ⟨hcloses, hforced, hother, hkeeps⟩
  · refine doorTimer_acts (f := fun x item e => e.reliefExpired x item) hrunning rfl (doorTimer_due hs hdue hnow)
      fun a hdoor hkeeps => ?_
    dsimp only
    rw [hdoor]
    obtain ⟨hassists, hassisted, hrelief⟩ := reliefExpired_spec s.ctx s.active.doors[d] s.doors.doors[d]
    exact ⟨hassists, hassisted, hrelief, hkeeps⟩
  · refine doorTimer_acts (f := fun x item e => e.assistExpired x item) hrunning rfl (doorTimer_due hs hdue hnow)
      fun a hdoor hkeeps => ?_
    rw [hdoor]
    exact ⟨assistExpired_takesUp s.ctx _ _, hkeeps⟩
  · refine doorTimer_acts (f := fun x _ e => e.enter x .fault) hrunning rfl (doorTimer_due hs hdue hnow) fun a hdoor hkeeps => ?_
    rw [hdoor]
    exact ⟨enter_enters nofun nofun, hkeeps⟩
  · refine doorTimer_acts (f := fun x _ e => e.heldOpenExpired x) hrunning rfl (doorTimer_due hs hdue hnow) fun a hdoor hkeeps => ?_
    rw [hdoor]
    exact ⟨heldOpenExpired_enters, hkeeps⟩

/-! ## Incidents and the pressure reading (R111, R119, R123) -/

theorem reachAfter_spec (m : IncidentDelivery) (l : List ReachEntry) :
    (m.state = none ∨ m.state = some .clearing → reachAfter m l = l.filter fun r => decide (r.ident ≠ m.ident)) ∧
    (m.state ≠ none → m.state ≠ some .clearing → (∀ r ∈ l, r.ident ≠ m.ident) →
      reachAfter m l = l ++ [{ ident := m.ident, position := m.position }]) ∧
    (m.state ≠ none → m.state ≠ some .clearing → (∃ r ∈ l, r.ident = m.ident) → reachAfter m l = l) := by
  have hany : (l.any fun r => decide (r.ident = m.ident)) = true ↔ ∃ r ∈ l, r.ident = m.ident := by simp
  have hstays (hnone : m.state ≠ none) (hclearing : m.state ≠ some .clearing) : reachAfter m l =
      if l.any fun r => decide (r.ident = m.ident) then l else l ++ [{ ident := m.ident, position := m.position }] := by
    unfold reachAfter
    split
    next h => exact absurd h hnone
    next h => exact absurd h hclearing
    next => rfl
  refine ⟨fun h => ?_, fun hn hc hr => ?_, fun hn hc hr => ?_⟩
  · unfold reachAfter
    rcases h with h | h <;> simp only [h]
  · rw [hstays hn hc, if_neg (mt hany.mp fun ⟨r, hr', he⟩ => hr r hr' he)]
  · rw [hstays hn hc, if_pos (hany.mpr hr)]

theorem incidentDelivery_acts {s : State} {m : IncidentDelivery} {rest : List IncidentDelivery} {post : State → Prop}
    (hrunning : s.running = true) (hmail : s.mail.incidents = m :: rest)
    (hpost : post (State.doorEvent (DoorUnit.incident s.ctx m) { s with mail := { s.mail with incidents := rest } })) :
    Acts .incidentDelivery s post := by
  refine ⟨_, ?_, hpost⟩
  change execIncidentDelivery s = _
  unfold execIncidentDelivery
  rw [internal_acts hrunning (by rw [hmail]; rfl), hmail]

theorem pressureReading_acts {s : State} {r : Reading} {rest : List Reading} {post : State → Prop} (hrunning : s.running = true)
    (hmail : s.mail.readings = r :: rest)
    (hpost : post (State.doorEvent (DoorUnit.reading s.ctx r) { s with mail := { s.mail with readings := rest } })) :
    Acts .pressureReading s post := by
  refine ⟨_, ?_, hpost⟩
  change execPressureReading s = _
  unfold execPressureReading
  rw [internal_acts hrunning (by rw [hmail]; rfl), hmail]

theorem incident_door (x : Ctx) (m : IncidentDelivery) (u : DoorUnit) (d : Fin 4) : (u.incident x m).doors[d] =
    u.doors[d].takeSecure x x.cfg.doors[d] (wantsSecure x.cfg (reachAfter m u.reach) d u.doors[d]) := by
  have hk (g : Fin 4 → Door) : (Vector.ofFn g)[d] = g d := Vector.getElem_ofFn _
  unfold DoorUnit.incident
  simp only
  rw [hk]

theorem reading_door (x : Ctx) (r : Reading) (u : DoorUnit) (d : Fin 4) : (u.reading x r).doors[d] =
    u.doors[d].testReading x x.cfg.doors[d] (pressurePasses x.cfg.gallery r) := by
  have hk (g : Fin 4 → Door) : (Vector.ofFn g)[d] = g d := Vector.getElem_ofFn _
  unfold DoorUnit.reading
  simp only
  rw [hk]

theorem testReading_spec (x : Ctx) (item : DoorItem) (r : Reading) (e : Door) :
    let n := e.testReading x item (pressurePasses x.cfg.gallery r)
    (e.state = .opening → e.assist = false → PressurePasses x.cfg r → e.Assists n x.now item .pressure ∧ n.reliefDue = e.reliefDue) ∧
    (e.state ≠ .opening ∨ e.assist = true ∨ ¬PressurePasses x.cfg r → n = e) := by
  intro n
  have hn : n = if e.state = .opening ∧ e.assist = false ∧ pressurePasses x.cfg.gallery r = true then e.energise x item .pressure
      else e := rfl
  rw [← pressurePasses_iff]
  refine ⟨fun hs ha hp => ?_, fun h => hn.trans (if_neg fun ⟨hs, ha, hp⟩ => ?_)⟩
  · rw [hn, if_pos ⟨hs, ha, hp⟩]
    exact ⟨energise_assists .pressure, rfl⟩
  · rcases h with h | h | h
    · exact h hs
    · exact nomatch h.symm.trans ha
    · exact h hp

theorem incident_event (p : State) (m : IncidentDelivery) :
    let a := p.doorEvent (DoorUnit.incident p.ctx m)
    a.doors.reach = reachAfter m p.doors.reach ∧
    (∀ d : Fin 4, ∃ wanted : Bool, (wanted = true ↔ SecureWanted p.active a.doors.reach d p.doors.doors[d]) ∧
      p.doors.doors[d].TakesSecure a.doors.doors[d] p.now p.regs.seconds p.active.doors[d] wanted) ∧
    a.doors.pressure = p.doors.pressure ∧ DoorEventFrame p a (fun _ => True) := by
  intro a
  obtain ⟨hreach, hpressure, hdoors⟩ := doorEvent_reach p (DoorUnit.incident p.ctx m)
  refine ⟨hreach, fun d => ⟨wantsSecure p.active a.doors.reach d p.doors.doors[d], ?_, ?_⟩, hpressure,
    doorEvent_frame p _ _ (fun _ hk => absurd trivial hk) rfl rfl⟩
  · exact wantsSecure_iff _ _ d _
  · rw [hdoors, incident_door, hreach]
    exact takeSecure_spec p.ctx _ _ _

theorem reading_event (p : State) (r : Reading) :
    let a := p.doorEvent (DoorUnit.reading p.ctx r)
    a.doors.pressure = r ∧ a.doors.reach = p.doors.reach ∧
    (∀ d : Fin 4,
      let o := p.doors.doors[d]
      let n := a.doors.doors[d]
      (o.state = .opening → o.assist = false → PressurePasses p.active r →
        o.Assists n p.now p.active.doors[d] .pressure ∧ n.reliefDue = o.reliefDue) ∧
      (o.state ≠ .opening ∨ o.assist = true ∨ ¬PressurePasses p.active r → n = o)) ∧
    DoorEventFrame p a (fun _ => True) := by
  intro a
  obtain ⟨hreach, hpressure, hdoors⟩ := doorEvent_reach p (DoorUnit.reading p.ctx r)
  refine ⟨hpressure, hreach, fun d => ?_, doorEvent_frame p _ _ (fun _ hk => absurd trivial hk) rfl rfl⟩
  rw [hdoors, reading_door]
  exact testReading_spec p.ctx _ r _

/-- Settles O38: the doors follow the incidents in their reach, and an opening door the pressure. -/
theorem doorsFollowIncidentsAndPressure : Obligations.DoorsFollowIncidentsAndPressure := by
  refine fun s hrunning => ⟨fun m rest hmail => incidentDelivery_acts hrunning hmail ?_,
    fun r rest hmail => pressureReading_acts hrunning hmail ?_⟩
  · obtain ⟨hreach, hdoors, hpressure, hframe⟩ := incident_event { s with mail := { s.mail with incidents := rest } } m
    obtain ⟨hgone, hjoins, hstays⟩ := reachAfter_spec m s.doors.reach
    rw [← hreach] at hgone hjoins hstays
    exact ⟨hgone, hjoins, hstays, hdoors, hpressure, hframe⟩
  · exact reading_event { s with mail := { s.mail with readings := rest } } r

end Sys2Proof.Machine

/-! The events of the incident unit (chapter 7): what an event makes of the table, and how a record comes into it (R132 to R136). -/

namespace Sys2Proof.Machine

/-! ## The table after an event -/

section
variable {p : State} {act : IncidentUnit → IncidentStep} {k : Fin 4} {r : Incident}

/-- An event leaves the rest of the unit as its step has it: the governing record is chosen among the slots. -/
theorem incidentEvent_unit (p : State) (act : IncidentUnit → IncidentStep) : (p.incidentEvent act).incidents =
    { (act p.incidents).unit with slots := (p.incidentEvent act).incidents.slots } := rfl

/-- The frame of an event whose step is known. -/
theorem incidentEvent_frame_of_eq {r : IncidentStep} (h : act p.incidents = r) :
    IncidentEventFrame p (p.incidentEvent act) r.deliveries r.freed r.slotFreed r.notices := by
  subst h
  exact incidentEvent_frame p act

theorem incidentEvent_table_of_eq {r : IncidentStep} (h : act p.incidents = r) :
    TableIs (p.incidentEvent act).incidents r.unit.slots := by
  subst h
  exact incidentEvent_table p act

theorem incidentEvent_unit_of_eq {r : IncidentStep} (h : act p.incidents = r) :
    (p.incidentEvent act).incidents = { r.unit with slots := (p.incidentEvent act).incidents.slots } := by
  subst h
  exact incidentEvent_unit p act

theorem incidentsStay_event (h : act p.incidents = .silent p.incidents) : IncidentsStay p (p.incidentEvent act) :=
  ⟨incidentEvent_table_of_eq h, incidentEvent_unit_of_eq h, incidentEvent_frame_of_eq h⟩

/-- A record that the unit tells the other blocks of. -/
theorem becomes_event {notices : List Notice} (h : act p.incidents = p.incidents.becomes k r notices) :
    RecordBecomes p (p.incidentEvent act) k r true notices :=
  ⟨incidentEvent_table_of_eq h, incidentEvent_unit_of_eq h, incidentEvent_frame_of_eq h⟩

/-- A record that changes without a delivery. -/
theorem put_event {notices : List Notice}
    (h : act p.incidents = { IncidentStep.silent (p.incidents.put k r) with notices := notices }) :
    RecordBecomes p (p.incidentEvent act) k r false notices :=
  ⟨incidentEvent_table_of_eq h, incidentEvent_unit_of_eq h, incidentEvent_frame_of_eq h⟩

end

/-! ## Notices that the unit sends (R142) -/

theorem clip16_eq (i : Int) : clip16 i = (max 0 (min 65535 i)).toNat := by
  unfold clip16
  split
  · omega
  split <;> omega

theorem notice_sends (p : State) (r : Incident) (st : NoticeState) : r.notice p.ctx st = r.Sends p st := by
  have hmirror : BitVec.ofNat 8 (boolNat r.mirror) = if r.mirror then 1 else 0 := by
    cases r.mirror <;> rfl
  simp only [Incident.notice, Incident.Sends, hmirror, clip16_eq]
  rfl

theorem enterClearing_event {p : State} {act : IncidentUnit → IncidentStep} {k : Fin 4} {r : Incident}
    (h : act p.incidents = p.incidents.enterClearing p.ctx k r) : EntersClearing p (p.incidentEvent act) k r := by
  unfold IncidentUnit.enterClearing at h
  rw [notice_sends] at h
  exact becomes_event h

/-! ## A slot for a new record (R134) -/

theorem emptySlot_some {u : IncidentUnit} {k : Fin 4} (h : u.emptySlot = some k) : LowestEmpty u k := by
  obtain ⟨hempty, hfirst⟩ := List.find?_eq_some_iff_append.mp h
  obtain ⟨before, after, hlist, hbefore⟩ := hfirst
  refine ⟨Option.isNone_iff_eq_none.mp hempty, fun j hj hnone => ?_⟩
  have hsorted : (before ++ k :: after).Pairwise (· < ·) := hlist ▸ List.pairwise_lt_finRange 4
  have hmem : j ∈ before ++ k :: after := hlist ▸ List.mem_finRange j
  rcases List.mem_append.mp hmem with hin | hin
  · have := hbefore j hin
    simp [hnone] at this
  · obtain ⟨-, hafter, -⟩ := List.pairwise_append.mp hsorted
    rcases List.mem_cons.mp hin with rfl | hin
    · exact lt_irrefl j hj
    · exact lt_asymm hj ((List.pairwise_cons.mp hafter).1 j hin)

theorem emptySlot_none_iff {u : IncidentUnit} : u.emptySlot = none ↔ ∀ k : Fin 4, u.slots[k] ≠ none := by
  simp only [IncidentUnit.emptySlot, List.find?_eq_none, List.mem_finRange, true_implies, Option.isNone_iff_eq_none, ne_eq]

theorem emptySlot_of_lowest {u : IncidentUnit} {k : Fin 4} (h : LowestEmpty u k) : u.emptySlot = some k := by
  obtain ⟨hempty, hlower⟩ := h
  cases hslot : u.emptySlot with
  | none => exact absurd hempty (emptySlot_none_iff.mp hslot k)
  | some j =>
    obtain ⟨hj, hjlower⟩ := emptySlot_some hslot
    rcases lt_trichotomy j k with hlt | heq | hgt
    · exact absurd hj (hlower j hlt)
    · rw [heq]
    · exact absurd hempty (hjlower k hgt)

theorem displaceable_iff (r : Incident) :
    (decide (r.origin = .notice) && decide (r.state ≠ .clearing)) = true ↔ r.MayBeDisplaced := by
  simp [Incident.MayBeDisplaced]

theorem Incident.Earlier.asymm {a b : Incident} (h : a.Earlier b) : ¬b.Earlier a := by
  have hbyte : ∀ x y : Byte, x = y ↔ x.toNat = y.toNat := fun x y => BitVec.toNat_inj.symm
  have hstart : ∀ x y : DWord, x = y ↔ x.toInt = y.toInt := fun x y => BitVec.toInt_inj.symm
  simp only [Incident.Earlier, hbyte, hstart] at h ⊢
  omega

theorem displaced_found (u : IncidentUnit) :
    FoundBest u (fun r => decide (r.origin = .notice) && decide (r.state ≠ .clearing)) (fun a b => b.before a) (List.finRange 4)
      u.displaced := by
  refine best_found u _ _ (fun a => ?_) (fun a b c => ?_) fun a b => ?_
  · rw [← Bool.not_eq_true, before_iff]
    exact not_before_self a
  · simp only [← Bool.not_eq_true, before_iff]
    exact fun h1 h2 => not_before_trans h2 h1
  · simp only [← Bool.not_eq_true, before_iff]
    exact Incident.Earlier.asymm

theorem displaced_some {u : IncidentUnit} {k : Fin 4} (h : u.displaced = some k) :
    ∃ old, u.slots[k] = some old ∧ old.MayBeDisplaced ∧
      ∀ (j : Fin 4) (q : Incident), u.slots[j] = some q → q.MayBeDisplaced → ¬old.Earlier q := by
  obtain ⟨old, hslot, htest, hlatest⟩ := (displaced_found u).2 k h
  refine ⟨old, hslot, (displaceable_iff old).mp htest, fun j q hq hmay => ?_⟩
  rw [← before_iff, Bool.not_eq_true]
  exact hlatest j (List.mem_finRange j) q hq ((displaceable_iff q).mpr hmay)

theorem displaced_none {u : IncidentUnit} (h : u.displaced = none) (k : Fin 4) (r : Incident) (hr : u.slots[k] = some r) :
    ¬r.MayBeDisplaced := by
  rw [← displaceable_iff, Bool.not_eq_true]
  exact (displaced_found u).1 h k (List.mem_finRange k) r hr

/-! ## Creation (R132, R134, R135) -/

section
variable (p : State) (o : Origin) (position : Nat) (zone : Option (Fin 8)) (template : Fin 8) (mirror : Bool) (evidence : List (Fin 12))

/-- The identity and the record of a creation. -/
def State.newIdent : Ident := { span := p.active.span.spanId, seq := p.incidents.freshSeq p.active.span.spanId }

def State.newRecord : Incident :=
  Incident.createLocal p.ctx p.newIdent o position zone template mirror evidence

/-- The table with the new record in a slot, and the next identity counted on. -/
def IncidentUnit.putNew (k : Fin 4) (r : Incident) (u : IncidentUnit) : IncidentUnit := { u.put k r with localSeq := r.ident.seq + 1 }

variable {p o position zone template mirror evidence}

theorem newIdent_fresh (hlen : p.incidents.cleared.length ≤ 8) : FreshIdentity p p.newIdent := by
  obtain ⟨n, hn, hseq, hunknown, hfirst⟩ := freshSeq_spec hlen p.active.span.spanId
  refine ⟨rfl, freshSeq_unknown hlen _, n, hn, hseq, hfirst⟩

theorem create_of_empty {k : Fin 4} (h : p.incidents.emptySlot = some k) :
    p.incidents.create p.ctx o position zone template mirror evidence =
      let r := p.newRecord o position zone template mirror evidence
      (some (p.newIdent, k), { unit := p.incidents.putNew k r, deliveries := [r.delivery], freed := [], slotFreed := false
                               notices := [r.notice p.ctx .active] }) := by
  unfold IncidentUnit.create
  simp only [h]
  rfl

theorem create_of_displaced {k : Fin 4} {old : Incident} (h : p.incidents.emptySlot = none) (hdisplaced : p.incidents.displaced = some k)
    (hold : p.incidents.slots[k] = some old) : p.incidents.create p.ctx o position zone template mirror evidence =
      let r := p.newRecord o position zone template mirror evidence
      (some (p.newIdent, k),
        { unit := p.incidents.overflowed.putNew k r
          deliveries := [{ ident := old.ident, position := old.position, state := none }, r.delivery]
          freed := [old.ident], slotFreed := false, notices := [r.notice p.ctx .active] }) := by
  unfold IncidentUnit.create
  simp only [h, hdisplaced, hold]
  rfl

theorem create_of_full (h : p.incidents.emptySlot = none) (hdisplaced : p.incidents.displaced = none) :
    p.incidents.create p.ctx o position zone template mirror evidence = (none, .silent p.incidents.overflowed) := by
  unfold IncidentUnit.create
  simp only [h, hdisplaced]

/-- What comes of a creation: a record, or an overflow of the table (R134). -/
theorem create_event (hlen : p.incidents.cleared.length ≤ 8) :
    let act (u : IncidentUnit) : IncidentStep := (u.create p.ctx o position zone template mirror evidence).2
    let a := p.incidentEvent act
    (∃ k, (p.incidents.create p.ctx o position zone template mirror evidence).1 = some (p.newIdent, k) ∧
      Creates p a o position zone template mirror evidence k p.newIdent) ∨
    ((p.incidents.create p.ctx o position zone template mirror evidence).1 = none ∧ Overflows p a) := by
  intro act a
  have hfresh := newIdent_fresh hlen
  cases hempty : p.incidents.emptySlot with
  | some k =>
    have hcreate := create_of_empty (o := o) (position := position) (zone := zone) (template := template) (mirror := mirror)
      (evidence := evidence) hempty
    have hstep := congrArg Prod.snd hcreate
    have htable := incidentEvent_table_of_eq (act := act) hstep
    refine .inl ⟨k, congrArg Prod.fst hcreate, hfresh, htable, ?_, ?_,
      .inl ⟨emptySlot_some hempty, ?_, ?_, ?_⟩⟩
    any_goals rw [incidentEvent_unit_of_eq (act := act) hstep]; rfl
    rw [← notice_sends]
    exact incidentEvent_frame_of_eq (act := act) hstep
  | none =>
    cases hdisplaced : p.incidents.displaced with
    | some k =>
      obtain ⟨old, hold, hmay, hlatest⟩ := displaced_some hdisplaced
      have hcreate := create_of_displaced (o := o) (position := position) (zone := zone) (template := template) (mirror := mirror)
        (evidence := evidence) hempty hdisplaced hold
      have hstep := congrArg Prod.snd hcreate
      have htable := incidentEvent_table_of_eq (act := act) hstep
      refine .inl ⟨k, congrArg Prod.fst hcreate, hfresh, htable, ?_, ?_,
        .inr ⟨old, emptySlot_none_iff.mp hempty, hold, hmay, hlatest, ?_, ?_, ?_⟩⟩
      any_goals rw [incidentEvent_unit_of_eq (act := act) hstep]; rfl
      rw [← notice_sends]
      exact incidentEvent_frame_of_eq (act := act) hstep
    | none =>
      have hcreate := create_of_full (o := o) (position := position) (zone := zone) (template := template) (mirror := mirror)
        (evidence := evidence) hempty hdisplaced
      have hstep := congrArg Prod.snd hcreate
      have htable := incidentEvent_table_of_eq (act := act) hstep
      have hframe := incidentEvent_frame_of_eq (act := act) hstep
      have hunit := incidentEvent_unit_of_eq (act := act) hstep
      refine .inr ⟨congrArg Prod.fst hcreate, fun k => ?_, htable, hframe, hunit⟩
      obtain ⟨r, hr⟩ := Option.ne_none_iff_exists'.mp (emptySlot_none_iff.mp hempty k)
      exact ⟨r, hr, displaced_none hdisplaced k r hr⟩

end

/-! ## CREATION_REQUEST (R135) -/

theorem creationRequest_acts {s : State} {z : Fin 8} {q : CreationRequest} {post : State → Prop} (hrunning : s.running = true)
    (hrequest : s.mail.requests[z] = some q) (hpost : post (s.decideRequest z q)) : Acts (.creationRequest z) s post := by
  refine ⟨_, ?_, hpost⟩
  change execCreationRequest z s = _
  unfold execCreationRequest
  rw [internal_acts hrunning (by rw [hrequest]; rfl), hrequest]

/-- The state in which a request of a zone is answered, with the answer in the zone. -/
def State.answerRequest (z : Fin 8) (zone : Zone) (s : State) : State :=
  { s with zones := s.zones.set z zone, mail := { s.mail with requests := s.mail.requests.set z none } }

theorem decideRequest_created {s : State} {z : Fin 8} {q : CreationRequest} {i : Ident} {k : Fin 4}
    (h : (s.incidents.create s.ctx .detected q.position (some z) q.template q.mirror q.evidence).1 = some (i, k)) :
    s.decideRequest z q = (s.answerRequest z (s.zones[z].created i)).incidentEvent fun u =>
      (u.create s.ctx .detected q.position (some z) q.template q.mirror q.evidence).2 := by
  simp only [State.decideRequest, h]
  rfl

theorem decideRequest_full {s : State} {z : Fin 8} {q : CreationRequest}
    (h : (s.incidents.create s.ctx .detected q.position (some z) q.template q.mirror q.evidence).1 = none) :
    s.decideRequest z q = (s.answerRequest z s.zones[z].full).incidentEvent fun u =>
      (u.create s.ctx .detected q.position (some z) q.template q.mirror q.evidence).2 := by
  simp only [State.decideRequest, h]
  rfl

/-- Settles O40: a creation request is answered CREATED with a new record, or FULL with an overflow. -/
theorem creationRequestsAreAnsweredCreatedOrFull : Obligations.CreationRequestsAreAnsweredCreatedOrFull := by
  refine fun z q s hrunning hrequest hlen => creationRequest_acts hrunning hrequest ?_
  have hevent (zone : Zone) := create_event (p := s.answerRequest z zone) (o := .detected) (position := q.position) (zone := some z)
    (template := q.template) (mirror := q.mirror) (evidence := q.evidence) hlen
  obtain ⟨k, hcreate, -⟩ | ⟨hfull, -⟩ := hevent s.zones[z]
  · obtain ⟨k', hcreate', hcreates⟩ | ⟨hfull', -⟩ := hevent (s.zones[z].created (s.answerRequest z s.zones[z]).newIdent)
    · rw [decideRequest_created (s := s) hcreate]
      exact .inl ⟨k', _, hcreates⟩
    · exact nomatch hcreate.symm.trans hfull'
  · obtain ⟨k', hcreate', -⟩ | ⟨-, hoverflows⟩ := hevent s.zones[z].full
    · exact nomatch hfull.symm.trans hcreate'
    · rw [decideRequest_full (s := s) hfull]
      exact .inr hoverflows

end Sys2Proof.Machine

/-! The life of a record (R133, R140 to R144): notices of other spans, the timers and the deficit. -/

namespace Sys2Proof.Machine

/-! ## Looking an identity up -/

theorem find_of_unique {u : IncidentUnit} {k : Fin 4} {r : Incident} (hr : u.slots[k] = some r)
    (hunique : ∀ (j : Fin 4) (q : Incident), u.slots[j] = some q → q.ident = r.ident → j = k) : u.find r.ident = some k := by
  cases hfind : u.find r.ident with
  | none => exact absurd rfl (find_eq_none_iff.mp hfind k r hr)
  | some j =>
    obtain ⟨q, hq, hident⟩ := find_some hfind
    rw [hunique j q hq hident]

/-- The slot and the record of an identity. -/
def IncidentUnit.lookup (u : IncidentUnit) (i : Ident) : Option (Fin 4 × Incident) :=
  (u.find i).bind fun k => u.slots[k].map fun r => (k, r)

theorem lookup_of_unique {u : IncidentUnit} {k : Fin 4} {r : Incident} (hr : u.slots[k] = some r)
    (hunique : ∀ (j : Fin 4) (q : Incident), u.slots[j] = some q → q.ident = r.ident → j = k) :
    u.lookup r.ident = some (k, r) := by
  rw [IncidentUnit.lookup, find_of_unique hr hunique, Option.bind_some, hr, Option.map_some]

theorem lookup_of_absent {u : IncidentUnit} {i : Ident} (h : ∀ (k : Fin 4) (r : Incident), u.slots[k] = some r → r.ident ≠ i) :
    u.lookup i = none := by
  rw [IncidentUnit.lookup, find_eq_none_iff.mpr h, Option.bind_none]

/-! ## A notice (R141 to R144) -/

theorem validSpan_eq_false_iff (b : Byte) : validSpan b = false ↔ b = 0 ∨ b = 255 := by
  have hbyte : ∀ x : Byte, b = x ↔ b.toNat = x.toNat := fun x => BitVec.toNat_inj.symm
  have hlt := b.isLt
  have hmax : (255 : Byte).toNat = 255 := rfl
  have hmin : (0 : Byte).toNat = 0 := rfl
  rw [hbyte, hbyte, hmax, hmin, validSpan, Bool.and_eq_false_iff, decide_eq_false_iff_not, decide_eq_false_iff_not]
  omega

theorem setAside_iff (cfg : ActiveConfig) (n : Notice) : n.setAside cfg = true ↔
    (n.ident.span = cfg.span.spanId ∨ n.ident.span = 0 ∨ n.ident.span = 255 ∨ 1024 ≤ n.position.toNat ∨ 8 ≤ n.template.toNat ∨
      2 ≤ n.mirror.toNat) := by
  have hposition : 1023 < n.position.toNat ↔ 1024 ≤ n.position.toNat := Iff.rfl
  have htemplate : 7 < n.template.toNat ↔ 8 ≤ n.template.toNat := Iff.rfl
  have hmirror : 1 < n.mirror.toNat ↔ 2 ≤ n.mirror.toNat := Iff.rfl
  simp only [Notice.setAside, Bool.or_eq_true, decide_eq_true_eq, Bool.not_eq_true', validSpan_eq_false_iff, or_assoc, hposition,
    htemplate, hmirror]

section
variable {x : Ctx} {n : Notice} {u : IncidentUnit} {k : Fin 4} {r : Incident}

theorem takeNotice_aside (h : n.setAside x.cfg = true) : u.takeNotice x n = .silent u := if_pos h

/-- The step of a notice that finds its record. -/
theorem takeNotice_found (haside : ¬n.setAside x.cfg = true) (hfound : u.lookup n.ident = some (k, r)) : u.takeNotice x n =
    if r.state = .clearing then .silent u
    else if n.state = .clear then u.enterClearing x k r
    else
      let f := r.refreshed x (decide (n.state = .acknowledged))
      if f.state = r.state then .silent (u.put k f) else u.becomes k f [] := by
  unfold IncidentUnit.lookup at hfound
  simp only [IncidentUnit.takeNotice, haside, hfound]
  rfl

theorem takeNotice_absent (haside : ¬n.setAside x.cfg = true) (habsent : u.lookup n.ident = none) : u.takeNotice x n =
    if u.wasCleared n.ident then .silent u
    else if n.state = .clear then .silent (u.joinCleared x n.ident)
    else (u.emptySlot.map fun k => u.becomes k (n.toRecord x) []).getD (.silent u.overflowed) := by
  unfold IncidentUnit.lookup at habsent
  simp only [IncidentUnit.takeNotice, haside, habsent]
  cases u.emptySlot <;> rfl

/-- What a notice that refreshes a record makes of its state. -/
theorem refreshed_eq (acknowledged : Bool) : r.refreshed x acknowledged =
    let f := { r with lastRefresh := x.sec, staleDue := some (x.now + 10000)
                      resumeAcknowledged := r.resumeAcknowledged || acknowledged }
    if r.state = .active ∧ acknowledged = true ∨ r.state = .stale ∧ (acknowledged = true ∨ r.resumeAcknowledged = true) then
      { f with state := .acknowledged, entered := x.sec }
    else if r.state = .stale then { f with state := .active, entered := x.sec }
    else f := by
  unfold Incident.refreshed
  cases hs : r.state <;> cases acknowledged <;> cases hr : r.resumeAcknowledged <;> simp [Config.staleTicks]

theorem takeNotice_changes {f : Incident} (haside : ¬n.setAside x.cfg = true) (hfound : u.lookup n.ident = some (k, r))
    (hclearing : r.state ≠ .clearing) (hclear : n.state ≠ .clear) (hf : r.refreshed x (decide (n.state = .acknowledged)) = f)
    (hchange : f.state ≠ r.state) : u.takeNotice x n = u.becomes k f [] := by
  rw [takeNotice_found haside hfound, if_neg hclearing, if_neg hclear, hf]
  exact if_neg hchange

theorem takeNotice_refreshes {f : Incident} (haside : ¬n.setAside x.cfg = true) (hfound : u.lookup n.ident = some (k, r))
    (hclearing : r.state ≠ .clearing) (hclear : n.state ≠ .clear) (hf : r.refreshed x (decide (n.state = .acknowledged)) = f)
    (hkept : f.state = r.state) : u.takeNotice x n = .silent (u.put k f) := by
  rw [takeNotice_found haside hfound, if_neg hclearing, if_neg hclear, hf]
  exact if_pos hkept

theorem joinCleared_eq (i : Ident) : u.joinCleared x i = { u with cleared :=
    (if u.cleared.length < 8 then u.cleared else u.cleared.tail) ++ [{ ident := i, joined := x.sec, due := x.now + 30000 }] } := rfl

end

/-- A notice of an identity that a record has. -/
theorem notice_found_event {p : State} {n : Notice} {k : Fin 4} {r : Incident} (haside : ¬n.setAside p.active = true)
    (hfound : p.incidents.lookup n.ident = some (k, r)) :
    let a := p.incidentEvent (IncidentUnit.takeNotice p.ctx n)
    let acknowledges := n.state = .acknowledged
    let refreshed : Incident := { r with
      lastRefresh := p.regs.seconds, staleDue := some (p.now + 10000)
      resumeAcknowledged := r.resumeAcknowledged || decide acknowledges }
    let moved (st : IncidentState) : Incident := { refreshed with state := st, entered := p.regs.seconds }
    (r.state = .clearing → IncidentsStay p a) ∧
    (r.state ≠ .clearing → n.state = .clear → EntersClearing p a k r) ∧
    (r.state = .active → acknowledges → RecordBecomes p a k (moved .acknowledged) true []) ∧
    (r.state = .active → n.state = .active → RecordBecomes p a k refreshed false []) ∧
    (r.state = .acknowledged → n.state ≠ .clear → RecordBecomes p a k refreshed false []) ∧
    (r.state = .stale → n.state ≠ .clear → acknowledges ∨ r.resumeAcknowledged = true →
      RecordBecomes p a k (moved .acknowledged) true []) ∧
    (r.state = .stale → n.state = .active → r.resumeAcknowledged = false → RecordBecomes p a k (moved .active) true []) := by
  intro a acknowledges refreshed moved
  have hrefreshed := refreshed_eq (x := p.ctx) (r := r) (decide (n.state = .acknowledged))
  have hchanges (f : Incident) := takeNotice_changes (x := p.ctx) (f := f) haside hfound
  have hrefreshes (f : Incident) := takeNotice_refreshes (x := p.ctx) (f := f) haside hfound
  refine ⟨fun hs => ?_, fun hs hn => ?_, fun hs hn => ?_, fun hs hn => ?_, fun hs hn => ?_, fun hs hn hack => ?_,
    fun hs hn hresume => ?_⟩
  · exact incidentsStay_event ((takeNotice_found haside hfound).trans (if_pos hs))
  · exact enterClearing_event ((takeNotice_found haside hfound).trans ((if_neg hs).trans (if_pos hn)))
  · refine becomes_event (hchanges (moved .acknowledged) ?_ ?_ (hrefreshed.trans (if_pos (.inl ⟨hs, decide_eq_true hn⟩))) ?_)
    · rw [hs]; exact nofun
    · rw [show n.state = .acknowledged from hn]; exact nofun
    · rw [hs]; exact nofun
  · refine put_event (hrefreshes refreshed ?_ ?_ (hrefreshed.trans ?_) rfl)
    · rw [hs]; exact nofun
    · rw [hn]; exact nofun
    · refine (if_neg ?_).trans (if_neg (by rw [hs]; exact nofun))
      rw [hs, hn]
      exact fun h => h.elim (fun h => (nomatch h.2)) fun h => (nomatch h.1)
  · refine put_event (hrefreshes refreshed ?_ hn (hrefreshed.trans ?_) rfl)
    · rw [hs]; exact nofun
    · refine (if_neg ?_).trans (if_neg (by rw [hs]; exact nofun))
      rw [hs]
      exact fun h => h.elim (fun h => (nomatch h.1)) fun h => (nomatch h.1)
  · refine becomes_event (hchanges (moved .acknowledged) ?_ hn (hrefreshed.trans (if_pos (.inr ⟨hs, hack.imp_left decide_eq_true⟩))) ?_)
    · rw [hs]; exact nofun
    · rw [hs]; exact nofun
  · refine becomes_event (hchanges (moved .active) ?_ ?_ (hrefreshed.trans ?_) ?_)
    · rw [hs]; exact nofun
    · rw [hn]; exact nofun
    · refine (if_neg ?_).trans (if_pos hs)
      rw [hs, hn, hresume]
      exact fun h => h.elim (fun h => (nomatch h.1)) fun h => h.2.elim nofun nofun
    · rw [hs]; exact nofun

theorem toRecord_eq (x : Ctx) (n : Notice) : n.toRecord x =
    { ident := n.ident, origin := .notice, state := if n.state = .acknowledged then .acknowledged else .active
      resumeAcknowledged := decide (n.state = .acknowledged), position := n.position.toNat, zone := none
      template := ⟨n.template.toNat % 8, Nat.mod_lt _ (by decide)⟩, mirror := decide (n.mirror = 1)
      start := x.sec - n.age.setWidth 32, lastRefresh := x.sec, evidence := [], deficit := 0
      governing := false, clearLeft := 0, refreshDue := none, staleDue := some (x.now + 10000)
      clearingDue := none, entered := x.sec } := by
  have htemplate : indexField 8 (by decide) (n.template.setWidth 16) = ⟨n.template.toNat % 8, Nat.mod_lt _ (by decide)⟩ := by
    have hlt := n.template.isLt
    simp only [indexField, BitVec.toNat_setWidth]
    congr 1
    omega
  simp only [Notice.toRecord, htemplate, decide_eq_true_eq]
  rfl

/-- A notice of an identity that no record has. -/
theorem notice_absent_event {p : State} {n : Notice} (haside : ¬n.setAside p.active = true)
    (habsent : ∀ (k : Fin 4) (r : Incident), p.incidents.slots[k] = some r → r.ident ≠ n.ident) :
    let a := p.incidentEvent (IncidentUnit.takeNotice p.ctx n)
    let u := p.incidents
    ((∃ e ∈ u.cleared, e.ident = n.ident) → IncidentsStay p a) ∧
    (u.Unknown n.ident → n.state = .clear →
      TableIs a.incidents u.slots ∧ JoinsCleared p a n.ident ∧ IncidentEventFrame p a [] [] false [] ∧
      a.incidents = { u with slots := a.incidents.slots, cleared := a.incidents.cleared }) ∧
    (u.Unknown n.ident → n.state ≠ .clear → (∀ k : Fin 4, u.slots[k] ≠ none) →
      TableIs a.incidents u.slots ∧ IncidentEventFrame p a [] [] false [] ∧
      a.incidents = { u with slots := a.incidents.slots, overflow := true, overflowCount := satSucc u.overflowCount }) ∧
    (∀ k : Fin 4, u.Unknown n.ident → n.state ≠ .clear → LowestEmpty u k → RecordBecomes p a k (n.toRecord p.ctx) true []) := by
  intro a u
  let act := IncidentUnit.takeNotice p.ctx n
  have hstep := takeNotice_absent (x := p.ctx) haside (lookup_of_absent habsent)
  have hnew (h : u.Unknown n.ident) : ¬u.wasCleared n.ident = true := by
    rw [(unknown_iff.mp h).2]
    exact nofun
  refine ⟨fun ⟨e, he, hident⟩ => ?_, fun hu hn => ?_, fun hu hn hfull => ?_, fun k hu hn hempty => ?_⟩
  · have hcleared : p.incidents.wasCleared n.ident = true := by
      rw [← Bool.not_eq_false, wasCleared_eq_false_iff]
      exact fun h => h e he hident
    exact incidentsStay_event (hstep.trans (if_pos hcleared))
  · have hjoins : act p.incidents = .silent (p.incidents.joinCleared p.ctx n.ident) :=
      hstep.trans ((if_neg (hnew hu)).trans (if_pos hn))
    have hunit := incidentEvent_unit_of_eq hjoins
    have hcleared : a.incidents.cleared = (p.incidents.joinCleared p.ctx n.ident).cleared := by
      rw [show a.incidents = _ from hunit]
      rfl
    refine ⟨incidentEvent_table_of_eq hjoins, ?_, incidentEvent_frame_of_eq hjoins, ?_⟩
    · rw [joinCleared_eq] at hcleared
      refine ⟨fun hroom => ?_, fun hfull => ?_⟩
      · rwa [if_pos hroom] at hcleared
      · rwa [if_neg (Nat.not_lt.mpr hfull)] at hcleared
    · rw [hcleared]
      exact hunit
  · have hover : act p.incidents = .silent p.incidents.overflowed := by
      refine hstep.trans ((if_neg (hnew hu)).trans ((if_neg hn).trans ?_))
      rw [emptySlot_none_iff.mpr hfull]
      rfl
    exact ⟨incidentEvent_table_of_eq hover, incidentEvent_frame_of_eq hover, incidentEvent_unit_of_eq hover⟩
  · refine becomes_event (hstep.trans ((if_neg (hnew hu)).trans ((if_neg hn).trans ?_)))
    rw [emptySlot_of_lowest hempty]
    rfl

theorem notice_acts {s : State} {n : Notice} {rest : List Notice} {post : State → Prop} (hrunning : s.running = true)
    (hmail : s.mail.notices = n :: rest)
    (hpost : post (State.incidentEvent (IncidentUnit.takeNotice s.ctx n) { s with mail := { s.mail with notices := rest } })) :
    Acts .notice s post := by
  refine ⟨_, ?_, hpost⟩
  change execNotice s = _
  unfold execNotice
  rw [internal_acts hrunning (by rw [hmail]; rfl), hmail]

/-- Settles O42: what a notice of another span makes of the table. -/
theorem noticesAreTakenByTheTable : Obligations.NoticesAreTakenByTheTable := by
  refine fun n rest s hrunning hmail => notice_acts hrunning hmail ?_
  dsimp only
  rw [← setAside_iff]
  refine ⟨fun haside => incidentsStay_event (takeNotice_aside haside), fun haside => ⟨fun k r hr hident hunique => ?_,
    fun habsent => ?_⟩⟩
  · have hfound := lookup_of_unique hr (by rw [hident]; exact hunique)
    rw [hident] at hfound
    exact notice_found_event (p := { s with mail := { s.mail with notices := rest } }) haside hfound
  · obtain ⟨hcleared, hjoins, hover, htakes⟩ :=
      notice_absent_event (p := { s with mail := { s.mail with notices := rest } }) haside habsent
    rw [toRecord_eq] at htakes
    exact ⟨hcleared, hjoins, hover, htakes⟩

/-! ## The timers (R133, R142, R144) -/

section
variable {s : State} {k : Fin 4} {r : Incident} {due : Nat}

theorem slotTimer_acts {c : Instr} {timer : Incident → Option Nat} {act : Ctx → Incident → IncidentUnit → IncidentStep}
    {post : State → Prop} (hrunning : s.running = true) (hr : s.incidents.slots[k] = some r) (htimer : timer r = some due)
    (hnow : due ≤ s.now) (hexec : exec c s = internal s (s.slotDue k timer) fun s => s.slotEvent k (act s.ctx))
    (hpost : post (s.incidentEvent (act s.ctx r))) : Acts c s post := by
  have hdue : s.slotDue k timer = true := by
    simp only [State.slotDue, hr, htimer, expired_some, decide_eq_true hnow]
  refine ⟨_, ?_, hpost⟩
  rw [hexec, internal_acts hrunning hdue]
  simp only [State.slotEvent, hr]

theorem refreshTimer_event : RecordBecomes s
    (s.incidentEvent fun u => { IncidentStep.silent (u.put k (r.sent s.ctx)) with notices := [r.notice s.ctx r.noticeState] }) k
    { r with lastRefresh := s.regs.seconds, refreshDue := some (s.now + 2000) } false
    [r.Sends s (if r.state = .acknowledged then .acknowledged else .active)] := by
  rw [← notice_sends]
  exact put_event rfl

theorem clearingTimer_sends (hleft : 0 < r.clearLeft) : RecordBecomes s
    (s.incidentEvent fun u => u.clearingExpired s.ctx k r) k
    { r with clearLeft := r.clearLeft - 1, lastRefresh := s.regs.seconds, clearingDue := some (s.now + 2000) } false
    [r.Sends s .clear] := by
  rw [← notice_sends]
  exact put_event (if_pos hleft)

theorem clearingTimer_releases (hleft : r.clearLeft = 0) :
    let a := s.incidentEvent fun u => u.clearingExpired s.ctx k r
    TableIs a.incidents (s.incidents.slots.set k none) ∧ JoinsCleared s a r.ident ∧
      a.incidents = { s.incidents with slots := a.incidents.slots, cleared := a.incidents.cleared, overflow := false } ∧
      IncidentEventFrame s a [{ ident := r.ident, position := r.position, state := none }] [r.ident] true [] := by
  intro a
  let act (u : IncidentUnit) : IncidentStep := u.clearingExpired s.ctx k r
  have hstep : act s.incidents = s.incidents.release s.ctx k r := if_neg (by omega)
  have hunit := incidentEvent_unit_of_eq (act := act) hstep
  have hcleared : a.incidents.cleared = (if s.incidents.cleared.length < 8 then s.incidents.cleared else s.incidents.cleared.tail) ++
      [{ ident := r.ident, joined := s.regs.seconds, due := s.now + 30000 }] := by
    rw [show a.incidents = _ from hunit]
    rfl
  refine ⟨incidentEvent_table_of_eq (act := act) hstep, ⟨fun hroom => ?_, fun hfull => ?_⟩, ?_,
    incidentEvent_frame_of_eq (act := act) hstep⟩
  · rwa [if_pos hroom] at hcleared
  · rwa [if_neg (Nat.not_lt.mpr hfull)] at hcleared
  · rw [hcleared]
    exact hunit

end

/-! ## The cleared-identity list and the deficit (R133, R140) -/

theorem clearedEntryExpiry_acts {s : State} {e : ClearedEntry} {rest : List ClearedEntry} (hrunning : s.running = true)
    (hcleared : s.incidents.cleared = e :: rest) (hnow : e.due ≤ s.now) :
    Acts .clearedEntryExpiry s fun a => a = { s with incidents := { s.incidents with cleared := rest } } := by
  have hdue : s.clearedDue = true := by
    simp only [State.clearedDue, hcleared, List.head?_cons, Option.map_some, expired_some, decide_eq_true hnow]
  refine ⟨{ s with incidents := { s.incidents with cleared := s.incidents.cleared.tail } }, ?_, ?_⟩
  · change execClearedEntryExpiry s = _
    exact internal_acts hrunning hdue
  · rw [hcleared]
    rfl

theorem clearedEntryExpiry_waits {s : State} {e : ClearedEntry} {rest : List ClearedEntry}
    (hcleared : s.incidents.cleared = e :: rest) (hnow : s.now < e.due) : exec .clearedEntryExpiry s = .next s := by
  change execClearedEntryExpiry s = _
  refine internal_idle ?_
  simp only [State.clearedDue, hcleared, List.head?_cons, Option.map_some, expired_some, decide_eq_false (Nat.not_le.mpr hnow),
    Bool.and_false]

theorem writeDeficit_slot (d : Nat) (u : IncidentUnit) (k : Fin 4) : (u.writeDeficit d).slots[k] =
    u.slots[k].map fun r => if r.governing then { r with deficit := d } else r := by
  have hk (g : Fin 4 → Option Incident) : (Vector.ofFn g)[k] = g k := Vector.getElem_ofFn _
  unfold IncidentUnit.writeDeficit
  simp only
  rw [hk]

theorem deficitDelivery_acts {s : State} {d : Nat} {rest : List Nat} {post : State → Prop} (hrunning : s.running = true)
    (hmail : s.mail.deficits = d :: rest)
    (hpost : post { s with incidents := s.incidents.writeDeficit d, mail := { s.mail with deficits := rest } }) :
    Acts .deficitDelivery s post := by
  refine ⟨_, ?_, hpost⟩
  change execDeficitDelivery s = _
  unfold execDeficitDelivery
  rw [internal_acts hrunning (by rw [hmail]; rfl), hmail]

/-- Settles O43: what the timers of a record, of a cleared identity and a delivered deficit make of the table. -/
theorem incidentTimersExpireAndDeficitsAreWritten : Obligations.IncidentTimersExpireAndDeficitsAreWritten := by
  refine ⟨fun k r due s hrunning hr => ⟨fun htimer hnow => ?_, fun htimer hnow => ?_, fun htimer hnow hleft => ?_,
    fun htimer hnow hleft => ?_⟩, fun e rest s hrunning hcleared => ⟨clearedEntryExpiry_acts hrunning hcleared,
      clearedEntryExpiry_waits hcleared⟩, fun d rest s hrunning hmail => deficitDelivery_acts hrunning hmail ⟨fun k => ?_, rfl⟩⟩
  · exact slotTimer_acts (act := fun x r u =>
      { IncidentStep.silent (u.put k (r.sent x)) with notices := [r.notice x r.noticeState] }) hrunning hr htimer hnow rfl
      refreshTimer_event
  · exact slotTimer_acts (act := fun x r u => u.becomes k (r.becomesStale x) []) hrunning hr htimer hnow rfl (becomes_event rfl)
  · exact slotTimer_acts (act := fun x r u => u.clearingExpired x k r) hrunning hr htimer hnow rfl (clearingTimer_sends hleft)
  · exact slotTimer_acts (act := fun x r u => u.clearingExpired x k r) hrunning hr htimer hnow rfl (clearingTimer_releases hleft)
  · dsimp only
    rw [writeDeficit_slot]
    exact ⟨fun hnone => by rw [hnone]; rfl, fun r hr => by rw [hr]; rfl⟩

end Sys2Proof.Machine

/-! The incident cards: ACKNOWLEDGE and CLEAR (R141, R143) and DECLARE (R136). -/

namespace Sys2Proof.Machine

/-- An answer of the executor and an event of the incident unit do not touch each other. -/
theorem incidentEvent_reply (s : State) (act : IncidentUnit → IncidentStep) (t : Take) (r : Answer) :
    (s.incidentEvent act).reply t r = (s.reply t r).incidentEvent act := rfl

/-! ## The record that a card names -/

section
variable {s : State} {t : Take} {act : Fin 4 → Incident → Take → State → State}

theorem onIncident_badTarget (h : (Ident.ofWord t.card.target).span = 0 ∨ (Ident.ofWord t.card.target).span = 255) :
    State.onIncident act t s = s.reply t (.refuse .badTarget) := by
  unfold State.onIncident
  simp only [(validSpan_eq_false_iff _).mpr h]
  rfl

theorem onIncident_valid (h0 : (Ident.ofWord t.card.target).span ≠ 0) (h255 : (Ident.ofWord t.card.target).span ≠ 255) :
    validSpan (Ident.ofWord t.card.target).span = true := by
  rw [← Bool.not_eq_false, validSpan_eq_false_iff]
  exact fun h => h.elim h0 h255

theorem onIncident_unknown (h0 : (Ident.ofWord t.card.target).span ≠ 0) (h255 : (Ident.ofWord t.card.target).span ≠ 255)
    (habsent : ∀ (k : Fin 4) (r : Incident), s.incidents.slots[k] = some r → r.ident ≠ Ident.ofWord t.card.target) :
    State.onIncident act t s = s.reply t (.refuse .unknownId) := by
  have hlookup := lookup_of_absent habsent
  unfold IncidentUnit.lookup at hlookup
  simp only [State.onIncident, onIncident_valid h0 h255, hlookup]
  rfl

theorem onIncident_found {k : Fin 4} {r : Incident} (h0 : (Ident.ofWord t.card.target).span ≠ 0)
    (h255 : (Ident.ofWord t.card.target).span ≠ 255) (hfound : s.incidents.lookup (Ident.ofWord t.card.target) = some (k, r)) :
    State.onIncident act t s = act k r t s := by
  unfold IncidentUnit.lookup at hfound
  simp only [State.onIncident, onIncident_valid h0 h255, hfound]
  rfl

end

/-! ## ACKNOWLEDGE and CLEAR -/

section
variable {p : State} {k : Fin 4} {r : Incident}

theorem acknowledge_event (p : State) (k : Fin 4) (r : Incident) :
    let a := p.incidentEvent (IncidentUnit.acknowledge p.ctx k r)
    let acked : Incident := { r with state := .acknowledged, resumeAcknowledged := true, entered := p.regs.seconds }
    (r.state ≠ .active → IncidentsStay p a) ∧
    (r.state = .active → r.origin = .notice → RecordBecomes p a k acked true []) ∧
    (r.state = .active → r.origin ≠ .notice → RecordBecomes p a k
      { acked with lastRefresh := p.regs.seconds, refreshDue := some (p.now + 2000) } true [r.Sends p .acknowledged]) := by
  intro a acked
  let act := IncidentUnit.acknowledge p.ctx k r
  refine ⟨fun hs => ?_, fun hs ho => ?_, fun hs ho => ?_⟩
  · exact incidentsStay_event (if_neg hs)
  · have hstep : act p.incidents = p.incidents.becomes k acked [] := (if_pos hs).trans (if_pos ho)
    exact becomes_event hstep
  · have hstep : act p.incidents = p.incidents.becomes k (acked.sent p.ctx) [acked.notice p.ctx .acknowledged] :=
      (if_pos hs).trans (if_neg ho)
    rw [notice_sends] at hstep
    exact becomes_event hstep

theorem clearIncident_of_clearing {t : Take} {s : State} (h : r.state = .clearing) :
    s.clearIncident k r t = s.reply t (.plain .done (wordNat r.state.code) (wordNat k.val)) :=
  congrArg (State.reply t (.plain .done (wordNat r.state.code) (wordNat k.val))) (if_pos h)

theorem clearIncident_of_not_clearing {t : Take} {s : State} (h : r.state ≠ .clearing) : s.clearIncident k r t =
    (s.reply t (.plain .done (wordNat r.state.code) (wordNat k.val))).incidentEvent (IncidentUnit.enterClearing s.ctx k r) :=
  congrArg (State.reply t (.plain .done (wordNat r.state.code) (wordNat k.val))) (if_neg h)

end

/-- Settles O44: ACKNOWLEDGE and CLEAR act on the record of the identity that they name. -/
theorem acknowledgeAndClearActOnTheRecord : Obligations.AcknowledgeAndClearActOnTheRecord := by
  refine fun t s => ⟨fun c kind hc h => ?_, fun k r h0 h255 hr hident hunique => ?_⟩
  · rcases hc with ⟨rfl, rfl⟩ | ⟨rfl, rfl⟩
    · exact ⟨fun hspan => answersAlone_of_reply h rfl (onIncident_badTarget hspan),
        fun h0 h255 habsent => answersAlone_of_reply h rfl (onIncident_unknown h0 h255 habsent)⟩
    · exact ⟨fun hspan => answersAlone_of_reply h rfl (onIncident_badTarget hspan),
        fun h0 h255 habsent => answersAlone_of_reply h rfl (onIncident_unknown h0 h255 habsent)⟩
  have hfound : s.incidents.lookup (Ident.ofWord t.card.target) = some (k, r) := by
    rw [show Ident.ofWord t.card.target = r.ident from hident.symm]
    exact lookup_of_unique hr (by rw [hident]; exact hunique)
  refine ⟨fun h => acts_dispatched h rfl ?_, fun h => acts_dispatched h rfl ?_⟩
  · rw [onIncident_found h0 h255 hfound, State.acknowledge, incidentEvent_reply]
    have hevent := acknowledge_event (s.reply t
      (.plain .done (wordNat (if r.state = .active then .acknowledged else r.state : IncidentState).code) (wordNat k.val))) k r
    exact ⟨rfl, hevent⟩
  · rw [onIncident_found h0 h255 hfound]
    by_cases hs : r.state = .clearing
    · rw [clearIncident_of_clearing hs]
      exact ⟨rfl, fun _ => rfl, fun hne => absurd hs hne⟩
    · rw [clearIncident_of_not_clearing hs]
      exact ⟨rfl, fun hs' => absurd hs' hs, fun _ => enterClearing_event rfl⟩

/-! ## DECLARE -/

section
variable {s : State} {t : Take}

/-- What DECLARE does with a dispatched card. -/
def State.declareCard (t : Take) (s : State) : State :=
  match declareTarget t.card.target with
  | none => s.reply t (.refuse .badTarget)
  | some zone => s.declareOn zone t

theorem exec_declare (h : s.dispatched t .declare)
    (hfree : ∀ z, targetIndex 8 t.card.target = some z → s.mail.requests[z] = none) :
    exec .declareCard s = .next (publish s (s.declareCard t)) := by
  obtain ⟨hrunning, hexecutor, hanswer, hkind⟩ := h
  have hwaiting : s.cardWaiting .declare = true := cardWaiting_iff.mpr ⟨t, hexecutor, hanswer, hkind⟩
  have hdeclareFree : s.declareFree = true := by
    simp only [State.declareFree, hexecutor, Option.bind_some]
    split
    · rfl
    next z hz => rw [State.zoneFree, hfree z hz]; rfl
  change execDeclareCard s = _
  unfold execDeclareCard
  rw [internal_acts hrunning (by rw [hwaiting, hdeclareFree]; rfl), dispatch_some _ hexecutor]
  rfl

theorem declare_answersAlone {a : Answer} (h : s.dispatched t .declare)
    (hfree : ∀ z, targetIndex 8 t.card.target = some z → s.mail.requests[z] = none) (hcard : s.declareCard t = s.reply t a) :
    AnswersAlone .declareCard s t a := by
  unfold AnswersAlone
  rw [exec_declare h hfree, hcard, publish_reply]
  rfl

theorem indexField_ofNat (i : Fin 8) : indexField 8 (by decide) (BitVec.ofNat 16 i.val) = i := by
  revert i
  decide

theorem toNat_ofNat_lt (i : Fin 8) : (BitVec.ofNat 16 i.val).toNat < 8 := by
  revert i
  decide

theorem declareTarget_ofNat {w : Word} {z : Fin 8} (h : w = BitVec.ofNat 16 z.val) : declareTarget w = some (some z) := by
  have hne : w ≠ 255 := by
    rintro h255
    have hrange := toNat_ofNat_lt z
    rw [← h, h255] at hrange
    exact absurd hrange (by decide)
  rw [declareTarget, if_neg hne, h, targetIndex_ofNat z (by decide)]
  rfl

theorem declareTarget_bad {w : Word} (hrange : 8 ≤ w.toNat) (hne : w ≠ 255) : declareTarget w = none := by
  rw [declareTarget, if_neg hne, targetIndex_of_le hrange]
  rfl

theorem declareCard_on {zone : Option (Fin 8)} (h : declareTarget t.card.target = some zone) :
    s.declareCard t = s.declareOn zone t := by
  unfold State.declareCard
  rw [h]

theorem declareCard_bad (h : declareTarget t.card.target = none) : s.declareCard t = s.reply t (.refuse .badTarget) := by
  unfold State.declareCard
  rw [h]

/-! What the arguments of the card decide. -/

theorem declareOn_zone_eq (z : Fin 8) : s.declareOn (some z) t =
    if 7 < t.card.a1.toNat ∨ 1 < t.card.a2.toNat ∨ 1023 < 0 then s.reply t (.refuse .badArgument)
    else if s.zones[z].state = .triggered then s.reply t
      { outcome := .refused, reason := .busy, results := .words (identWord s.zones[z].ident) 0 0 0, condition := none }
    else s.declare (some z) t := by
  unfold State.declareOn
  by_cases hz : s.zones[z].state = .triggered
  · simp only [Option.map_some, Option.filter_some_pos (p := fun z : Zone => decide (z.state = .triggered)) (decide_eq_true hz), hz,
      if_true]
  · simp only [Option.map_some, Option.filter_some_neg (p := fun z : Zone => decide (z.state = .triggered))
      (decide_eq_false hz), if_neg hz]

theorem declareOn_position_eq : s.declareOn none t =
    if 7 < t.card.a1.toNat ∨ 1 < t.card.a2.toNat ∨ 1023 < t.card.a0.toNat then s.reply t (.refuse .badArgument)
    else s.declare none t := rfl

theorem declareOn_zone_badArgument {z : Fin 8} (h : 8 ≤ t.card.a1.toNat ∨ 2 ≤ t.card.a2.toNat) :
    s.declareOn (some z) t = s.reply t (.refuse .badArgument) := by
  rw [declareOn_zone_eq, if_pos (by omega)]

theorem declareOn_position_badArgument (h : 8 ≤ t.card.a1.toNat ∨ 2 ≤ t.card.a2.toNat ∨ 1024 ≤ t.card.a0.toNat) :
    s.declareOn none t = s.reply t (.refuse .badArgument) := by
  rw [declareOn_position_eq, if_pos (by omega)]

theorem declareOn_busy {z : Fin 8} (h1 : t.card.a1.toNat < 8) (h2 : t.card.a2.toNat ≤ 1) (hz : s.zones[z].state = .triggered) :
    s.declareOn (some z) t = s.reply t
      { outcome := .refused, reason := .busy, results := .words (identWord s.zones[z].ident) 0 0 0, condition := none } := by
  rw [declareOn_zone_eq, if_neg (by omega), if_pos hz]

theorem declareOn_zone {z : Fin 8} (h1 : t.card.a1.toNat < 8) (h2 : t.card.a2.toNat ≤ 1) (hz : s.zones[z].state ≠ .triggered) :
    s.declareOn (some z) t = s.declare (some z) t := by
  rw [declareOn_zone_eq, if_neg (by omega), if_neg hz]

theorem declareOn_position (h1 : t.card.a1.toNat < 8) (h2 : t.card.a2.toNat ≤ 1) (h0 : t.card.a0.toNat ≤ 1023) :
    s.declareOn none t = s.declare none t := by
  rw [declareOn_position_eq, if_neg (by omega)]

/-! The record that the card creates. -/

/-- The place that the card declares: that of the zone, or its own. -/
def State.declarePosition (zone : Option (Fin 8)) (t : Take) (s : State) : Nat :=
  (zone.map s.active.zonePosition).getD t.card.a0.toNat

/-- The creation that the card asks for. -/
def State.declareStep (zone : Option (Fin 8)) (t : Take) (s : State) (u : IncidentUnit) : Option (Ident × Fin 4) × IncidentStep :=
  u.create s.ctx .declared (s.declarePosition zone t) zone (indexField 8 (by decide) t.card.a1) (t.card.a2 == 1) []

theorem declare_full {zone : Option (Fin 8)} (h : (s.declareStep zone t s.incidents).1 = none) :
    s.declare zone t = State.incidentEvent (fun u => (s.declareStep zone t u).2)
      (s.reply t { outcome := .refused, reason := .tableFull, results := .words identNone 0 0 0, condition := none }) := by
  unfold State.declareStep State.declarePosition at h ⊢
  cases zone <;> simp only [Option.map_none, Option.map_some, Option.getD_none, Option.getD_some] at h ⊢ <;>
    simp only [State.declare, h] <;> rfl

theorem declare_position_created {i : Ident} {k : Fin 4} (h : (s.declareStep none t s.incidents).1 = some (i, k)) :
    s.declare none t = State.incidentEvent (fun u => (s.declareStep none t u).2)
      (s.reply t (.plain .done i.word (wordNat k.val))) := by
  unfold State.declareStep State.declarePosition at h ⊢
  simp only [Option.map_none, Option.getD_none] at h ⊢
  simp only [State.declare, h]
  rfl

theorem declare_zone_created {z : Fin 8} {i : Ident} {k : Fin 4} (h : (s.declareStep (some z) t s.incidents).1 = some (i, k)) :
    s.declare (some z) t = State.incidentEvent (fun u => (s.declareStep (some z) t u).2)
      { s.reply t (.plain .done i.word (wordNat k.val)) with zones := s.zones.set z (s.zones[z].created i) } := by
  unfold State.declareStep State.declarePosition at h ⊢
  simp only [Option.map_some, Option.getD_some] at h ⊢
  simp only [State.declare, h]
  rfl

/-- What comes of the creation that the card asks for, in a state with the table of `s`. -/
theorem declare_event {p : State} {zone : Option (Fin 8)} {template : Fin 8} (hlen : s.incidents.cleared.length ≤ 8)
    (htemplate : t.card.a1 = BitVec.ofNat 16 template.val) (hp : p.incidents = s.incidents) (hctx : p.ctx = s.ctx) :
    let a := p.incidentEvent fun u => (s.declareStep zone t u).2
    (∃ k, (s.declareStep zone t s.incidents).1 = some (p.newIdent, k) ∧
      Creates p a .declared (s.declarePosition zone t) zone template (t.card.a2 == 1) [] k p.newIdent) ∨
    ((s.declareStep zone t s.incidents).1 = none ∧ Overflows p a) := by
  have hindex : indexField 8 (by decide) t.card.a1 = template := by
    rw [htemplate, indexField_ofNat]
  have hevent := create_event (p := p) (o := .declared) (position := s.declarePosition zone t) (zone := zone)
    (template := template) (mirror := t.card.a2 == 1) (evidence := []) (by rw [hp]; exact hlen)
  unfold State.declareStep
  rw [hindex, ← hctx, ← hp]
  exact hevent

end

theorem declare_acts {s : State} {t : Take} {post : State → Prop} (h : s.dispatched t .declare)
    (hfree : ∀ z, targetIndex 8 t.card.target = some z → s.mail.requests[z] = none) (hpost : post (s.declareCard t)) :
    Acts .declareCard s post := ⟨_, exec_declare h hfree, hpost⟩

theorem declare_zone_event {s : State} {t : Take} {z template : Fin 8} (hlen : s.incidents.cleared.length ≤ 8)
    (htemplate : t.card.a1 = BitVec.ofNat 16 template.val) :
    let a := s.declare (some z) t
    let full : Answer := { outcome := .refused, reason := .tableFull, results := .words 0xFFFF 0 0 0, condition := none }
    (∃ k i, DoneWith a t i.word (BitVec.ofNat 16 k.val) ∧
      Creates { s with executor := a.executor, zones := s.zones.set z { s.zones[z] with
        state := .triggered, confirm := none, ident := some i } } a .declared
        (s.active.span.firstNiche + s.active.zones[z].centre) (some z) template (t.card.a2 == 1) [] k i) ∨
    (a.executor = some { t with answer := some full } ∧ Overflows { s with executor := a.executor } a) := by
  obtain ⟨k, hcreate, -⟩ | ⟨hfull, -⟩ := declare_event (p := s) (zone := some z) hlen htemplate rfl rfl
  · obtain ⟨k', hcreate', hcreates⟩ | ⟨hfull, -⟩ := declare_event (s := s) (zone := some z)
      (p := { s.reply t (.plain .done s.newIdent.word (wordNat k.val)) with zones := s.zones.set z (s.zones[z].created s.newIdent) })
      hlen htemplate rfl rfl
    · obtain ⟨-, rfl⟩ := Prod.mk.inj (Option.some.inj (hcreate'.symm.trans hcreate))
      rw [declare_zone_created hcreate]
      exact .inl ⟨k', s.newIdent, rfl, hcreates⟩
    · exact nomatch hcreate.symm.trans hfull
  · obtain ⟨k, hcreate, -⟩ | ⟨-, hoverflows⟩ := declare_event (s := s) (zone := some z)
      (p := s.reply t { outcome := .refused, reason := .tableFull, results := .words identNone 0 0 0, condition := none })
      hlen htemplate rfl rfl
    · exact nomatch hfull.symm.trans hcreate
    · rw [declare_full hfull]
      exact .inr ⟨rfl, hoverflows⟩

theorem declare_position_event {s : State} {t : Take} {template : Fin 8} (hlen : s.incidents.cleared.length ≤ 8)
    (htemplate : t.card.a1 = BitVec.ofNat 16 template.val) :
    let a := s.declare none t
    let full : Answer := { outcome := .refused, reason := .tableFull, results := .words 0xFFFF 0 0 0, condition := none }
    (∃ k i, DoneWith a t i.word (BitVec.ofNat 16 k.val) ∧
      Creates { s with executor := a.executor } a .declared t.card.a0.toNat none template (t.card.a2 == 1) [] k i) ∨
    (a.executor = some { t with answer := some full } ∧ Overflows { s with executor := a.executor } a) := by
  obtain ⟨k, hcreate, -⟩ | ⟨hfull, -⟩ := declare_event (p := s) (zone := none) hlen htemplate rfl rfl
  · obtain ⟨k', hcreate', hcreates⟩ | ⟨hfull, -⟩ := declare_event (s := s) (zone := none)
      (p := s.reply t (.plain .done s.newIdent.word (wordNat k.val))) hlen htemplate rfl rfl
    · obtain ⟨-, rfl⟩ := Prod.mk.inj (Option.some.inj (hcreate'.symm.trans hcreate))
      rw [declare_position_created hcreate]
      exact .inl ⟨k', s.newIdent, rfl, hcreates⟩
    · exact nomatch hcreate.symm.trans hfull
  · obtain ⟨k, hcreate, -⟩ | ⟨-, hoverflows⟩ := declare_event (s := s) (zone := none)
      (p := s.reply t { outcome := .refused, reason := .tableFull, results := .words identNone 0 0 0, condition := none })
      hlen htemplate rfl rfl
    · exact nomatch hfull.symm.trans hcreate
    · rw [declare_full hfull]
      exact .inr ⟨rfl, hoverflows⟩

/-- Settles O41: DECLARE creates an incident in a zone or at a place, or says why it does not. -/
theorem declareCreatesAnIncident : Obligations.DeclareCreatesAnIncident := by
  refine fun t s h hlen => ⟨fun hrange hne => ?_, fun z htarget hnone => ?_, fun htarget => ?_⟩
  · refine declare_answersAlone h (fun z hz => ?_) (declareCard_bad (declareTarget_bad hrange hne))
    rw [targetIndex_of_le hrange] at hz
    exact nomatch hz
  · have hfree : ∀ z', targetIndex 8 t.card.target = some z' → s.mail.requests[z'] = none := fun z' hz' => by
      rw [htarget, targetIndex_ofNat z (by decide)] at hz'
      rw [← Option.some.inj hz']
      exact hnone
    have hcard := declareCard_on (s := s) (declareTarget_ofNat htarget)
    refine ⟨fun hargs => declare_answersAlone h hfree (hcard.trans (declareOn_zone_badArgument hargs)),
      fun template htemplate ha2 => ?_⟩
    have ha1 : t.card.a1.toNat < 8 := by
      rw [htemplate]
      exact toNat_ofNat_lt template
    refine ⟨fun hz => declare_answersAlone h hfree (hcard.trans (declareOn_busy ha1 ha2 hz)),
      fun hz => declare_acts h hfree ?_⟩
    rw [hcard, declareOn_zone ha1 ha2 hz]
    exact declare_zone_event hlen htemplate
  · have hfree : ∀ z', targetIndex 8 t.card.target = some z' → s.mail.requests[z'] = none := fun z' hz' => by
      rw [htarget, targetIndex_of_le (by decide)] at hz'
      exact nomatch hz'
    have hcard := declareCard_on (s := s) (t := t) (zone := none) (by rw [htarget]; rfl)
    refine ⟨fun hargs => declare_answersAlone h hfree (hcard.trans (declareOn_position_badArgument hargs)),
      fun template htemplate ha2 ha0 => declare_acts h hfree ?_⟩
    have ha1 : t.card.a1.toNat < 8 := by
      rw [htemplate]
      exact toNat_ofNat_lt template
    rw [hcard, declareOn_position ha1 ha2 ha0]
    exact declare_position_event hlen htemplate

end Sys2Proof.Machine

/-! The stages of a placement (R153 to R156): the candidate of a fan, the order of the unmet fans and the choice of a substitute. -/

namespace Sys2Proof.Machine

/-! ## The candidate of a fan (R153, R154) -/

theorem gives_iff {e : TemplateEntry} {mirror : Bool} {a : Option PlacedAction} : e.Gives mirror a ↔ a = e.placed mirror := by
  unfold TemplateEntry.Gives TemplateEntry.placed
  cases e.action <;> simp

theorem inCandidateRange_iff {cfg : ActiveConfig} {g : Governing} {f : Fin 8} :
    InCandidateRange cfg g f ↔ cfg.fans[f].role = .jet ∧ inRange cfg g.position (fanNiche cfg f) = true := by
  simp only [InCandidateRange, Within, inRange, Bool.and_eq_true, decide_eq_true_eq]
  refine and_congr_right fun _ => ⟨fun ⟨⟨h1, h2⟩, h3⟩ => ⟨⟨⟨h2, h1⟩, Nat.le_add_right _ _⟩, h3⟩, fun ⟨⟨⟨h2, h1⟩, _⟩, h3⟩ => ⟨⟨h1, h2⟩, h3⟩⟩

theorem fanOffset_of_inRange {cfg : ActiveConfig} {g : Governing} {f : Fin 8} (h : InCandidateRange cfg g f) :
    -7 ≤ fanOffset cfg g f ∧ fanOffset cfg g f ≤ 7 := by
  obtain ⟨-, ⟨h1, h2⟩, -⟩ := h
  unfold fanOffset fanNiche
  omega

theorem entryAt_eq {t : TemplateItem} {mirror : Bool} {d : Int} {j : Fin 15}
    (hj : (j.val : Int) = if mirror then 7 - d else 7 + d) : t.entryAt mirror d = t.entries[j] := by
  have hindex : (⟨(if mirror then 7 - d else 7 + d).toNat % 15, Nat.mod_lt _ (by decide)⟩ : Fin 15) = j := by
    apply Fin.ext
    show (if mirror then 7 - d else 7 + d).toNat % 15 = j.val
    have := j.isLt
    omega
  exact congrArg (fun i : Fin 15 => t.entries[i]) hindex

theorem exists_entry {mirror : Bool} {d : Int} (hd : -7 ≤ d ∧ d ≤ 7) :
    ∃ j : Fin 15, (j.val : Int) = if mirror then 7 - d else 7 + d := by
  cases mirror
  · exact ⟨⟨(7 + d).toNat, by omega⟩, Int.toNat_of_nonneg (by omega)⟩
  · exact ⟨⟨(7 - d).toNat, by omega⟩, Int.toNat_of_nonneg (by omega)⟩

theorem candidateIs_iff {cfg : ActiveConfig} {g : Governing} {f : Fin 8} {a : Option PlacedAction} :
    CandidateIs cfg g f a ↔ a = candidate cfg g f := by
  by_cases hr : InCandidateRange cfg g f
  · have hd := fanOffset_of_inRange hr
    have hcandidate : candidate cfg g f = (cfg.templates[g.template].entryAt g.mirror (fanOffset cfg g f)).placed g.mirror :=
      if_pos (inCandidateRange_iff.mp hr)
    rw [hcandidate]
    constructor
    · rintro ⟨-, hin⟩
      obtain ⟨j, hj⟩ := exists_entry (mirror := g.mirror) hd
      rw [entryAt_eq hj]
      exact gives_iff.mp (hin hr j hj)
    · intro ha
      refine ⟨fun hout => absurd hr hout, fun _ j hj => ?_⟩
      rw [entryAt_eq (d := fanOffset cfg g f) hj] at ha
      exact gives_iff.mpr ha
  · have hcandidate : candidate cfg g f = none := if_neg (mt inCandidateRange_iff.mpr hr)
    rw [hcandidate]
    exact ⟨fun h => h.1 hr, fun ha => ⟨fun _ => ha, fun h => absurd h hr⟩⟩

theorem candidate_offset {cfg : ActiveConfig} {g : Governing} {f : Fin 8} {a : PlacedAction} (h : candidate cfg g f = some a) :
    -7 ≤ fanOffset cfg g f ∧ fanOffset cfg g f ≤ 7 := by
  by_cases hr : InCandidateRange cfg g f
  · exact fanOffset_of_inRange hr
  · rw [candidate, if_neg (mt inCandidateRange_iff.mpr hr)] at h
    cases h

theorem runs_iff (a : PlacedAction) : a.runs = true ↔ a.IsRun := by
  cases a <;> simp [PlacedAction.runs, PlacedAction.IsRun]

/-! ## Unmet fans and their order (R155) -/

section
variable {cfg : ActiveConfig} {g : Governing} {available : Vector Bool 8} {f : Fin 8}

theorem unmetAction_eq_some_iff {a : PlacedAction} : unmetAction cfg g available f = some a ↔
    available[f] = false ∧ candidate cfg g f = some a ∧ a ≠ .keep := by
  unfold unmetAction
  cases hv : available[f]
  · simp only [Bool.false_eq_true, if_false, true_and]
    cases hc : candidate cfg g f with
    | none => simp
    | some b =>
      rcases eq_or_ne b .keep with rfl | hb
      · exact ⟨nofun, fun ⟨h, hne⟩ => absurd (Option.some.inj h).symm hne⟩
      · have hmatch : (match some b with | some .keep => none | other => other) = some b := by
          cases b with
          | keep => exact absurd rfl hb
          | _ => rfl
        exact ⟨fun h => ⟨hmatch.symm.trans h, fun ha => hb ((Option.some.inj (hmatch.symm.trans h)).trans ha)⟩,
          fun ⟨h, _⟩ => hmatch.trans h⟩
  · simp

theorem unmetRun_iff : unmetRun cfg g available f = true ↔
    ∃ a, available[f] = false ∧ candidate cfg g f = some a ∧ a.IsRun := by
  have hsplit : unmetRun cfg g available f = true ↔ ∃ a, unmetAction cfg g available f = some a ∧ a.runs = true := by
    unfold unmetRun
    cases unmetAction cfg g available f <;> simp
  simp only [hsplit, unmetAction_eq_some_iff, runs_iff]
  refine exists_congr fun a => ⟨fun ⟨⟨h1, h2, _⟩, h3⟩ => ⟨h1, h2, h3⟩, fun ⟨h1, h2, h3⟩ => ⟨⟨h1, h2, ?_⟩, h3⟩⟩
  rintro rfl
  obtain ⟨dir, speed, h⟩ := h3
  cases h

theorem mem_offsetOrder {d : Int} (hd : -7 ≤ d ∧ d ≤ 7) : d ∈ offsetOrder := by
  obtain ⟨hlow, hhigh⟩ := hd
  interval_cases d <;> decide

theorem offsetOrder_pairwise :
    offsetOrder.Pairwise fun d e => d.natAbs < e.natAbs ∨ (d.natAbs = e.natAbs ∧ d < e) := by decide

theorem mem_unmetOrder : f ∈ unmetOrder cfg g available ↔ unmetRun cfg g available f = true := by
  simp only [unmetOrder, List.mem_flatMap, List.mem_filter, List.mem_finRange, true_and, Bool.and_eq_true, decide_eq_true_eq]
  refine ⟨fun ⟨_, _, h, _⟩ => h, fun h => ⟨fanOffset cfg g f, mem_offsetOrder ?_, h, rfl⟩⟩
  obtain ⟨a, -, ha, -⟩ := unmetRun_iff.mp h
  exact candidate_offset ha

theorem unmetOrder_pairwise : (unmetOrder cfg g available).Pairwise (TakenBefore cfg g) := by
  rw [unmetOrder, List.pairwise_flatMap]
  refine ⟨fun d _ => ?_, offsetOrder_pairwise.imp fun {d e} hde j hj k hk => ?_⟩
  · refine ((List.pairwise_lt_finRange 8).filter _).imp_of_mem fun {j k} hj hk hjk => ?_
    simp only [List.mem_filter, Bool.and_eq_true, decide_eq_true_eq] at hj hk
    obtain ⟨-, -, hj⟩ := hj
    obtain ⟨-, -, hk⟩ := hk
    have hsame : fanOffset cfg g j = fanOffset cfg g k := hj.trans hk.symm
    exact .inr ⟨congrArg Int.natAbs hsame, .inr ⟨hsame, hjk⟩⟩
  · simp only [List.mem_filter, Bool.and_eq_true, decide_eq_true_eq] at hj hk
    obtain ⟨-, -, rfl⟩ := hj
    obtain ⟨-, -, rfl⟩ := hk
    exact hde.imp_right fun ⟨habs, hlt⟩ => ⟨habs, .inl hlt⟩

theorem takenBefore_irrefl (cfg : ActiveConfig) (g : Governing) (f : Fin 8) : ¬TakenBefore cfg g f f := by
  rintro (h | ⟨-, h | ⟨-, h⟩⟩)
  · exact lt_irrefl _ h
  · exact lt_irrefl _ h
  · exact lt_irrefl _ h

theorem unmetOrder_nodup : (unmetOrder cfg g available).Nodup :=
  List.Pairwise.imp (R := TakenBefore cfg g) (fun {j k} h (heq : j = k) => takenBefore_irrefl cfg g k (heq ▸ h))
    unmetOrder_pairwise

end

/-! ## The nearest substitute (R156) -/

/-- The better of the best so far and the next. -/
def pickBetter {α : Type} (better : α → α → Bool) (acc : Option α) (h : α) : Option α :=
  match acc with
  | none => some h
  | some k => if better h k then some h else some k

theorem foldl_pickBetter {α : Type} {test : α → Bool} {better : α → α → Bool} (hirrefl : ∀ a, better a a = false)
    (htrans : ∀ a b c, better a b = false → better b c = false → better a c = false)
    (hasymm : ∀ a b, better a b = true → better b a = false) (l : List α) (acc : Option α) :
    let r := l.foldl (fun acc h => if test h then pickBetter better acc h else acc) acc
    (r = none → acc = none ∧ ∀ h ∈ l, test h = false) ∧
    (∀ k, r = some k → (acc = some k ∨ test k = true) ∧ (∀ j, acc = some j → better j k = false) ∧
      ∀ h ∈ l, test h = true → better h k = false) := by
  induction l generalizing acc with
  | nil =>
    refine ⟨fun h => ⟨h, nofun⟩, fun k hk => ⟨.inl hk, fun j hj => ?_, nofun⟩⟩
    obtain rfl : j = k := Option.some.inj (hj.symm.trans hk)
    exact hirrefl j
  | cons x l ih =>
    intro r
    have hr : r = l.foldl (fun acc h => if test h then pickBetter better acc h else acc)
        (if test x then pickBetter better acc x else acc) := rfl
    by_cases hx : test x = true
    · rw [if_pos hx] at hr
      obtain ⟨hnone, hsome⟩ := ih (pickBetter better acc x)
      rw [← hr] at hnone hsome
      cases acc with
      | none =>
        refine ⟨fun h => (nomatch (hnone h).1), fun k hk => ?_⟩
        obtain ⟨hfrom, hbest, hrest⟩ := hsome k hk
        refine ⟨.inr (hfrom.elim (fun h => Option.some.inj h ▸ hx) id), nofun, fun h hh ht => ?_⟩
        rcases List.mem_cons.mp hh with rfl | hh
        · exact hbest h rfl
        · exact hrest h hh ht
      | some j =>
        cases hb : better x j with
        | true =>
          have hpick : pickBetter better (some j) x = some x := if_pos hb
          rw [hpick] at hnone hsome
          refine ⟨fun h => (nomatch (hnone h).1), fun k hk => ?_⟩
          obtain ⟨hfrom, hbest, hrest⟩ := hsome k hk
          refine ⟨.inr (hfrom.elim (fun h => Option.some.inj h ▸ hx) id), fun i hi => ?_, fun h hh ht => ?_⟩
          · obtain rfl := Option.some.inj hi
            exact htrans _ x k (hasymm x _ hb) (hbest x rfl)
          · rcases List.mem_cons.mp hh with rfl | hh
            · exact hbest h rfl
            · exact hrest h hh ht
        | false =>
          have hpick : pickBetter better (some j) x = some j := if_neg (by rw [hb]; exact nofun)
          rw [hpick] at hnone hsome
          refine ⟨fun h => (nomatch (hnone h).1), fun k hk => ?_⟩
          obtain ⟨hfrom, hbest, hrest⟩ := hsome k hk
          refine ⟨hfrom, hbest, fun h hh ht => ?_⟩
          rcases List.mem_cons.mp hh with rfl | hh
          · exact htrans h j k hb (hbest j rfl)
          · exact hrest h hh ht
    · rw [if_neg hx] at hr
      obtain ⟨hnone, hsome⟩ := ih acc
      rw [← hr] at hnone hsome
      refine ⟨fun h => ⟨(hnone h).1, fun y hy => ?_⟩, fun k hk => ?_⟩
      · rcases List.mem_cons.mp hy with rfl | hy
        · exact Bool.eq_false_iff.mpr hx
        · exact (hnone h).2 y hy
      · obtain ⟨hfrom, hbest, hrest⟩ := hsome k hk
        refine ⟨hfrom, hbest, fun h hh ht => ?_⟩
        rcases List.mem_cons.mp hh with rfl | hh
        · exact absurd ht hx
        · exact hrest h hh ht

section
variable {cfg : ActiveConfig} {g : Governing} {available : Vector Bool 8} {held : Vector (Option ListEntry) 8} {f : Fin 8}

theorem nearer_iff (h k : Fin 8) : nearer cfg (fanNiche cfg f) h k = true ↔ StandsNearer cfg f h k := by
  simp only [nearer, StandsNearer, Bool.or_eq_true, Bool.and_eq_true, decide_eq_true_eq]
  unfold fanNiche distance
  omega

theorem standsNearer_irrefl (h : Fin 8) : ¬StandsNearer cfg f h h := by
  rintro (h | ⟨-, h | ⟨-, h⟩⟩)
  · exact lt_irrefl _ h
  · exact lt_irrefl _ h
  · exact lt_irrefl _ h

theorem substitute_found : (substitute cfg g available held f = none → ∀ h, maySubstitute cfg g available held f h = false) ∧
    (∀ h, substitute cfg g available held f = some h → maySubstitute cfg g available held f h = true ∧
      ∀ k, maySubstitute cfg g available held f k = true → ¬StandsNearer cfg f k h) := by
  have hfold : substitute cfg g available held f = (List.finRange 8).foldl (fun acc h =>
      if maySubstitute cfg g available held f h then pickBetter (nearer cfg (fanNiche cfg f)) acc h else acc) none := by
    unfold substitute
    congr
    funext acc h
    cases acc <;> rfl
  obtain ⟨hnone, hsome⟩ := foldl_pickBetter (test := maySubstitute cfg g available held f) (better := nearer cfg (fanNiche cfg f))
    (fun a => by rw [← Bool.not_eq_true, nearer_iff]; exact standsNearer_irrefl a)
    (fun a b c => by
      simp only [← Bool.not_eq_true, nearer_iff, StandsNearer]
      omega)
    (fun a b => by
      simp only [← Bool.not_eq_true, nearer_iff, StandsNearer]
      omega) (List.finRange 8) none
  rw [← hfold] at hnone hsome
  refine ⟨fun h k => (hnone h).2 k (List.mem_finRange k), fun h hh => ?_⟩
  obtain ⟨hfrom, -, hbest⟩ := hsome h hh
  refine ⟨hfrom.resolve_left nofun, fun k hk => ?_⟩
  rw [← nearer_iff, Bool.not_eq_true]
  exact hbest k (List.mem_finRange k) hk

end

end Sys2Proof.Machine

/-! The stages of a placement together (R154 to R157): an invariant of the substitute stage, the result and the events (R152, R158). -/

namespace Sys2Proof.Machine

theorem set_get_same {α : Type} {n : Nat} (v : Vector α n) (i : Fin n) (x : α) : (v.set i x)[i] = x := Vector.getElem_set_self _

/-! ## The substitute stage (R156) -/

/-- A fan holds the entry of another fan that it stands in for. -/
def StandsFor (held : Vector (Option ListEntry) 8) (h f : Fin 8) : Prop := ∃ e, held[h] = some e ∧ e.standsFor = some f

/-- What the substitute stage has done once it has taken the fans of `done` in their order. -/
structure SubstituteInv (cfg : ActiveConfig) (g : Governing) (available : Vector Bool 8) (done : List (Fin 8)) (r : Substituted) :
    Prop where
  runs : ∀ f ∈ done, unmetRun cfg g available f = true
  held : ∀ h : Fin 8, r.candidates[h] = keptCandidate cfg g available h ∨
    ∃ f ∈ done, ∃ a, r.candidates[h] = some { fan := h, action := a, standsFor := some f } ∧
      unmetAction cfg g available f = some a ∧ MayStandIn cfg g available f h
  substitutes : ∀ h f, StandsFor r.candidates h f → cfg.templates[g.template].substitute = true
  once : ∀ h k f, StandsFor r.candidates h f → StandsFor r.candidates k f → h = k
  nearest : ∀ h f, StandsFor r.candidates h f → ∀ k, MayStandIn cfg g available f k → StandsNearer cfg f k h →
    ∃ j, TakenBefore cfg g j f ∧ StandsFor r.candidates k j
  left : r.leftOver.Sublist done
  leftOver : ∀ f ∈ done, f ∈ r.leftOver ↔ ∀ h, ¬StandsFor r.candidates h f
  passed : cfg.templates[g.template].substitute = true → ∀ f ∈ r.leftOver, ∀ h, MayStandIn cfg g available f h →
    ∃ j, TakenBefore cfg g j f ∧ StandsFor r.candidates h j

section
variable {cfg : ActiveConfig} {g : Governing} {available : Vector Bool 8} {done : List (Fin 8)} {r : Substituted} {f h : Fin 8}

theorem keptCandidate_eq_some_iff {e : ListEntry} : keptCandidate cfg g available f = some e ↔
    available[f] = true ∧ ∃ a, candidate cfg g f = some a ∧ e = { fan := f, action := a, standsFor := none } := by
  unfold keptCandidate
  cases available[f]
  · simp
  · simp [eq_comm]

theorem not_standsFor_of_kept (hkept : r.candidates[h] = keptCandidate cfg g available h) : ¬StandsFor r.candidates h f := by
  rintro ⟨e, he, hfor⟩
  obtain ⟨-, a, -, rfl⟩ := keptCandidate_eq_some_iff.mp (hkept.symm.trans he)
  cases hfor

theorem SubstituteInv.taken (hr : SubstituteInv cfg g available done r) (hfor : StandsFor r.candidates h f) :
    f ∈ done ∧ ∃ a, r.candidates[h] = some { fan := h, action := a, standsFor := some f } ∧
      unmetAction cfg g available f = some a ∧ MayStandIn cfg g available f h := by
  rcases hr.held h with hkept | ⟨f', hf', a, hentry, ha, hmay⟩
  · exact absurd hfor (not_standsFor_of_kept hkept)
  · obtain ⟨e, he, hfor⟩ := hfor
    obtain rfl := Option.some.inj (he.symm.trans hentry)
    obtain rfl : f' = f := Option.some.inj hfor
    exact ⟨hf', a, hentry, ha, hmay⟩

theorem SubstituteInv.fan (hr : SubstituteInv cfg g available done r) {e : ListEntry} (he : r.candidates[h] = some e) : e.fan = h := by
  rcases hr.held h with hkept | ⟨f', -, a, hentry, -⟩
  · obtain ⟨-, a, -, rfl⟩ := keptCandidate_eq_some_iff.mp (hkept.symm.trans he)
    rfl
  · rw [Option.some.inj (he.symm.trans hentry)]

/-- A fan that holds nothing, or KEEP, may stand in where its place allows. -/
theorem SubstituteInv.maySubstitute_iff (hr : SubstituteInv cfg g available done r) :
    maySubstitute cfg g available r.candidates f h = true ↔
      MayStandIn cfg g available f h ∧ ∀ j, ¬StandsFor r.candidates h j := by
  have hside : (if fanOffset cfg g f < 0 then decide (fanNiche cfg h ≤ fanNiche cfg f)
      else if 0 < fanOffset cfg g f then decide (fanNiche cfg f ≤ fanNiche cfg h) else true) = true ↔
      (fanNiche cfg f < g.position → fanNiche cfg h ≤ fanNiche cfg f) ∧
        (g.position < fanNiche cfg f → fanNiche cfg f ≤ fanNiche cfg h) := by
    unfold fanOffset
    split
    · rw [decide_eq_true_eq]
      exact ⟨fun hle => ⟨fun _ => hle, fun _ => by omega⟩, fun ⟨hle, _⟩ => hle (by omega)⟩
    split
    · rw [decide_eq_true_eq]
      exact ⟨fun hle => ⟨fun _ => by omega, fun _ => hle⟩, fun ⟨_, hle⟩ => hle (by omega)⟩
    · exact ⟨fun _ => ⟨fun _ => by omega, fun _ => by omega⟩, fun _ => rfl⟩
  have hfree : (match r.candidates[h] with | none => true | some e => decide (e.action = .keep)) = true ↔
      r.candidates[h] = none ∨ ∃ e, r.candidates[h] = some e ∧ e.action = .keep := by
    cases r.candidates[h] <;> simp
  have hmay : maySubstitute cfg g available r.candidates f h = true ↔ cfg.fans[h].role = .jet ∧ available[h] = true ∧
      (r.candidates[h] = none ∨ ∃ e, r.candidates[h] = some e ∧ e.action = .keep) ∧
      (fanNiche cfg f < g.position → fanNiche cfg h ≤ fanNiche cfg f) ∧
        (g.position < fanNiche cfg f → fanNiche cfg f ≤ fanNiche cfg h) := by
    rw [← hfree, ← hside]
    simp only [maySubstitute, Bool.and_eq_true, decide_eq_true_eq, and_assoc] <;> exact Iff.rfl
  have hstands : MayStandIn cfg g available f h ↔ cfg.fans[h].role = .jet ∧ available[h] = true ∧
      (candidate cfg g h = none ∨ candidate cfg g h = some .keep) ∧
      (fanNiche cfg f < g.position → fanNiche cfg h ≤ fanNiche cfg f) ∧
        (g.position < fanNiche cfg f → fanNiche cfg f ≤ fanNiche cfg h) := by
    simp only [MayStandIn, candidateIs_iff, eq_comm (b := candidate cfg g h)]
    exact Iff.rfl
  rw [hmay, hstands]
  constructor
  · rintro ⟨hjet, hv, hheld, hplace⟩
    have hkept : r.candidates[h] = keptCandidate cfg g available h := by
      rcases hr.held h with hkept | ⟨f', hf', a, hentry, ha, -⟩
      · exact hkept
      · obtain ⟨-, -, hkeep⟩ := unmetAction_eq_some_iff.mp ha
        rcases hheld with hnone | ⟨e, he, hk⟩
        · exact nomatch hentry.symm.trans hnone
        · rw [Option.some.inj (he.symm.trans hentry)] at hk
          exact absurd hk hkeep
    refine ⟨⟨hjet, hv, ?_, hplace⟩, fun j => not_standsFor_of_kept hkept⟩
    rw [hkept, keptCandidate, if_pos hv] at hheld
    cases hc : candidate cfg g h with
    | none => exact .inl rfl
    | some a =>
      rw [hc] at hheld
      obtain hnone | ⟨e, he, hk⟩ := hheld
      · exact nomatch hnone
      · rw [← Option.some.inj he] at hk
        exact .inr (congrArg some hk)
  · rintro ⟨⟨hjet, hv, hc, hplace⟩, hnot⟩
    refine ⟨hjet, hv, ?_, hplace⟩
    have hkept : r.candidates[h] = keptCandidate cfg g available h := by
      rcases hr.held h with hkept | ⟨f', -, a, hentry, -⟩
      · exact hkept
      · exact absurd ⟨_, hentry, rfl⟩ (hnot f')
    rw [hkept, keptCandidate, if_pos hv]
    rcases hc with hc | hc <;> rw [hc]
    · exact .inl rfl
    · exact .inr ⟨_, rfl, rfl⟩

/-! ## One step of the stage -/

theorem take_substitute {a : PlacedAction} (ha : unmetAction cfg g available f = some a)
    (hs : substitute cfg g available r.candidates f = some h) : r.take cfg g available f =
      { r with candidates := r.candidates.set h (some { fan := h, action := a, standsFor := some f }) } := by
  simp only [Substituted.take, ha, hs]

theorem take_left (hs : substitute cfg g available r.candidates f = none) :
    r.take cfg g available f = { r with leftOver := r.leftOver ++ [f] } := by
  unfold Substituted.take
  rw [hs]
  cases unmetAction cfg g available f <;> rfl

theorem standsFor_set {held : Vector (Option ListEntry) 8} {a : PlacedAction} (hfree : ∀ j, ¬StandsFor held h j) (k j : Fin 8) :
    StandsFor (held.set h (some { fan := h, action := a, standsFor := some f })) k j ↔ (k = h ∧ j = f) ∨ StandsFor held k j := by
  unfold StandsFor
  by_cases hk : k = h
  · subst hk
    rw [set_get_same]
    constructor
    · rintro ⟨e, he, hfor⟩
      rw [← Option.some.inj he] at hfor
      exact .inl ⟨rfl, (Option.some.inj hfor).symm⟩
    · rintro (⟨-, rfl⟩ | hold)
      · exact ⟨_, rfl, rfl⟩
      · exact absurd hold (hfree j)
  · rw [set_get_other _ _ hk]
    exact ⟨.inr, fun hor => hor.resolve_left fun hkj => hk hkj.1⟩

variable (hnew : f ∉ done) (hbefore : ∀ k ∈ done, TakenBefore cfg g k f)
  (hsubstitute : cfg.templates[g.template].substitute = true)

include hnew hbefore hsubstitute in
theorem SubstituteInv.set (hr : SubstituteInv cfg g available done r) {a : PlacedAction}
    (hrun : unmetRun cfg g available f = true) (ha : unmetAction cfg g available f = some a)
    (hs : substitute cfg g available r.candidates f = some h) :
    SubstituteInv cfg g available (done ++ [f]) (r.take cfg g available f) := by
  obtain ⟨hmay, hnearest⟩ := substitute_found.2 h hs
  obtain ⟨hmay, hfree⟩ := hr.maySubstitute_iff.mp hmay
  have hstands := standsFor_set (f := f) (a := a) hfree
  rw [take_substitute ha hs]
  have hdone (k j : Fin 8) (hfor : StandsFor r.candidates k j) : j ∈ done := (hr.taken hfor).1
  refine ⟨fun k hk => ?_, fun k => ?_, fun _ _ _ => hsubstitute, fun k k' j hk hk' => ?_, fun k j hk k' hmay' hnear => ?_,
    hr.left.trans (List.sublist_append_left _ _), fun j hj => ?_, fun hsub j hj k hmay' => ?_⟩
  · rcases List.mem_append.mp hk with hk | hk
    · exact hr.runs k hk
    · rwa [List.mem_singleton.mp hk]
  · dsimp only
    by_cases hkh : k = h
    · subst hkh
      rw [set_get_same]
      exact .inr ⟨f, by simp, a, rfl, ha, hmay⟩
    · rw [set_get_other _ _ hkh]
      refine (hr.held k).imp_right fun ⟨j, hj, rest⟩ => ⟨j, List.mem_append_left _ hj, rest⟩
  · rw [hstands] at hk hk'
    rcases hk with ⟨rfl, rfl⟩ | hk <;> rcases hk' with ⟨rfl, hj⟩ | hk'
    · rfl
    · exact absurd (hdone k' _ hk') hnew
    · subst hj
      exact absurd (hdone k _ hk) hnew
    · exact hr.once k k' j hk hk'
  · rw [hstands] at hk
    simp only [hstands]
    rcases hk with ⟨rfl, rfl⟩ | hk
    · have htaken : ¬∀ j, ¬StandsFor r.candidates k' j := fun hnot =>
        hnearest k' (hr.maySubstitute_iff.mpr ⟨hmay', hnot⟩) hnear
      obtain ⟨j, hj⟩ := not_forall_not.mp htaken
      exact ⟨j, hbefore j (hdone k' j hj), .inr hj⟩
    · obtain ⟨i, hbefore', hi⟩ := hr.nearest k j hk k' hmay' hnear
      exact ⟨i, hbefore', .inr hi⟩
  · simp only [hstands]
    rcases List.mem_append.mp hj with hj | hj
    · rw [hr.leftOver j hj]
      have hne : j ≠ f := fun heq => hnew (heq ▸ hj)
      exact forall_congr' fun k => not_congr (iff_or_self.mpr fun hkj => absurd hkj.2 hne)
    · obtain rfl := List.mem_singleton.mp hj
      exact ⟨fun hin => absurd (hr.left.subset hin) hnew, fun hall => absurd (.inl ⟨rfl, rfl⟩) (hall h)⟩
  · simp only [hstands]
    obtain ⟨i, hbefore', hi⟩ := hr.passed hsub j hj k hmay'
    exact ⟨i, hbefore', .inr hi⟩

include hnew hbefore in
theorem SubstituteInv.leave (hr : SubstituteInv cfg g available done r) (hrun : unmetRun cfg g available f = true)
    (hs : substitute cfg g available r.candidates f = none) :
    SubstituteInv cfg g available (done ++ [f]) (r.take cfg g available f) := by
  rw [take_left hs]
  have hdone (k j : Fin 8) (hfor : StandsFor r.candidates k j) : j ∈ done := (hr.taken hfor).1
  refine ⟨fun k hk => ?_, fun k => ?_, hr.substitutes, hr.once, hr.nearest, hr.left.append (List.Sublist.refl _), fun j hj => ?_,
    fun hsub j hj k hmay => ?_⟩
  · rcases List.mem_append.mp hk with hk | hk
    · exact hr.runs k hk
    · rwa [List.mem_singleton.mp hk]
  · exact (hr.held k).imp_right fun ⟨j, hj, rest⟩ => ⟨j, List.mem_append_left _ hj, rest⟩
  · rcases List.mem_append.mp hj with hj | hj
    · have hne : j ≠ f := fun heq => hnew (heq ▸ hj)
      rw [← hr.leftOver j hj, List.mem_append, List.mem_singleton]
      exact or_iff_left hne
    · obtain rfl := List.mem_singleton.mp hj
      exact ⟨fun _ k hk => hnew (hdone k j hk), fun _ => by simp⟩
  · rcases List.mem_append.mp hj with hj | hj
    · exact hr.passed hsub j hj k hmay
    · obtain rfl := List.mem_singleton.mp hj
      have htaken : ¬∀ i, ¬StandsFor r.candidates k i := fun hnot =>
        absurd (hr.maySubstitute_iff.mpr ⟨hmay, hnot⟩) (by rw [substitute_found.1 hs k]; exact nofun)
      obtain ⟨i, hi⟩ := not_forall_not.mp htaken
      exact ⟨i, hbefore i (hdone k i hi), hi⟩

/-! ## The whole stage -/

variable (cfg g available) in
theorem substituteInv_start : SubstituteInv cfg g available []
    { candidates := Vector.ofFn fun f => keptCandidate cfg g available f, leftOver := [] } := by
  have hk (k : Fin 8) : (Vector.ofFn fun f => keptCandidate cfg g available f)[k] = keptCandidate cfg g available k :=
    Vector.getElem_ofFn _
  have hnone (k j : Fin 8) : ¬StandsFor (Vector.ofFn fun f => keptCandidate cfg g available f) k j :=
    not_standsFor_of_kept (r := { candidates := Vector.ofFn fun f => keptCandidate cfg g available f, leftOver := [] }) (hk k)
  exact ⟨nofun, fun k => .inl (hk k), fun k j h => absurd h (hnone k j), fun k _ j h => absurd h (hnone k j),
    fun k j h => absurd h (hnone k j), List.Sublist.refl _, nofun, nofun⟩

theorem SubstituteInv.foldl (hsubstitute : cfg.templates[g.template].substitute = true) (l : List (Fin 8))
    (hl : (done ++ l).Pairwise (TakenBefore cfg g)) (hrun : ∀ f ∈ l, unmetRun cfg g available f = true)
    (hr : SubstituteInv cfg g available done r) :
    SubstituteInv cfg g available (done ++ l) (l.foldl (Substituted.take cfg g available) r) := by
  induction l generalizing done r with
  | nil => rwa [List.append_nil]
  | cons f l ih =>
    have hbefore : ∀ k ∈ done, TakenBefore cfg g k f := fun k hk =>
      (List.pairwise_append.mp hl).2.2 k hk f List.mem_cons_self
    have hnew : f ∉ done := fun hf => takenBefore_irrefl cfg g f (hbefore f hf)
    have hf := hrun f List.mem_cons_self
    have hstep : SubstituteInv cfg g available (done ++ [f]) (r.take cfg g available f) := by
      obtain ⟨a, hv, ha, hisRun⟩ := unmetRun_iff.mp hf
      have hkeep : a ≠ .keep := by
        rintro rfl
        obtain ⟨dir, speed, h⟩ := hisRun
        cases h
      cases hs : substitute cfg g available r.candidates f with
      | some h => exact hr.set hnew hbefore hsubstitute hf (unmetAction_eq_some_iff.mpr ⟨hv, ha, hkeep⟩) hs
      | none => exact hr.leave hnew hbefore hf hs
    have hassoc : done ++ f :: l = (done ++ [f]) ++ l := by simp
    rw [hassoc] at hl ⊢
    exact ih hl (fun k hk => hrun k (List.mem_cons_of_mem f hk)) hstep

theorem substituteStage_inv (cfg : ActiveConfig) (g : Governing) (available : Vector Bool 8) :
    SubstituteInv cfg g available (unmetOrder cfg g available) (substituteStage cfg g available) := by
  have hruns : ∀ f ∈ unmetOrder cfg g available, unmetRun cfg g available f = true := fun f hf => mem_unmetOrder.mp hf
  have hstart := substituteInv_start cfg g available
  by_cases hsubstitute : cfg.templates[g.template].substitute = true
  · rw [show substituteStage cfg g available = _ from if_pos hsubstitute]
    exact hstart.foldl hsubstitute (unmetOrder cfg g available) unmetOrder_pairwise hruns
  · rw [show substituteStage cfg g available = _ from if_neg hsubstitute]
    have hnone (k j : Fin 8) : ¬StandsFor (Vector.ofFn fun f => keptCandidate cfg g available f) k j := fun h =>
      nomatch (hstart.taken h).1
    exact ⟨hruns, fun k => (hstart.held k).imp_right fun ⟨f, hf, _⟩ => (nomatch hf), hstart.substitutes, hstart.once, hstart.nearest,
      List.Sublist.refl _, fun f hf => iff_of_true hf fun k => hnone k f, fun h => absurd h hsubstitute⟩

/-! ## The result (R157) -/

theorem SubstituteInv.mem_list (hr : SubstituteInv cfg g available done r) {e : ListEntry} :
    e ∈ r.list ↔ r.candidates[e.fan] = some e := by
  simp only [Substituted.list, List.mem_filterMap, List.mem_finRange, true_and]
  refine ⟨fun ⟨k, hk⟩ => ?_, fun h => ⟨e.fan, h⟩⟩
  obtain rfl := hr.fan hk
  exact hk

theorem SubstituteInv.list_pairwise (hr : SubstituteInv cfg g available done r) : r.list.Pairwise fun a b => a.fan < b.fan := by
  rw [Substituted.list, List.pairwise_filterMap]
  refine (List.pairwise_lt_finRange 8).imp fun {j k} hjk a ha b hb => ?_
  rwa [hr.fan ha, hr.fan hb]

theorem SubstituteInv.standsFor_of_mem (hr : SubstituteInv cfg g available done r) {e : ListEntry} (he : e ∈ r.list)
    (hfor : e.standsFor = some f) : StandsFor r.candidates e.fan f := ⟨e, hr.mem_list.mp he, hfor⟩

theorem SubstituteInv.mem_of_standsFor (hr : SubstituteInv cfg g available done r) (h' : StandsFor r.candidates h f) :
    ∃ e ∈ r.list, e.fan = h ∧ e.standsFor = some f := by
  obtain ⟨e, he, hfor⟩ := h'
  obtain rfl := hr.fan he
  exact ⟨e, hr.mem_list.mpr he, rfl, hfor⟩

theorem isRun_ne_stop {a : PlacedAction} (h : a.IsRun) : a ≠ .stop ∧ a ≠ .keep := by
  obtain ⟨dir, speed, rfl⟩ := h
  exact ⟨nofun, nofun⟩

theorem SubstituteInv.isRun (hr : SubstituteInv cfg g available done r) (hf : f ∈ done) {a : PlacedAction}
    (ha : candidate cfg g f = some a) : a.IsRun := by
  obtain ⟨b, -, hb, hrun⟩ := unmetRun_iff.mp (hr.runs f hf)
  rwa [Option.some.inj (ha.symm.trans hb)]

/-- The fans that nothing stands in for, whose action is not KEEP. -/
theorem SubstituteInv.unmet_iff (hr : SubstituteInv cfg g available (unmetOrder cfg g available) r) :
    (r.leftOver.contains f || decide (unmetAction cfg g available f = some .stop)) = true ↔
      available[f] = false ∧ (∃ a, candidate cfg g f = some a ∧ a ≠ .keep) ∧ ∀ e ∈ r.list, e.standsFor ≠ some f := by
  have hnot (hall : ∀ h, ¬StandsFor r.candidates h f) : ∀ e ∈ r.list, e.standsFor ≠ some f := fun e he hfor =>
    hall e.fan (hr.standsFor_of_mem he hfor)
  rw [Bool.or_eq_true, List.contains_iff_mem, decide_eq_true_eq]
  constructor
  · rintro (hleft | hstop)
    · have hdone := hr.left.subset hleft
      obtain ⟨a, hv, ha, hrun⟩ := unmetRun_iff.mp (hr.runs f hdone)
      exact ⟨hv, ⟨a, ha, (isRun_ne_stop hrun).2⟩, hnot ((hr.leftOver f hdone).mp hleft)⟩
    · obtain ⟨hv, ha, hkeep⟩ := unmetAction_eq_some_iff.mp hstop
      refine ⟨hv, ⟨.stop, ha, hkeep⟩, hnot fun h hfor => ?_⟩
      exact absurd rfl (isRun_ne_stop (hr.isRun (hr.taken hfor).1 ha)).1
  · rintro ⟨hv, ⟨a, ha, hkeep⟩, hall⟩
    have haction : unmetAction cfg g available f = some a := unmetAction_eq_some_iff.mpr ⟨hv, ha, hkeep⟩
    cases a with
    | keep => exact absurd rfl hkeep
    | stop => exact .inr haction
    | run dir speed =>
      have hdone : f ∈ unmetOrder cfg g available := mem_unmetOrder.mpr (unmetRun_iff.mpr ⟨_, hv, ha, dir, speed, rfl⟩)
      refine .inl ((hr.leftOver f hdone).mpr fun h hfor => ?_)
      obtain ⟨e, he, -, hfor⟩ := hr.mem_of_standsFor hfor
      exact hall e he hfor

end

theorem unmetFans_pairwise (cfg : ActiveConfig) (g : Governing) (available : Vector Bool 8) :
    (computeFor cfg g available).unmetFans.Pairwise (· < ·) := by
  simp only [computeFor]
  exact (List.pairwise_lt_finRange 8).filter _

theorem computeFor_placementFor (cfg : ActiveConfig) (g : Governing) (available : Vector Bool 8) (time : DWord) :
    PlacementFor cfg g available { computeFor cfg g available with time := time } := by
  have hr := substituteStage_inv cfg g available
  let r := substituteStage cfg g available
  have hunmet (f : Fin 8) : f ∈ (computeFor cfg g available).unmetFans ↔ available[f] = false ∧
      (∃ a, candidate cfg g f = some a ∧ a ≠ .keep) ∧ ∀ e ∈ r.list, e.standsFor ≠ some f := by
    simp only [computeFor, List.mem_filter, List.mem_finRange, true_and]
    exact hr.unmet_iff
  have hleft (f : Fin 8) : f ∈ r.leftOver ↔
      f ∈ (computeFor cfg g available).unmetFans ∧ ∃ a, candidate cfg g f = some a ∧ a.IsRun := by
    constructor
    · intro hf
      obtain ⟨a, -, ha, hrun⟩ := unmetRun_iff.mp (hr.runs f (hr.left.subset hf))
      refine ⟨(hunmet f).mpr (hr.unmet_iff.mp ?_), a, ha, hrun⟩
      rw [Bool.or_eq_true, List.contains_iff_mem]
      exact .inl hf
    · rintro ⟨hf, a, ha, hrun⟩
      obtain ⟨hv, -, hall⟩ := (hunmet f).mp hf
      have hdone : f ∈ unmetOrder cfg g available := mem_unmetOrder.mpr (unmetRun_iff.mpr ⟨a, hv, ha, hrun⟩)
      refine (hr.leftOver f hdone).mpr fun h hfor => ?_
      obtain ⟨e, he, -, hfor⟩ := hr.mem_of_standsFor hfor
      exact hall e he hfor
  unfold PlacementFor
  simp only [candidateIs_iff, eq_comm (b := candidate cfg g _)]
  refine ⟨rfl, hr.list_pairwise, fun e he hnone => ?_, fun e he f hfor => ?_, fun f a hv ha => ?_, rfl,
    unmetFans_pairwise cfg g available, hunmet, ⟨r.leftOver, hr.left.nodup unmetOrder_nodup, rfl, hleft⟩,
    fun hsub f hf hrun h hmay => ?_, rfl⟩
  · rcases hr.held e.fan with hkept | ⟨f, -, a, hentry, -⟩
    · obtain ⟨hv, a, ha, heq⟩ := keptCandidate_eq_some_iff.mp (hkept.symm.trans (hr.mem_list.mp he))
      refine ⟨hv, ?_⟩
      rw [ha, heq]
    · rw [Option.some.inj ((hr.mem_list.mp he).symm.trans hentry)] at hnone
      cases hnone
  · have hstands := hr.standsFor_of_mem he hfor
    obtain ⟨hdone, a, hentry, ha, hmay⟩ := hr.taken hstands
    obtain ⟨hv, hcandidate, -⟩ := unmetAction_eq_some_iff.mp ha
    have haction : e.action = a := congrArg ListEntry.action (Option.some.inj ((hr.mem_list.mp he).symm.trans hentry))
    rw [haction]
    refine ⟨hr.substitutes e.fan f hstands, hv, hr.isRun hdone hcandidate, hcandidate, hmay, fun d hd hdfor => ?_,
      fun h hmayh hall hnear => ?_⟩
    · have hfan := hr.once d.fan e.fan f (hr.standsFor_of_mem hd hdfor) hstands
      have hentries := congrArg (fun k : Fin 8 => r.candidates[k]) hfan
      exact Option.some.inj ((hr.mem_list.mp hd).symm.trans (hentries.trans (hr.mem_list.mp he)))
    · obtain ⟨j, hbefore, hj⟩ := hr.nearest e.fan f hstands h hmayh hnear
      obtain ⟨d, hd, hdfan, hdfor⟩ := hr.mem_of_standsFor hj
      exact hall d hd j hdfan hdfor hbefore
  · rcases hr.held f with hkept | ⟨k, -, b, hentry, -, hmay⟩
    · have hentry : r.candidates[f] = some { fan := f, action := a, standsFor := none } :=
        hkept.trans (keptCandidate_eq_some_iff.mpr ⟨hv, a, ha, rfl⟩)
      exact ⟨{ fan := f, action := a, standsFor := none }, hr.mem_list.mpr hentry, rfl, .inl rfl⟩
    · refine ⟨{ fan := f, action := b, standsFor := some k }, hr.mem_list.mpr hentry, rfl, .inr ?_⟩
      obtain ⟨-, -, hfree, -⟩ := hmay
      rw [candidateIs_iff, candidateIs_iff, ha] at hfree
      rcases hfree with hfree | hfree
      · cases hfree
      · exact (Option.some.inj hfree).symm
  · obtain ⟨j, hbefore, hj⟩ := hr.passed hsub f ((hleft f).mpr ⟨hf, hrun⟩) h hmay
    obtain ⟨e, he, hfan, hfor⟩ := hr.mem_of_standsFor hj
    exact ⟨e, he, j, hfan, hfor, hbefore⟩

/-! ## The events of the placement unit (R152, R158) -/

/-- The placement of a governing record, or of none. -/
def Places (cfg : ActiveConfig) (a : State) (governing : Option Governing) : Prop :=
  a.placement.governing = governing ∧
  (∀ copy, governing = some copy → PlacementFor cfg copy a.placement.available a.placement.record) ∧
  (governing = none → a.placement.record = { PlacementRecord.empty with time := a.placement.record.time })

section
variable (x : Ctx) (u : PlacementUnit)

theorem place_cases : u.place x = { u with record := { u.compute x.cfg with time := (u.place x).record.time } } ∧
    ((u.place x).record = u.record ∨
      ({ (u.place x).record with time := u.record.time } ≠ u.record ∧ (u.place x).record.time = x.sec)) := by
  unfold PlacementUnit.place
  simp only
  split
  next h => exact ⟨by rw [h], .inl rfl⟩
  next h => exact ⟨rfl, .inr ⟨h, rfl⟩⟩

end

theorem place_places {p a : State} {u : PlacementUnit} (ha : a.placement = u.place p.ctx) : Places p.active a u.governing := by
  obtain ⟨hplace, -⟩ := place_cases p.ctx u
  rw [← ha] at hplace
  refine ⟨by rw [hplace], fun copy hg => ?_, fun hg => ?_⟩
  · rw [hplace]
    simp only [PlacementUnit.compute, hg]
    exact computeFor_placementFor p.active copy u.available _
  · rw [hplace]
    simp only [PlacementUnit.compute, hg]

theorem compared_eq_iff (l k : List ListEntry) : l.map ListEntry.compared = k.map ListEntry.compared ↔
    (l.map fun e => (e.fan, e.action, decide (e.standsFor = none))) =
      k.map fun e => (e.fan, e.action, decide (e.standsFor = none)) := by
  have hnot : Function.Injective fun c : Fin 8 × PlacedAction × Bool => (c.1, c.2.1, !c.2.2) := fun c d h => by
    obtain ⟨f, a, b⟩ := c
    obtain ⟨f', a', b'⟩ := d
    simp_all
  have hmap (l : List ListEntry) : (l.map fun e => (e.fan, e.action, decide (e.standsFor = none))) =
      (l.map ListEntry.compared).map fun c : Fin 8 × PlacedAction × Bool => (c.1, c.2.1, !c.2.2) := by
    rw [List.map_map]
    refine List.map_congr_left fun e _ => ?_
    cases h : e.standsFor <;> simp [ListEntry.compared, h]
  rw [hmap, hmap, (List.map_injective_iff.mpr hnot).eq_iff]

theorem placed_placements (m : Mail) (old new : PlacementRecord) :
    let compared (l : List ListEntry) : List (Fin 8 × PlacedAction × Bool) :=
      l.map fun e => (e.fan, e.action, decide (e.standsFor = none))
    (m.placed old new).placements = m.placements ++ (if compared new.list = compared old.list then [] else [new.list]) := by
  simp only [Mail.placed, compared_eq_iff]
  split
  next h => rw [if_pos h.symm, List.append_nil]
  next h => rw [if_neg (mt Eq.symm h)]

theorem placed_deficits (m : Mail) (old new : PlacementRecord) : (m.placed old new).deficits = m.deficits ++
    (if new.deficit = old.deficit ∧ new.governing.map (·.ident) = old.governing.map (·.ident) then [] else [new.deficit]) := by
  simp only [Mail.placed]
  split
  next h => rw [if_pos ⟨h.1.symm, h.2.symm⟩, List.append_nil]
  next h => rw [if_neg fun hsame => h ⟨hsame.1.symm, hsame.2.symm⟩]

/-- The frame of a placement event. -/
theorem placementEvent_frame (p : State) (places : Bool) (act : PlacementUnit → PlacementUnit)
    (hrecord : (act p.placement).record = p.placement.record) : PlacementFrame p (p.placementEvent places act) := by
  have hplacement : (p.placementEvent places act).placement = if places then (act p.placement).place p.ctx else act p.placement := rfl
  refine ⟨?_, ?_, ?_, rfl⟩
  · rw [hplacement]
    cases places
    · exact .inl hrecord
    · have hcases := (place_cases p.ctx (act p.placement)).2
      rw [hrecord] at hcases
      exact hcases
  · exact placed_placements p.mail p.placement.record (p.placementEvent places act).placement.record
  · exact placed_deficits p.mail p.placement.record (p.placementEvent places act).placement.record

theorem place_available (x : Ctx) (u : PlacementUnit) : (u.place x).available = u.available := by
  rw [(place_cases x u).1]

theorem governingChange_event (p : State) (governing : Option Governing) :
    let a := p.placementEvent true ({ · with governing := governing })
    Places p.active a governing ∧ a.placement.available = p.placement.available ∧ PlacementFrame p a :=
  ⟨place_places (u := { p.placement with governing := governing }) rfl, place_available p.ctx _, placementEvent_frame p _ _ rfl⟩

theorem availabilityChange_event (p : State) (f : Fin 8) (available : Bool) :
    let a := p.placementEvent (decide (p.active.fans[f].role = .jet) && p.placement.governing.isSome)
      fun u => { u with available := u.available.set f available }
    a.placement.available = p.placement.available.set f available ∧
    (p.active.fans[f].role = .jet → p.placement.governing ≠ none → Places p.active a p.placement.governing) ∧
    (p.active.fans[f].role = .gallery ∨ p.placement.governing = none →
      a.placement.record = p.placement.record ∧ a.placement.governing = p.placement.governing) ∧
    PlacementFrame p a := by
  intro a
  let u : PlacementUnit := { p.placement with available := p.placement.available.set f available }
  let places : Bool := decide (p.active.fans[f].role = .jet) && p.placement.governing.isSome
  have hplacement : a.placement = if places then u.place p.ctx else u := rfl
  refine ⟨?_, fun hjet hsome => ?_, fun hnot => ?_, placementEvent_frame p _ _ rfl⟩
  · rw [hplacement]
    split
    · exact place_available p.ctx u
    · rfl
  · have hplaces : places = true := by
      simp only [places, hjet, decide_true, Bool.true_and, Option.isSome_iff_ne_none]
      exact hsome
    exact place_places (u := u) (hplacement.trans (if_pos hplaces))
  · have hplaces : ¬places = true := by
      rw [Bool.and_eq_true, decide_eq_true_eq, Option.isSome_iff_ne_none]
      rintro ⟨hjet, hsome⟩
      exact hnot.elim (fun hgallery => (nomatch hjet.symm.trans hgallery)) hsome
    rw [hplacement, if_neg hplaces]
    exact ⟨rfl, rfl⟩

theorem fanItemChange_event (p : State) :
    let a := p.placementEvent p.placement.governing.isSome id
    a.placement.available = p.placement.available ∧
    (p.placement.governing ≠ none → Places p.active a p.placement.governing) ∧
    (p.placement.governing = none → a.placement = p.placement) ∧ PlacementFrame p a := by
  intro a
  have hplacement : a.placement = if p.placement.governing.isSome then p.placement.place p.ctx else p.placement := rfl
  refine ⟨?_, fun hsome => ?_, fun hnone => ?_, placementEvent_frame p _ _ rfl⟩
  · rw [hplacement]
    split
    · exact place_available p.ctx p.placement
    · rfl
  · exact place_places (hplacement.trans (if_pos (Option.isSome_iff_ne_none.mpr hsome)))
  · rw [hplacement, hnone]
    rfl

section
variable {s : State} {post : State → Prop}

theorem governingChange_acts {governing : Option Governing} {rest : List (Option Governing)} (hrunning : s.running = true)
    (hmail : s.mail.governing = governing :: rest)
    (hpost : post (State.placementEvent true ({ · with governing := governing })
      { s with mail := { s.mail with governing := rest } })) : Acts .governingChange s post := by
  refine ⟨_, ?_, hpost⟩
  change execGoverningChange s = _
  unfold execGoverningChange
  rw [internal_acts hrunning (by rw [hmail]; rfl), hmail]

theorem availabilityChange_acts {f : Fin 8} {available : Bool} {rest : List Bool} (hrunning : s.running = true)
    (hmail : s.mail.availability[f] = available :: rest)
    (hpost : post (State.placementEvent (decide (s.active.fans[f].role = .jet) && s.placement.governing.isSome)
      (fun u => { u with available := u.available.set f available })
      { s with mail := { s.mail with availability := s.mail.availability.set f rest } })) :
    Acts (.availabilityChange f) s post := by
  refine ⟨_, ?_, hpost⟩
  change execAvailabilityChange f s = _
  unfold execAvailabilityChange
  rw [internal_acts hrunning (by rw [hmail]; rfl), hmail]

theorem fanItemChange_acts {f : Fin 8} (hrunning : s.running = true) (hmail : 0 < s.mail.fanItems[f])
    (hpost : post (State.placementEvent s.placement.governing.isSome id
      { s with mail := { s.mail with fanItems := s.mail.fanItems.set f (s.mail.fanItems[f] - 1) } })) :
    Acts (.fanItemChange f) s post := by
  refine ⟨_, ?_, hpost⟩
  change execFanItemChange f s = _
  unfold execFanItemChange
  rw [internal_acts hrunning (decide_eq_true hmail)]
  rfl

end

/-- Settles O45: a placement lays the pattern of its template over the span and finds substitutes for the fans that it misses. -/
theorem placementLaysThePatternOverTheSpan : Obligations.PlacementLaysThePatternOverTheSpan := by
  refine fun s hrunning => ⟨fun g rest hmail => governingChange_acts hrunning hmail ?_,
    fun f available rest hmail => availabilityChange_acts hrunning hmail ?_, fun f hmail => fanItemChange_acts hrunning hmail ?_⟩
  · exact governingChange_event { s with mail := { s.mail with governing := rest } } g
  · exact availabilityChange_event { s with mail := { s.mail with availability := s.mail.availability.set f rest } } f available
  · exact fanItemChange_event { s with mail := { s.mail with fanItems := s.mail.fanItems.set f (s.mail.fanItems[f] - 1) } }

end Sys2Proof.Machine

/-! The events of the span link at a port (R166, R168 to R173, R178, R180): timers, frames that are taken and frames that are sent. -/

namespace Sys2Proof.Machine

/-! ## An event that leaves the neighbour -/

theorem linkChanged_of_neighbour {p n : PortState} (h : n.neighbour = p.neighbour) : linkChanged p n = false := by
  rw [linkChanged, h]
  exact decide_eq_false (not_not_intro rfl)

theorem portEvent_becomes_of_eq {s : State} {port : Port} {act : PortState → PortState} {n : PortState}
    (hn : act (s.link.get port) = n) (hneighbour : n.neighbour = (s.link.get port).neighbour) :
    PortBecomes s (State.portEvent port act s) port n false := by
  rw [← linkChanged_of_neighbour hneighbour, ← hn]
  exact portEvent_becomes port act s

theorem portEvent_acts {s : State} {port : Port} {c : Instr} {due : Bool} {act : State → PortState → PortState}
    {post : State → Prop} (hrunning : s.running = true)
    (hexec : exec c s = internal s due fun s => State.portEvent port (act s) s) (hdue : due = true)
    (hpost : post (State.portEvent port (act s) s)) : Acts c s post :=
  ⟨_, by rw [hexec, internal_acts hrunning hdue], hpost⟩

/-! ## The timers -/

theorem offerHello_neighbour (p : PortState) : p.offerHello.neighbour = p.neighbour := by
  unfold PortState.offerHello
  repeat' split
  all_goals rfl

theorem expired_of_due {timer : Option Nat} {due now : Nat} (hdue : timer = some due) (hnow : due ≤ now) :
    expired timer now = true := by
  rw [hdue, expired_some, decide_eq_true hnow]

/-- Settles O49: what the timers of a port make of it. -/
theorem linkTimersExpire : Obligations.LinkTimersExpire := by
  refine fun port due s hrunning hnow => ⟨fun hdue => ?_, fun hdue => ?_, fun hdue => ?_, fun hdue hmark => ?_⟩
  · refine portEvent_acts (act := fun s p => { p.offerHello with helloDue := some (s.now + 1000) }) hrunning rfl
      (expired_of_due hdue hnow) ⟨_, offerHello_offers _, portEvent_becomes_of_eq rfl ?_⟩
    exact offerHello_neighbour (s.link.get port)
  · refine portEvent_acts (act := fun _ p => p.goDown) hrunning rfl (expired_of_due hdue hnow) ⟨_, goDown_goes _, ?_⟩
    have hchanged : linkChanged (s.link.get port) (s.link.get port).goDown = (s.link.get port).neighbour.isSome := by
      unfold linkChanged PortState.goDown
      cases (s.link.get port).neighbour <;> rfl
    rw [← hchanged]
    exact portEvent_becomes port _ s
  · exact portEvent_acts (act := fun _ p => { p with holdDue := none, holdShown := 0 }) hrunning rfl (expired_of_due hdue hnow)
      (portEvent_becomes_of_eq rfl rfl)
  · refine portEvent_acts (act := fun s p => { p with pendingHold := some 255, holdRepeatDue := some (s.now + 2000) }) hrunning rfl
      ?_ (portEvent_becomes_of_eq rfl rfl)
    rw [expired_of_due hdue hnow, hmark]
    rfl

/-! ## Taking frames (R169, R170, R172, R173, R180) -/

theorem takeHead_neighbour (p : PortState) : p.takeHead.neighbour = p.neighbour := by
  unfold PortState.takeHead
  simp only
  split <;> rfl

/-- A HELLO at the head of the receive queue is taken and heard. -/
def PortState.takeHello (x : Ctx) (p : PortState) : PortState :=
  match p.receiveQueue with
  | .hello h :: _ => p.takeHead.hear x h
  | _ => p

theorem takeHello_eq {x : Ctx} {p : PortState} {h : Hello} {rest : List Frame} (hqueue : p.receiveQueue = .hello h :: rest) :
    p.takeHello x = p.takeHead.hear x h := by
  simp only [PortState.takeHello, hqueue]

section
variable {s : State} {port : Port} {rest : List Frame} {post : State → Prop}

theorem helloTaken_acts {h : Hello} (hrunning : s.running = true) (hqueue : (s.link.get port).receiveQueue = .hello h :: rest)
    (hpost : ∀ a, PortBecomes s a port ((s.link.get port).takeHead.hear s.ctx h)
      (linkChanged (s.link.get port) ((s.link.get port).takeHead.hear s.ctx h)) → post a) : Acts (.helloTaken port) s post := by
  have hwaiting : s.helloWaiting port = true := by simp only [State.helloWaiting, hqueue]
  refine ⟨State.portEvent port (PortState.takeHello s.ctx) s, ?_, hpost _ ?_⟩
  · change execHelloTaken port s = _
    exact internal_acts hrunning hwaiting
  · have hbecomes := portEvent_becomes port (PortState.takeHello s.ctx) s
    rwa [takeHello_eq hqueue] at hbecomes

theorem incidentFrameTaken_acts {n : Notice} (hrunning : s.running = true)
    (hqueue : (s.link.get port).receiveQueue = .incident n :: rest) (hpost : post (s.takeIncidentFrame port n)) :
    Acts (.incidentFrameTaken port) s post := by
  have hwaiting : s.incidentWaiting port = true := by simp only [State.incidentWaiting, hqueue]
  refine ⟨_, ?_, hpost⟩
  change execIncidentFrameTaken port s = _
  unfold execIncidentFrameTaken
  rw [internal_acts hrunning hwaiting]
  simp only [hqueue]

end

theorem hear_eq {x : Ctx} {h : Hello} {p : PortState} : p.hear x h = { p with
    neighbour := some (match p.neighbour with
      | none => { hello := h, lastHeard := x.sec, migrated := false, previous := 255 }
      | some n =>
        if n.hello.spanId = h.spanId then { n with hello := h, lastHeard := x.sec }
        else { hello := h, lastHeard := x.sec, migrated := true, previous := n.hello.spanId })
    agingDue := some (x.now + 5000) } := rfl

/-- What a HELLO makes of the neighbour of a port, and whether the link has changed. -/
theorem hear_spec (x : Ctx) (h : Hello) (o : PortState) :
    let n := o.takeHead
    let becomes (e : Neighbour) (link : Bool) : Prop := n.hear x h = { n with neighbour := some e, agingDue := some (x.now + 5000) } ∧
      linkChanged o (n.hear x h) = link
    (o.neighbour = none → becomes { hello := h, lastHeard := x.sec, migrated := false, previous := 255 } true) ∧
    (∀ e, o.neighbour = some e → e.hello.spanId = h.spanId →
      becomes { e with hello := h, lastHeard := x.sec } (decide (e.hello ≠ h))) ∧
    (∀ e, o.neighbour = some e → e.hello.spanId ≠ h.spanId →
      becomes { hello := h, lastHeard := x.sec, migrated := true, previous := e.hello.spanId } true) := by
  intro n becomes
  have hsame : n.neighbour = o.neighbour := takeHead_neighbour o
  refine ⟨fun hnone => ?_, fun e he hspan => ?_, fun e he hspan => ?_⟩
  · have hhear : n.hear x h = { n with
        neighbour := some { hello := h, lastHeard := x.sec, migrated := false, previous := 255 }, agingDue := some (x.now + 5000) } := by
      rw [hear_eq, hsame, hnone]
    refine ⟨hhear, ?_⟩
    rw [hhear, linkChanged, hnone]
    rfl
  · have hhear : n.hear x h = { n with
        neighbour := some { e with hello := h, lastHeard := x.sec }, agingDue := some (x.now + 5000) } := by
      rw [hear_eq, hsame, he]
      simp only [if_pos hspan]
    refine ⟨hhear, ?_⟩
    rw [hhear, linkChanged, he]
    simp
  · have hhear : n.hear x h = { n with
        neighbour := some { hello := h, lastHeard := x.sec, migrated := true, previous := e.hello.spanId }
        agingDue := some (x.now + 5000) } := by
      rw [hear_eq, hsame, he]
      simp only [if_neg hspan]
    refine ⟨hhear, ?_⟩
    rw [hhear, linkChanged, he]
    have hne : e.hello ≠ h := fun heq => hspan (congrArg Hello.spanId heq)
    simpa using hne

theorem forward_eq (m : PortMail) (sec : DWord) (n : Notice) : m.forward sec n = { m with forwarded := m.forwarded ++
    if n.hops = 0 then [] else [{ notice := { n with hops := n.hops - 1 }, origin := .forwarded, joined := sec }] } := by
  unfold PortMail.forward
  split
  · rw [List.append_nil]
  · rfl

theorem port_notices (m : Mail) (l : List Notice) (p : Port) : ({ m with notices := l } : Mail).port p = m.port p := by
  cases p <;> rfl

/-- Settles O47: HELLO and INCIDENT frames are taken from the head of the receive queue. -/
theorem framesAreTakenFromTheReceiveQueue : Obligations.FramesAreTakenFromTheReceiveQueue := by
  refine fun port rest s hrunning => ⟨fun h hqueue => helloTaken_acts hrunning hqueue fun a ha => ?_,
    fun i hqueue => incidentFrameTaken_acts hrunning hqueue ?_⟩
  · obtain ⟨hnone, hsame, hother⟩ := hear_spec s.ctx h (s.link.get port)
    refine ⟨_, takeHead_takes (s.link.get port), fun h1 => ?_, fun e he hspan => ?_, fun e he hspan => ?_⟩
    · obtain ⟨hhear, hchanged⟩ := hnone h1
      rwa [hchanged, hhear] at ha
    · obtain ⟨hhear, hchanged⟩ := hsame e he hspan
      rwa [hchanged, hhear] at ha
    · obtain ⟨hhear, hchanged⟩ := hother e he hspan
      rwa [hchanged, hhear] at ha
  · refine ⟨_, takeHead_takes (s.link.get port), ?_⟩
    unfold State.takeIncidentFrame
    simp only [port_notices, forward_eq]
    exact portEvent_becomes_of_eq rfl (takeHead_neighbour (s.link.get port))

end Sys2Proof.Machine

/-! Frames that a port sends (R166, R171, R178; section 9.2). -/

namespace Sys2Proof.Machine

/-! ## Words in frames -/

theorem highByte_wordOf (low high : Byte) : highByte (wordOf low high) = high := by
  ext i hi
  have h8 : 8 + i < 16 := by omega
  have h16 : i < 16 := by omega
  simp [highByte, wordOf, h8, h16, BitVec.getLsbD_eq_getElem hi]

theorem lowByte_wordOf (low high : Byte) : lowByte (wordOf low high) = low := by
  ext i hi
  simp [lowByte, wordOf]

theorem bigEndian_ident (i : Ident) : bigEndian (identWord (some i)) = [i.span, i.seq] := by
  have hword : identWord (some i) = wordOf i.seq i.span := rfl
  rw [hword, bigEndian, highByte_wordOf, lowByte_wordOf]

/-! ## The frames of the transmit queue (R171) -/

theorem hello_frame_eq (s : State) : s.hello.frame = frameBytes 1 ([s.active.span.spanId] ++
    bigEndian (BitVec.ofNat 16 s.active.span.firstNiche) ++ [BitVec.ofNat 8 s.active.span.nicheCount] ++
    bigEndian (identWord s.incidents.governingIdent) ++ [1]) := rfl

theorem clip16_natCast (n : Nat) : clip16 n = min 65535 n := by
  rw [clip16_eq]
  omega

theorem aged_frame_eq (sec : DWord) (q : QueuedNotice) :
    let i := q.notice
    let state : Byte := if i.state = .active then 1 else if i.state = .acknowledged then 2 else 3
    let age : Word := BitVec.ofNat 16 (min 65535 (i.age.toNat + (sec - q.joined).toNat))
    (q.aged sec).frame = frameBytes 2 ([i.ident.span, i.ident.seq, state] ++ bigEndian i.position ++
      [i.template, i.mirror] ++ bigEndian age ++ [i.hops]) := by
  intro i state age
  have hage : (q.aged sec).age = age := by
    have hsum : ((i.age.toNat : Int) + (sec - q.joined).toNat) = ((i.age.toNat + (sec - q.joined).toNat : Nat) : Int) := rfl
    show wordNat (clip16 ((i.age.toNat : Int) + (sec - q.joined).toNat)) = age
    rw [hsum, clip16_natCast]
    rfl
  have hstate : i.state.code = state := by
    simp only [state, NoticeState.code]
    cases i.state <;> rfl
  unfold Notice.frame
  rw [hage, show (q.aged sec).state = i.state from rfl, hstate]
  rfl

/-! ## FRAME_BEGIN and FRAME_END (R178) -/

section
variable {s : State} {port : Port}

/-- The port may send: it is enabled and sends nothing, and its line has been idle for the gap. -/
def State.MayStart (s : State) (port : Port) : Prop :=
  let o := s.link.get port
  portEnabled s.active port = true ∧ o.transmission = none ∧
    o.idleSince + ((if port = .down then 2 else 3) + if o.ownLast then 4 else 0) ≤ s.now

theorem gap_eq (port : Port) (ownLast : Bool) : gap port ownLast = (if port = .down then 2 else 3) + if ownLast then 4 else 0 := by
  cases port <;> rfl

theorem mayBegin_iff : s.mayBegin port = true ↔ s.MayStart port ∧ (s.link.get port).hasFrame = true := by
  simp only [State.mayBegin, State.MayStart, gap_eq, Bool.and_eq_true, decide_eq_true_eq, Option.isNone_iff_eq_none, and_assoc]

theorem hasFrame_iff {p : PortState} : p.hasFrame = true ↔ p.pendingHold ≠ none ∨ (p.holdDue = none ∧ p.transmitQueue ≠ []) := by
  simp [PortState.hasFrame, Option.isSome_iff_ne_none]

theorem frameBegin_sends {n : PortState} (hrunning : s.running = true) (hfree : s.MayStart port)
    (hframe : (s.link.get port).hasFrame = true) (hn : s.beginFrame (s.link.get port) = n)
    (hneighbour : n.neighbour = (s.link.get port).neighbour) :
    Acts (.frameBegin port) s fun a => PortBecomes s a port n false := by
  refine ⟨State.portEvent port s.beginFrame s, ?_, portEvent_becomes_of_eq hn hneighbour⟩
  change execFrameBegin port s = _
  exact internal_acts hrunning (mayBegin_iff.mpr ⟨hfree, hframe⟩)

theorem frameBegin_waits (h : ¬(s.MayStart port ∧ (s.link.get port).hasFrame = true)) : exec (.frameBegin port) s = .next s := by
  change execFrameBegin port s = _
  exact internal_idle (by rw [Bool.eq_false_iff.mpr (mt mayBegin_iff.mp h), Bool.and_false])

theorem frameBegin_sends_hold {t : Byte} (hrunning : s.running = true) (hfree : s.MayStart port)
    (hold : (s.link.get port).pendingHold = some t) : Acts (.frameBegin port) s fun a =>
      PortBecomes s a port { s.link.get port with
        pendingHold := none, transmission := some { bytes := frameBytes 3 [t], began := s.now } } false := by
  refine frameBegin_sends hrunning hfree (hasFrame_iff.mpr (.inl (by rw [hold]; exact nofun))) ?_ rfl
  simp only [State.beginFrame, hold]
  rfl

theorem frameBegin_sends_entry {e : TxEntry} {rest : List TxEntry} (hrunning : s.running = true) (hfree : s.MayStart port)
    (hnone : (s.link.get port).pendingHold = none) (hdue : (s.link.get port).holdDue = none)
    (hqueue : (s.link.get port).transmitQueue = e :: rest) : Acts (.frameBegin port) s fun a =>
      PortBecomes s a port { s.link.get port with
        transmitQueue := rest, transmission := some { bytes := s.entryBytes e, began := s.now } } false := by
  refine frameBegin_sends hrunning hfree (hasFrame_iff.mpr (.inr ⟨hdue, by rw [hqueue]; exact nofun⟩)) ?_ rfl
  simp only [State.beginFrame, hnone, hqueue]

end

theorem frameOver_iff {s : State} {port : Port} {f : Transmission} (h : (s.link.get port).transmission = some f)
    (hover : f.bytes.length * 100 ≤ (s.now - f.began) * 576) : s.frameOver port = true := by
  simp only [State.frameOver, h, Transmission.over, decide_eq_true hover]

/-- The check value of section 9.2. -/
theorem crc_check : crc [0x31, 0x32, 0x33, 0x34, 0x35, 0x36, 0x37, 0x38, 0x39] = 0x29B1 := by decide +kernel

/-- Settles O50: a port chooses its next frame, sends it and ends it. -/
theorem framesAreChosenAndSent : Obligations.FramesAreChosenAndSent := by
  refine ⟨crc_check, fun kind body => rfl, fun port s hrunning => ⟨fun t hfree hold => ?_, fun rest hfree hnone hdue hqueue => ?_,
    fun q rest hfree hnone hdue hqueue => ?_, fun hnot => ?_, fun f hf hover => ?_⟩⟩
  · exact frameBegin_sends_hold hrunning hfree hold
  · have hsends := frameBegin_sends_entry hrunning hfree hnone hdue hqueue
    have hbytes : s.entryBytes .hello = _ := hello_frame_eq s
    rw [hbytes] at hsends
    refine ⟨fun hg => ?_, fun i hg => ?_⟩
    · rw [hg] at hsends
      exact hsends
    · rw [hg, bigEndian_ident] at hsends
      exact hsends
  · have hsends := frameBegin_sends_entry hrunning hfree hnone hdue hqueue
    have hbytes : s.entryBytes (.notice q) = _ := aged_frame_eq s.regs.seconds q
    rw [hbytes] at hsends
    exact hsends
  · refine frameBegin_waits fun ⟨hfree, hframe⟩ => ?_
    rw [hasFrame_iff] at hframe
    obtain hnot | ⟨hnone, hempty⟩ := hnot
    · exact hnot hfree
    · obtain ⟨hdue, hqueue⟩ := hframe.resolve_left (not_not_intro hnone)
      exact hempty.elim (fun h => h hdue) hqueue
  · exact portEvent_acts (act := fun s p => { p with transmission := none, idleSince := s.now, ownLast := true }) hrunning rfl
      (frameOver_iff hf hover) (portEvent_becomes_of_eq rfl rfl)

end Sys2Proof.Machine

/-! What a port makes of the bytes of a frame (section 9.2, R167, R168): frames that go on, that fail a check and that are good. -/

namespace Sys2Proof.Machine

/-! ## Sizes of frames -/

/-- The kinds of frames and the sizes of their bodies. -/
def Sized (kind : Byte) (size : Nat) : Prop := (kind = 1 ∧ size = 7) ∨ (kind = 2 ∧ size = 10) ∨ (kind = 3 ∧ size = 1)

theorem bodyLength_of_sized {kind : Byte} {size : Nat} (h : Sized kind size) : bodyLength kind = some size := by
  rcases h with ⟨rfl, rfl⟩ | ⟨rfl, rfl⟩ | ⟨rfl, rfl⟩ <;> rfl

theorem size_lt_of_sized {kind : Byte} {size : Nat} (h : Sized kind size) : (BitVec.ofNat 8 size).toNat = size := by
  rcases h with ⟨rfl, rfl⟩ | ⟨rfl, rfl⟩ | ⟨rfl, rfl⟩ <;> rfl

theorem bodyLength_none {kind : Byte} (h1 : kind ≠ 1) (h2 : kind ≠ 2) (h3 : kind ≠ 3) : bodyLength kind = none := by
  unfold bodyLength
  split
  next h => exact absurd (BitVec.toNat_inj.mp h : kind = 1) h1
  next h => exact absurd (BitVec.toNat_inj.mp h : kind = 2) h2
  next h => exact absurd (BitVec.toNat_inj.mp h : kind = 3) h3
  next => rfl

/-! ## Frames that go on -/

theorem frameProgress_of_begins {l : List Byte} (h : BeginsFrame l) : frameProgress l = .more := by
  obtain rfl | ⟨kind, size, hsized, rfl | ⟨part, hpart, rfl⟩⟩ := h
  · rfl
  · have hlength : (bodyLength kind).isSome = true := by
      rw [bodyLength_of_sized hsized]
      rfl
    exact if_pos hlength
  · unfold frameProgress
    simp only [bodyLength_of_sized hsized, size_lt_of_sized hsized, ne_eq, not_true_eq_false, if_false, if_pos hpart]

/-- A frame with as many bytes as its kind says. -/
def FrameShape (l : List Byte) : Prop :=
  ∃ kind size part, Sized kind size ∧ part.length = size + 2 ∧ l = Config.startMarker :: kind :: BitVec.ofNat 8 size :: part

theorem begins_of_prefix_header {kind : Byte} {size : Nat} {part l : List Byte} (hsized : Sized kind size)
    (hprefix : l <+: Config.startMarker :: kind :: BitVec.ofNat 8 size :: part) (hne : l ≠ []) (hlength : l.length < size + 5) :
    BeginsFrame l := by
  rcases l with _ | ⟨m, _ | ⟨kind', _ | ⟨len, rest⟩⟩⟩
  · exact absurd rfl hne
  · obtain ⟨rfl, -⟩ := List.cons_prefix_cons.mp hprefix
    exact .inl rfl
  · obtain ⟨rfl, htail⟩ := List.cons_prefix_cons.mp hprefix
    obtain ⟨rfl, -⟩ := List.cons_prefix_cons.mp htail
    exact .inr ⟨_, size, hsized, .inl rfl⟩
  · obtain ⟨rfl, htail⟩ := List.cons_prefix_cons.mp hprefix
    obtain ⟨rfl, hrest⟩ := List.cons_prefix_cons.mp htail
    obtain ⟨rfl, -⟩ := List.cons_prefix_cons.mp hrest
    simp only [List.length_cons] at hlength
    exact .inr ⟨_, size, hsized, .inr ⟨rest, by omega, rfl⟩⟩

theorem BeginsFrame.begins {l k : List Byte} (h : BeginsFrame l) (hprefix : k <+: l) (hne : k ≠ []) : BeginsFrame k := by
  obtain rfl | ⟨kind, size, hsized, hl⟩ := h
  · have hk : k = [Config.startMarker] := by
      refine hprefix.eq_of_length (Nat.le_antisymm hprefix.length_le ?_)
      exact List.length_pos_iff.mpr hne
    exact .inl hk
  · rcases hl with rfl | ⟨part, hpart, rfl⟩
    · have hlength := hprefix.length_le
      refine begins_of_prefix_header hsized (part := []) (hprefix.trans ⟨[BitVec.ofNat 8 size], rfl⟩) hne ?_
      simp only [List.length_cons, List.length_nil] at hlength
      omega
    · have hlength := hprefix.length_le
      refine begins_of_prefix_header hsized hprefix hne ?_
      simp only [List.length_cons] at hlength
      omega

theorem FrameShape.begins {l k : List Byte} (h : FrameShape l) (hprefix : k <+: l) (hne : k ≠ []) (hlt : k.length < l.length) :
    BeginsFrame k := by
  obtain ⟨kind, size, part, hsized, hpart, rfl⟩ := h
  refine begins_of_prefix_header hsized hprefix hne ?_
  simp only [List.length_cons] at hlt
  omega

/-! ## Whole frames -/

theorem bigEndian_eq_iff (c d : Byte) (w : Word) : [c, d] = bigEndian w ↔ wordOf d c = w := by
  constructor
  · intro h
    simp only [bigEndian, List.cons.injEq, and_true] at h
    obtain ⟨rfl, rfl⟩ := h
    exact wordOf_lowByte_highByte w
  · rintro rfl
    rw [bigEndian, highByte_wordOf, lowByte_wordOf]

/-- A whole frame is good by its check word and its body. -/
theorem frameProgress_whole {kind c d : Byte} {body : List Byte} (hsized : Sized kind body.length) :
    frameProgress (Config.startMarker :: kind :: BitVec.ofNat 8 body.length :: (body ++ [c, d])) =
      if [c, d] = bigEndian (crc (kind :: BitVec.ofNat 8 body.length :: body)) then
        ((readBody kind body).map Progress.good).getD .bad
      else .bad := by
  have hc : (body ++ [c, d])[body.length]?.getD 0 = c := by simp
  have hd : (body ++ [c, d])[body.length + 1]?.getD 0 = d := by simp
  have htake : (body ++ [c, d]).take body.length = body := by simp
  have hlength : ¬(body ++ [c, d]).length < body.length + 2 := by simp
  unfold frameProgress
  simp only [bodyLength_of_sized hsized, size_lt_of_sized hsized, ne_eq, not_true_eq_false, if_false, hlength, hc, hd, htake]
  have hiff := bigEndian_eq_iff c d (crc (kind :: BitVec.ofNat 8 body.length :: body))
  by_cases hcrc : wordOf d c = crc (kind :: BitVec.ofNat 8 body.length :: body)
  · rw [if_neg (not_not_intro hcrc), if_pos (hiff.mpr hcrc)]
    cases readBody kind body <;> rfl
  · rw [if_pos hcrc, if_neg (mt hiff.mp hcrc)]

theorem frameBytes_eq (kind : Byte) (body : List Byte) : frameBytes kind body = Config.startMarker :: kind ::
    BitVec.ofNat 8 body.length :: (body ++ [highByte (crc (kind :: BitVec.ofNat 8 body.length :: body)),
      lowByte (crc (kind :: BitVec.ofNat 8 body.length :: body))]) := rfl

theorem frameProgress_frameBytes {kind : Byte} {body : List Byte} (hsized : Sized kind body.length) :
    frameProgress (frameBytes kind body) = ((readBody kind body).map Progress.good).getD .bad := by
  rw [frameBytes_eq, frameProgress_whole hsized]
  exact if_pos rfl

theorem frameShape_whole {kind c d : Byte} {body : List Byte} (hsized : Sized kind body.length) :
    FrameShape (Config.startMarker :: kind :: BitVec.ofNat 8 body.length :: (body ++ [c, d])) :=
  ⟨kind, body.length, body ++ [c, d], hsized, by simp, rfl⟩

/-! ## Bodies -/

/-- A byte of a body. -/
def byteAt (body : List Byte) (k : Nat) : Byte := body[k]?.getD 0

theorem readBody_hello (body : List Byte) : readBody 1 body =
    if validSpan (byteAt body 0) && byteAt body 6 == 1 then
      some (.queued (.hello { spanId := byteAt body 0, firstNiche := wordOf (byteAt body 2) (byteAt body 1)
                              nicheCount := byteAt body 3, governing := identOfWord (wordOf (byteAt body 5) (byteAt body 4)) }))
    else none := rfl

theorem readBody_incident (body : List Byte) : readBody 2 body =
    (NoticeState.ofCode (byteAt body 2)).bind fun st =>
      if (byteAt body 9).toNat ≤ 15 then
        some (.queued (.incident { ident := { span := byteAt body 0, seq := byteAt body 1 }, state := st
                                   position := wordOf (byteAt body 4) (byteAt body 3), template := byteAt body 5
                                   mirror := byteAt body 6, age := wordOf (byteAt body 8) (byteAt body 7), hops := byteAt body 9 }))
      else none := by
  have hread : readBody 2 body = match NoticeState.ofCode (byteAt body 2) with
    | none => none
    | some st =>
      if (byteAt body 9).toNat ≤ 15 then
        some (.queued (.incident { ident := { span := byteAt body 0, seq := byteAt body 1 }, state := st
                                   position := wordOf (byteAt body 4) (byteAt body 3), template := byteAt body 5
                                   mirror := byteAt body 6, age := wordOf (byteAt body 8) (byteAt body 7), hops := byteAt body 9 }))
      else none := rfl
  rw [hread]
  cases NoticeState.ofCode (byteAt body 2) <;> rfl

theorem ofCode_none {b : Byte} (h1 : b ≠ 1) (h2 : b ≠ 2) (h3 : b ≠ 3) : NoticeState.ofCode b = none := by
  unfold NoticeState.ofCode
  split
  next h => exact absurd (BitVec.toNat_inj.mp h : b = 1) h1
  next h => exact absurd (BitVec.toNat_inj.mp h : b = 2) h2
  next h => exact absurd (BitVec.toNat_inj.mp h : b = 3) h3
  next => rfl

theorem byteAt_of_some {body : List Byte} {k : Nat} {b : Byte} (h : body[k]? = some b) : byteAt body k = b := by
  rw [byteAt, h]
  rfl

theorem getElem_of_byteAt {body : List Byte} {k : Nat} {b : Byte} (hk : k < body.length) (h : byteAt body k = b) :
    body[k]? = some b := by
  rw [byteAt, List.getElem?_eq_getElem hk] at h
  rw [List.getElem?_eq_getElem hk]
  exact congrArg some h

theorem readBody_incident_none {body : List Byte} (hlength : body.length = 10)
    (h : (body[2]? ≠ some 1 ∧ body[2]? ≠ some 2 ∧ body[2]? ≠ some 3) ∨ ∃ b, body[9]? = some b ∧ 15 < b.toNat) :
    readBody 2 body = none := by
  rw [readBody_incident]
  rcases h with ⟨h1, h2, h3⟩ | ⟨b, hb, hhops⟩
  · rw [ofCode_none (mt (getElem_of_byteAt (by omega)) h1) (mt (getElem_of_byteAt (by omega)) h2)
      (mt (getElem_of_byteAt (by omega)) h3)]
    rfl
  · rw [byteAt_of_some hb]
    simp only [if_neg (Nat.not_le.mpr hhops)]
    cases NoticeState.ofCode (byteAt body 2) <;> rfl

theorem readBody_hello_none {body : List Byte} (hlength : body.length = 7)
    (h : body[0]? = some 0 ∨ body[0]? = some 255 ∨ body[6]? ≠ some 1) : readBody 1 body = none := by
  rw [readBody_hello]
  refine if_neg ?_
  rw [Bool.and_eq_true, beq_iff_eq]
  rintro ⟨hspan, hversion⟩
  have hvalid (hbad : byteAt body 0 = 0 ∨ byteAt body 0 = 255) : False := by
    rw [(validSpan_eq_false_iff _).mpr hbad] at hspan
    exact nomatch hspan
  rcases h with h | h | h
  · exact hvalid (.inl (byteAt_of_some h))
  · exact hvalid (.inr (byteAt_of_some h))
  · exact h (getElem_of_byteAt (by omega) hversion)

/-! ## Frames that fail a check, and good ones -/

theorem frameProgress_of_fails {l : List Byte} (h : FailsCheck l) : frameProgress l = .bad ∧
    ∀ k, k <+: l → k ≠ [] → k.length < l.length → BeginsFrame k := by
  obtain ⟨m, rfl, hm⟩ | ⟨kind, rfl, h1, h2, h3⟩ | ⟨kind, len, rfl, hlen⟩ | ⟨kind, body, c, d, hsized, rfl, hcrc⟩ |
    ⟨kind, body, hsized, rfl, hbody⟩ := h
  · refine ⟨if_neg hm, fun k _ hne hlt => absurd hlt ?_⟩
    have := List.length_pos_iff.mpr hne
    simp only [List.length_singleton]
    omega
  · refine ⟨?_, fun k hprefix hne hlt => ?_⟩
    · have hnone : (bodyLength kind).isSome = false := by rw [bodyLength_none h1 h2 h3]; rfl
      exact if_neg (by rw [hnone]; exact nofun)
    · exact begins_of_prefix_header (kind := 1) (size := 7) (.inl ⟨rfl, rfl⟩) (part := []) (by
        rcases k with _ | ⟨m, _ | ⟨m', rest⟩⟩
        · exact absurd rfl hne
        · obtain ⟨rfl, -⟩ := List.cons_prefix_cons.mp hprefix
          exact ⟨_, rfl⟩
        · simp only [List.length_cons, List.length_nil] at hlt
          omega) hne (by
        simp only [List.length_cons, List.length_nil] at hlt
        omega)
  · obtain ⟨size, hsized, hne⟩ : ∃ size, Sized kind size ∧ len.toNat ≠ size := by
      have hnat {x y : Byte} (h : x ≠ y) : x.toNat ≠ y.toNat := mt BitVec.toNat_inj.mp h
      rcases hlen with ⟨rfl, h⟩ | ⟨rfl, h⟩ | ⟨rfl, h⟩
      · exact ⟨7, .inl ⟨rfl, rfl⟩, hnat h⟩
      · exact ⟨10, .inr (.inl ⟨rfl, rfl⟩), hnat h⟩
      · exact ⟨1, .inr (.inr ⟨rfl, rfl⟩), hnat h⟩
    refine ⟨?_, fun k hprefix hk hlt => ?_⟩
    · unfold frameProgress
      simp only [bodyLength_of_sized hsized, if_pos hne]
    · simp only [List.length_cons, List.length_nil] at hlt
      have htwo : k <+: [Config.startMarker, kind] :=
        List.prefix_of_prefix_length_le hprefix ⟨[len], rfl⟩ (by simp only [List.length_cons, List.length_nil]; omega)
      exact begins_of_prefix_header hsized (part := []) (htwo.trans ⟨[BitVec.ofNat 8 size], rfl⟩) hk (by omega)
  · exact ⟨(frameProgress_whole hsized).trans (if_neg hcrc), fun k => (frameShape_whole hsized).begins⟩
  · refine ⟨?_, fun k => (frameShape_whole hsized).begins⟩
    have hnone : readBody kind body = none := by
      rcases hbody with ⟨rfl, hbody⟩ | ⟨rfl, hbody⟩
      · refine readBody_incident_none ?_ hbody
        rcases hsized with ⟨h, -⟩ | ⟨-, h⟩ | ⟨h, -⟩
        · exact absurd h (by decide)
        · exact h
        · exact absurd h (by decide)
      · refine readBody_hello_none ?_ hbody
        rcases hsized with ⟨-, h⟩ | ⟨h, -⟩ | ⟨h, -⟩
        · exact h
        · exact absurd h (by decide)
        · exact absurd h (by decide)
    rw [frameProgress_frameBytes hsized, hnone]
    rfl

theorem frameProgress_of_spells {l : List Byte} {f : GoodFrame} (h : Spells l f) : frameProgress l = .good f ∧
    ∀ k, k <+: l → k ≠ [] → k.length < l.length → BeginsFrame k := by
  obtain ⟨span, niches, first, governing, h0, h255, rfl, rfl⟩ | ⟨n, hhops, rfl, rfl⟩ | ⟨t, rfl, rfl⟩ := h
  · have hsized : Sized 1 ([span] ++ bigEndian first ++ [niches] ++ bigEndian governing ++ [1]).length := .inl ⟨rfl, rfl⟩
    refine ⟨?_, fun k => (frameShape_whole hsized).begins⟩
    have hvalid : validSpan span = true := by
      rw [← Bool.not_eq_false, validSpan_eq_false_iff]
      exact fun h => h.elim h0 h255
    have hread : readBody 1 ([span] ++ bigEndian first ++ [niches] ++ bigEndian governing ++ [1]) = some (.queued (.hello {
        spanId := span, firstNiche := wordOf (lowByte first) (highByte first), nicheCount := niches
        governing := identOfWord (wordOf (lowByte governing) (highByte governing)) })) := by
      rw [readBody_hello]
      refine if_pos ?_
      show (validSpan span && (1 : Byte) == 1) = true
      rw [hvalid]
      rfl
    rw [frameProgress_frameBytes hsized, hread, wordOf_lowByte_highByte, wordOf_lowByte_highByte]
    rfl
  · have hsized : Sized 2 10 := .inr (.inl ⟨rfl, rfl⟩)
    refine ⟨?_, fun k => (frameShape_whole hsized).begins⟩
    unfold incidentBytes
    dsimp only
    rw [frameProgress_frameBytes hsized, readBody_incident]
    have hcode : NoticeState.ofCode (if n.state = .active then 1 else if n.state = .acknowledged then 2 else 3) = some n.state := by
      cases n.state <;> rfl
    simp only [byteAt, List.getElem?_cons_zero, List.getElem?_cons_succ, Option.getD_some, hcode, Option.bind_some, if_pos hhops,
      wordOf_lowByte_highByte]
    rfl
  · have hsized : Sized 3 [t].length := .inr (.inr ⟨rfl, rfl⟩)
    refine ⟨?_, fun k => (frameShape_whole hsized).begins⟩
    rw [frameProgress_frameBytes hsized]
    rfl

end Sys2Proof.Machine

/-! The bytes that arrive at a port (R168 to R170, section 9.2). -/

namespace Sys2Proof.Machine

/-! ## Lists of bytes -/

section
variable {x : Ctx} {p c : PortState} {b : Byte} {bytes z y : List Byte} {f : GoodFrame}

/-- The port when a byte has been heard. -/
def PortState.heard (x : Ctx) (p : PortState) : PortState := { p with idleSince := x.now, ownLast := false }

/-- The port when the bytes that arrive at an enabled port have been handled. -/
def PortState.arrive (x : Ctx) (p : PortState) (bytes : List Byte) : PortState := bytes.foldl (PortState.byteArrives x true) p

theorem arrive_cons : p.arrive x (b :: y) = ((p.settle x.now).receive x b).arrive x y := rfl

theorem arrive_append : p.arrive x (z ++ y) = (p.arrive x z).arrive x y := List.foldl_append

/-- The line has just been busy, and the port takes no byte before it is idle again. -/
def PortState.Deaf (x : Ctx) (p : PortState) : Prop :=
  p.heard x = p ∧ (p.ignoring = true ∨ p.receiving = [])

theorem idleSince_of_heard (h : p.heard x = p) : p.idleSince = x.now := (congrArg PortState.idleSince h).symm

theorem arrive_of_deaf (h : p.Deaf x) : p.arrive x bytes = p := by
  obtain ⟨hheard, hdeaf⟩ := h
  have hbusy : x.now < p.idleSince + 2 := by
    rw [idleSince_of_heard hheard]
    omega
  induction bytes with
  | nil => rfl
  | cons b y ih =>
    rw [arrive_cons, settle_busy hbusy, receive_ignored b (hdeaf.imp_right fun h => ⟨h, hbusy⟩)]
    exact (congrArg (·.arrive x y) hheard).trans ih

theorem arrive_of_disabled (hne : bytes ≠ []) : bytes.foldl (PortState.byteArrives x false) p = p.heard x := by
  have hstays (l : List Byte) : l.foldl (PortState.byteArrives x false) (p.heard x) = p.heard x := by
    induction l with
    | nil => rfl
    | cons b y ih => exact ih
  cases bytes with
  | nil => exact absurd rfl hne
  | cons b y => exact hstays y

/-- The port is between frames or inside one, and takes the next byte. -/
structure PortState.Ready (x : Ctx) (p c : PortState) : Prop where
  settles : p.settle x.now = c
  attends : c.ignoring = false
  takes : c.receiving ≠ [] ∨ c.idleSince + 2 ≤ x.now

/-- The port when bytes of a frame have been taken. -/
def PortState.inside (x : Ctx) (c : PortState) (l : List Byte) : PortState := { c.heard x with receiving := l }

theorem Ready.inside (h : c.ignoring = false) {l : List Byte} (hne : l ≠ []) :
    PortState.Ready x (c.inside x l) (c.inside x l) :=
  ⟨settle_busy (Nat.lt_add_of_pos_right Nat.two_pos), h, .inl hne⟩

/-- What the last byte of a frame makes of the port. -/
def PortState.ended (x : Ctx) (c : PortState) (g : Progress) (l : List Byte) : PortState :=
  match g with
  | .more => c.inside x l
  | .bad => { c.heard x with receiving := [], ignoring := true, rejected := satSucc c.rejected }
  | .good f => ({ c.heard x with receiving := [] }).takeGood x f

theorem receive_of_ready (h : PortState.Ready x p c) : (p.settle x.now).receive x b =
    c.ended x (frameProgress (c.receiving ++ [b])) (c.receiving ++ [b]) := by
  rw [h.settles, receive_taken b h.attends h.takes]
  cases frameProgress (c.receiving ++ [b]) <;> rfl

/-- Bytes that go on with the frame, and one more. -/
theorem arrive_snoc (h : PortState.Ready x p c) (hmore : ∀ k, k <+: z → k ≠ [] → frameProgress (c.receiving ++ k) = .more) :
    p.arrive x (z ++ [b]) = c.ended x (frameProgress (c.receiving ++ (z ++ [b]))) (c.receiving ++ (z ++ [b])) := by
  induction z generalizing p c with
  | nil => exact receive_of_ready h
  | cons a z ih =>
    have hfirst := hmore [a] ⟨z, rfl⟩ (List.cons_ne_nil _ _)
    have hrest (l : List Byte) : c.receiving ++ a :: l = c.receiving ++ [a] ++ l := by simp
    have hready := Ready.inside (x := x) h.attends (l := c.receiving ++ [a]) (by simp)
    have hnext := ih hready fun k hprefix hne =>
      (congrArg frameProgress (hrest k)).symm.trans
        (hmore (a :: k) (List.cons_prefix_cons.mpr ⟨rfl, hprefix⟩) (List.cons_ne_nil _ _))
    rw [List.cons_append, arrive_cons, receive_of_ready h, hfirst, hrest (z ++ [b])]
    exact hnext

theorem ended_deaf {g : Progress} {l : List Byte} (hend : g ≠ .more) : (c.ended x g l).Deaf x := by
  unfold PortState.ended
  cases g with
  | more => exact absurd rfl hend
  | bad => exact ⟨rfl, .inl rfl⟩
  | good f =>
    cases f with
    | hold t => exact ⟨rfl, .inr rfl⟩
    | queued g =>
      simp only [PortState.takeGood, PortState.joinReceive, PortState.markIfFilling]
      repeat' split
      all_goals exact ⟨rfl, .inr rfl⟩

theorem exists_snoc (hne : z ≠ []) : ∃ k b, z = k ++ [b] :=
  ⟨z.dropLast, z.getLast hne, (List.dropLast_concat_getLast hne).symm⟩

/-- The bytes up to the end of a frame, and bytes that are not taken. -/
theorem arrive_ends (h : PortState.Ready x p c) (hne : z ≠ [])
    (hend : frameProgress (c.receiving ++ z) ≠ .more)
    (hbegins : ∀ k, k <+: c.receiving ++ z → k ≠ [] → k.length < (c.receiving ++ z).length → BeginsFrame k) :
    p.arrive x (z ++ y) = c.ended x (frameProgress (c.receiving ++ z)) (c.receiving ++ z) := by
  obtain ⟨k, b, rfl⟩ := exists_snoc hne
  have hmore : ∀ l, l <+: k → l ≠ [] → frameProgress (c.receiving ++ l) = .more := fun l hprefix hl =>
    frameProgress_of_begins (hbegins _ ((List.prefix_append_right_inj _).mpr (hprefix.trans ⟨[b], rfl⟩)) (by simp [hl])
      (by have := hprefix.length_le; simp only [List.length_append, List.length_singleton]; omega))
  rw [arrive_append, arrive_snoc h hmore, arrive_of_deaf (ended_deaf hend)]

theorem arrive_goes_on (h : PortState.Ready x p c) (hne : z ≠ []) (hbegins : BeginsFrame (c.receiving ++ z)) :
    p.arrive x z = c.inside x (c.receiving ++ z) := by
  obtain ⟨k, b, rfl⟩ := exists_snoc hne
  have hmore : ∀ l, l <+: k → l ≠ [] → frameProgress (c.receiving ++ l) = .more := fun l hprefix hl =>
    frameProgress_of_begins (hbegins.begins ((List.prefix_append_right_inj _).mpr (hprefix.trans ⟨[b], rfl⟩)) (by simp [hl]))
  rw [arrive_snoc h hmore, frameProgress_of_begins hbegins]
  rfl

end

/-! ## The events of reception -/

section
variable {s : State} {port : Port} {bytes : List Byte} {n : PortState}

theorem frameReceive_becomes (hrunning : s.running = true)
    (hn : bytes.foldl (PortState.byteArrives s.ctx (portEnabled s.active port)) (s.link.get port) = n)
    (hneighbour : n.neighbour = (s.link.get port).neighbour) :
    Acts (.frameReceive port bytes) s fun a => PortBecomes s a port n false :=
  ⟨_, internal_acts hrunning rfl, portEvent_becomes_of_eq hn hneighbour⟩

theorem frameReceive_arrives (hrunning : s.running = true) (henabled : portEnabled s.active port = true)
    (hn : (s.link.get port).arrive s.ctx bytes = n) (hneighbour : n.neighbour = (s.link.get port).neighbour) :
    Acts (.frameReceive port bytes) s fun a => PortBecomes s a port n false := by
  refine frameReceive_becomes hrunning ?_ hneighbour
  rw [henabled]
  exact hn

theorem takeGood_neighbour (x : Ctx) (f : GoodFrame) (p : PortState) : (p.takeGood x f).neighbour = p.neighbour := by
  cases f with
  | hold t => rfl
  | queued g =>
    simp only [PortState.takeGood, PortState.joinReceive, PortState.markIfFilling]
    repeat' split
    all_goals rfl

/-- What the bytes of a frame make of a port that takes the next byte (the clauses of R168 and R169). -/
theorem frameReceive_ready {c : PortState} (hrunning : s.running = true) (henabled : portEnabled s.active port = true)
    (hne : bytes ≠ []) (hready : PortState.Ready s.ctx (s.link.get port) c)
    (hneighbour : c.neighbour = (s.link.get port).neighbour) :
    (∀ x y, bytes = x ++ y → FailsCheck (c.receiving ++ x) → x ≠ [] → Acts (.frameReceive port bytes) s fun a =>
      PortBecomes s a port { c.heard s.ctx with receiving := [], ignoring := true, rejected := satSucc c.rejected } false) ∧
    (∀ x y f, bytes = x ++ y → Spells (c.receiving ++ x) f → x ≠ [] → Acts (.frameReceive port bytes) s fun a => ∃ n,
      PortBecomes s a port n false ∧ TakesGood { c.heard s.ctx with receiving := [] } n s.now f) ∧
    (BeginsFrame (c.receiving ++ bytes) → Acts (.frameReceive port bytes) s fun a =>
      PortBecomes s a port { c.heard s.ctx with receiving := c.receiving ++ bytes } false) := by
  refine ⟨fun x y hbytes hfails hx => ?_, fun x y f hbytes hspells hx => ?_, fun hbegins => ?_⟩
  · obtain ⟨hbad, hbegins⟩ := frameProgress_of_fails hfails
    refine frameReceive_arrives hrunning henabled ?_ hneighbour
    rw [hbytes, arrive_ends hready hx (by rw [hbad]; exact nofun) hbegins, hbad]
    rfl
  · obtain ⟨hgood, hbegins⟩ := frameProgress_of_spells hspells
    have hends : (s.link.get port).arrive s.ctx bytes = ({ c.heard s.ctx with receiving := [] }).takeGood s.ctx f := by
      rw [hbytes, arrive_ends hready hx (by rw [hgood]; exact nofun) hbegins, hgood]
      rfl
    obtain ⟨a, hexec, ha⟩ := frameReceive_arrives hrunning henabled hends ((takeGood_neighbour _ _ _).trans hneighbour)
    exact ⟨a, hexec, _, ha, takeGood_takes s.ctx f _⟩
  · exact frameReceive_arrives hrunning henabled (arrive_goes_on hready hne hbegins) hneighbour

/-- The port when its line has been idle: bytes of a frame that broke off count as rejected. -/
theorem settle_of_idle {p : PortState} {now : Nat} (hidle : p.idleSince + 2 ≤ now) : p.settle now = { p with
    receiving := [], ignoring := false, rejected := if p.receiving = [] then p.rejected else satSucc p.rejected } := by
  by_cases hempty : p.receiving = []
  · rw [settle_idle hidle hempty, if_pos hempty, ← hempty]
  · rw [settle_part hidle hempty, if_neg hempty]

theorem mayTakeHold_iff : s.mayTakeHold port = true ↔ portEnabled s.active port = true ∧ (s.link.get port).idleSince + 2 ≤ s.now := by
  rw [State.mayTakeHold, Bool.and_eq_true, idleTwo_iff]

end

/-- Settles O46: what a port makes of the bytes of its line. -/
theorem receivedBytesMakeGoodOrRejectedFrames : Obligations.ReceivedBytesMakeGoodOrRejectedFrames := by
  intro port bytes s hrunning o enabled idle heard settled receives
  have hsettled (hidle : idle) : o.settle s.now = settled := settle_of_idle hidle
  have hbusy (hidle : ¬idle) : s.now < o.idleSince + 2 := Nat.lt_of_not_le hidle
  refine ⟨fun hne hdeaf => ?_, fun hne henabled hidle => ?_, fun hne henabled hidle hattends hinside => ?_, fun t henabled hidle => ?_,
    fun t hnot => ?_, fun hinside hidle => ?_, fun hignoring hidle => ?_⟩
  · by_cases henabled : enabled
    · obtain ⟨hidle, hdeaf⟩ := hdeaf.resolve_left (not_not_intro henabled)
      refine frameReceive_arrives hrunning henabled ?_ rfl
      cases bytes with
      | nil => exact absurd rfl hne
      | cons b y =>
        have hsettles : o.settle s.ctx.now = o := settle_busy (hbusy hidle)
        have hfirst := receive_ignored (x := s.ctx) b (hdeaf.imp_right fun h => ⟨h, hbusy hidle⟩)
        rw [arrive_cons, hsettles, hfirst]
        exact arrive_of_deaf ⟨rfl, hdeaf⟩
    · refine frameReceive_becomes hrunning ?_ rfl
      rw [Bool.eq_false_iff.mpr henabled]
      exact arrive_of_disabled hne
  · exact frameReceive_ready hrunning henabled hne ⟨hsettled hidle, rfl, .inr hidle⟩ rfl
  · exact frameReceive_ready hrunning henabled hne ⟨settle_busy (hbusy hidle), hattends, .inl hinside⟩ rfl
  · have hact : ((o.settle s.now).heard s.ctx).takeHold s.ctx t = (settled.heard s.ctx).takeHold s.ctx t := by
      rw [hsettled hidle]
    refine ⟨_, internal_acts hrunning (mayTakeHold_iff.mpr ⟨henabled, hidle⟩), _, portEvent_becomes_of_eq hact rfl, ?_⟩
    exact takeGood_takes s.ctx (.hold t) (heard settled)
  · change execHold port t s = _
    refine internal_idle ?_
    have hmay : s.mayTakeHold port = false := by
      rw [Bool.eq_false_iff, ne_eq, mayTakeHold_iff]
      exact not_and_or.mpr hnot
    rw [hmay, Bool.and_false]
  · have hdue : s.frameBroken port = true := by
      rw [State.frameBroken, idleTwo_iff.mpr hidle]
      simpa using hinside
    exact ⟨_, internal_acts hrunning hdue, portEvent_becomes_of_eq rfl rfl⟩
  · have hdue : s.ignoringEnds port = true := by
      rw [State.ignoringEnds, hignoring, idleTwo_iff.mpr hidle]
      rfl
    exact ⟨_, internal_acts hrunning hdue, portEvent_becomes_of_eq rfl rfl⟩

end Sys2Proof.Machine

/-! What the commit of a LOAD does to the block of its item (R53, R73, R84, R129, R150). -/

namespace Sys2Proof.Machine

/-! ## The commit of a card that may load -/

section
variable {s : State} {t : Take} {r : ItemRef}

/-- A LOAD that nothing refuses commits the item and answers DONE. -/
theorem loadCard_acts {post : State → Prop} (h : s.MayLoad t r)
    (hpost : ∀ a, post ((s.commit r).reply t a)) : Acts .loadCard s post := by
  obtain ⟨hcard, hcls, hidx, hspan, hallowed, hfree, hchecks⟩ := h
  refine ⟨_, exec_loadCard hcard (loadTarget_eq hcls.symm hidx.symm) hfree, ?_⟩
  rw [loadItem_commits hspan hallowed hchecks]
  exact hpost _

theorem committed_reply (b : State) (a : Answer) :
    s.committed (b.reply t a) r = (s.storeItem r).reply t a := rfl

end

/-! ## Gates, zones and channels (R53, R73, R84) -/

theorem rebind_rebinds (gate : Option (Fin 4)) (p : Pulse) : Rebinds p (p.rebind gate) gate := by
  refine ⟨fun hnone => ?_, fun g hg hsame => ?_, fun g hg hbound hpending => ?_⟩ <;> subst gate
  · rfl
  · refine if_pos ?_
    rcases hsame with h | h <;> simp only [Pulse.aim, h]
  · refine if_neg ?_
    unfold Pulse.aim
    cases hb : p.binding with
    | none => exact nofun
    | bound k => exact fun h => hbound (hb.trans (congrArg Binding.bound (Option.some.inj h)))
    | pending k => exact fun h => hpending (hb.trans (congrArg Binding.pending (Option.some.inj h)))

section
variable (s : State) (c : Fin 12)

/-- The mail of a loaded channel: the card that waits for a zero is answered, and the zones are looked at again. -/
def State.channelMail : Mail :=
  let old := s.active.channels[c].zone
  let zone := (s.storeItem (.channel c)).active.channels[c].zone
  let m := (s.mail.complete s.channels[c].zeroCard.toList (.plain .overtaken 0 0)).reevaluate old
  if zone = old then m else m.reevaluate zone

theorem loadChannel_mail : (s.loadChannel c).mail = s.channelMail c := rfl

theorem channelMail_frame : s.channelMail c = { s.mail with
    completions := (s.channelMail c).completions, reevaluations := (s.channelMail c).reevaluations } := by
  unfold State.channelMail
  simp only
  generalize s.active.channels[c].zone = old
  generalize (s.storeItem (.channel c)).active.channels[c].zone = zone
  split
  · cases old <;> rfl
  · cases old <;> cases zone <;> rfl

theorem channelMail_completions (d : Fin 4) : (s.channelMail c).completions[d] =
    if s.channels[c].zeroCard = some d then some (.plain .overtaken 0 0) else s.mail.completions[d] := by
  rw [← complete_card]
  unfold State.channelMail
  simp only
  split <;> simp only [reevaluate_completions]

theorem channelMail_reevaluations (z : Fin 8) : (s.channelMail c).reevaluations[z] = s.mail.reevaluations[z] +
    if s.active.channels[c].zone = some z ∨ (s.storeItem (.channel c)).active.channels[c].zone = some z then 1 else 0 := by
  unfold State.channelMail
  simp only
  have hcomplete (l : List (Fin 4)) (a : Answer) : (s.mail.complete l a).reevaluations = s.mail.reevaluations := rfl
  generalize s.active.channels[c].zone = old
  generalize (s.storeItem (.channel c)).active.channels[c].zone = zone
  by_cases hsame : zone = old
  · subst hsame
    rw [if_pos rfl, reevaluate_get, hcomplete]
    simp only [or_self]
  · rw [if_neg hsame, reevaluate_get, reevaluate_get, hcomplete]
    by_cases hold : old = some z
    · subst hold
      rw [if_pos rfl, if_neg hsame, if_pos (.inl rfl)]
    · by_cases hzone : zone = some z
      · rw [if_neg hold, if_pos hzone, if_pos (.inr hzone)]
      · rw [if_neg hold, if_neg hzone, if_neg (not_or.mpr ⟨hold, hzone⟩)]

end

/-! ## Templates (R150) -/

theorem placementFrame_reply {s a : State} (h : PlacementFrame s a) (t : Take) (r : Answer) :
    PlacementFrame { s with executor := (a.reply t r).executor } (a.reply t r) := by
  obtain ⟨hrecord, hplacements, hdeficits, hrest⟩ := h
  exact ⟨hrecord, hplacements, hdeficits, congrArg (State.reply t r) hrest⟩

/-- A new template places again when it governs. -/
theorem template_event (p : State) (i : Fin 8) :
    let a := p.placementEvent (decide (p.placement.governing.map (·.template) = some i)) id
    a.placement.governing = p.placement.governing ∧ a.placement.available = p.placement.available ∧
    (∀ g, p.placement.governing = some g → g.template = i →
      PlacementFor a.active g a.placement.available a.placement.record) ∧
    ((∀ g, p.placement.governing = some g → g.template ≠ i) → a.placement.record = p.placement.record) ∧
    PlacementFrame p a := by
  intro a
  have hframe : PlacementFrame p a := placementEvent_frame p _ id rfl
  by_cases hgoverns : p.placement.governing.map (·.template) = some i
  · have hplacement : a.placement = p.placement.place p.ctx := if_pos (decide_eq_true hgoverns)
    obtain ⟨hgoverning, hfor, -⟩ := place_places (p := p) hplacement
    refine ⟨hgoverning, ?_, fun g hg _ => hfor g hg, fun hother => ?_, hframe⟩
    · rw [hplacement]
      exact place_available p.ctx p.placement
    · obtain ⟨g, hg, htemplate⟩ := Option.map_eq_some_iff.mp hgoverns
      exact absurd htemplate (hother g hg)
  · have hplacement : a.placement = p.placement := if_neg (by rw [decide_eq_false hgoverns]; exact nofun)
    refine ⟨by rw [hplacement], by rw [hplacement], fun g hg htemplate => absurd ?_ hgoverns, fun _ => by rw [hplacement], hframe⟩
    rw [hg, Option.map_some, htemplate]

/-- Settles O51: what a LOAD makes of a gate, a channel, a zone and the placement. -/
theorem loadedGatesChannelsZonesAndTemplatesAct : Obligations.LoadedGatesChannelsZonesAndTemplatesAct := by
  refine fun t s => ⟨fun g h => loadCard_acts h fun _ => rfl, fun c h => loadCard_acts h fun a => ?_,
    fun z h => loadCard_acts h fun _ => rfl, fun i h => loadCard_acts h fun a => ?_⟩
  · refine ⟨rfl, ⟨_, setFilter_takes _ _, ?_⟩, fun k hk => modify_get_other _ _ hk, channelMail_completions s c,
      channelMail_reevaluations s c, ?_⟩
    · have hmeasured : ((s.loadChannel c).reply t a).measured[c] = _ := modify_get_same s.measured c _
      exact hmeasured ▸ rebind_rebinds _ _
    · have hmail := channelMail_frame s c
      exact congrArg (fun m : Mail => ({ (s.loadChannel c).reply t a with mail := m } : State)) hmail
  · obtain ⟨hgoverning, havailable, hplaces, hstays, hframe⟩ := template_event (s.storeItem (.template i)) i
    exact ⟨hgoverning, havailable, hplaces, hstays, placementFrame_reply hframe t a⟩

end Sys2Proof.Machine

/-! What the commit of a LOAD does to the fans, the doors, the gallery and the link (R108, R128, R164). -/

namespace Sys2Proof.Machine

/-! ## The contact inputs of an item -/

section
variable {cfg : ActiveConfig} {i : Fin 36}

theorem contactSetting_fan {f : Fin 8} {k : Nat} (hi : i.val = 12 + 3 * f.val + k) (hk : k < 3) : contactSetting cfg i =
    if k = 0 then cfg.fans[f].running else if k = 1 then cfg.fans[f].fault else cfg.fans[f].localSwitch := by
  have hfan : (⟨(i.val - 12) / 3, by omega⟩ : Fin 8) = f := Fin.ext (by show (i.val - 12) / 3 = f.val; omega)
  have hmod : i.val % 3 = k := by omega
  have hdoor : ¬i.val < 12 := by omega
  unfold contactSetting
  rw [dif_neg hdoor]
  simp only [hfan, hmod]
  obtain rfl | rfl | rfl : k = 0 ∨ k = 1 ∨ k = 2 := by omega
  all_goals rfl

theorem contactSetting_door {d : Fin 4} {k : Nat} (hi : i.val = 3 * d.val + k) (hk : k < 3) : contactSetting cfg i =
    if k = 0 then cfg.doors[d].closed else if k = 1 then cfg.doors[d].bolted else cfg.doors[d].push := by
  have hthis : (⟨i.val / 3, by omega⟩ : Fin 4) = d := Fin.ext (by show i.val / 3 = d.val; omega)
  have hmod : i.val % 3 = k := by omega
  have hdoor : i.val < 12 := by omega
  unfold contactSetting
  rw [dif_pos hdoor]
  simp only [hthis, hmod]
  obtain rfl | rfl | rfl : k = 0 ∨ k = 1 ∨ k = 2 := by omega
  all_goals rfl

end

theorem threeInputs_some {first i : Fin 36} {x y z : ContactSetting} {k : Nat} (hi : i.val = first.val + k) (hk : k < 3) :
    threeInputs first x y z i = some (if k = 0 then x else if k = 1 then y else z) := by
  unfold threeInputs
  obtain rfl | rfl | rfl : k = 0 ∨ k = 1 ∨ k = 2 := by omega
  all_goals simp [hi]

theorem threeInputs_none {first i : Fin 36} {x y z : ContactSetting} (h : i.val < first.val ∨ first.val + 3 ≤ i.val) :
    threeInputs first x y z i = none := by
  unfold threeInputs
  rw [if_neg (by omega), if_neg (by omega), if_neg (by omega)]

/-- The three contact inputs of an item take its settings, and no other input does. -/
theorem configureContacts_takes (t : State) {first : Fin 36} {owned : Fin 36 → Bool} {x y z : ContactSetting}
    (howned : ∀ i : Fin 36, owned i = true ↔ i.val = first.val ∨ i.val = first.val + 1 ∨ i.val = first.val + 2)
    (hset : ∀ (i : Fin 36) (k : Nat), i.val = first.val + k → k < 3 →
      contactSetting t.active i = if k = 0 then x else if k = 1 then y else z) :
    TakesSettings t (t.configureContacts owned) (threeInputs first x y z) := by
  intro i
  have hget : (t.configureContacts owned).contacts[i] =
    if owned i then t.contacts[i].configure (contactSetting t.active i) else t.contacts[i] := Vector.getElem_ofFn _
  by_cases ho : owned i = true
  · have hi := (howned i).mp ho
    obtain ⟨k, hk, hi⟩ : ∃ k, k < 3 ∧ i.val = first.val + k := ⟨i.val - first.val, by omega, by omega⟩
    rw [hget, if_pos ho, hset i k hi hk, threeInputs_some hi hk]
    refine ⟨nofun, fun c hc => ?_⟩
    cases hc
    rfl
  · have hi := mt (howned i).mpr ho
    rw [hget, if_neg ho, threeInputs_none (by omega)]
    exact ⟨fun _ => rfl, nofun⟩

/-! ## Fans (R108) -/

/-- A fan takes the demand of its zones and the target that follows. -/
def FanUnit.takeLevel (x : Ctx) (f : Fin 8) (u : FanUnit) : FanUnit :=
  (u.change f fun e => { e with demand := u.demandOf x.cfg f }).recompute x f

theorem load_eq (x : Ctx) (f : Fin 8) (u : FanUnit) : u.load x f = (u.change f (Fan.load x.cfg.fans[f])).takeLevel x f := rfl

/-- An event may as well begin after a change that leaves the fans' states, owners and targets. -/
theorem fanEvent_from {s : State} {u : FanUnit} {act act' : FanUnit → FanUnit} (hact : act' u = act s.fans)
    (hsame : ∀ k : Fin 8, u.fans[k].target = s.fans.fans[k].target ∧ u.fans[k].owner = s.fans.fans[k].owner ∧
      u.fans[k].state = s.fans.fans[k].state) :
    State.fanEvent act' { s with fans := u } = s.fanEvent act := by
  have hovertakes (v : FanUnit) : (fun k : Fin 8 => overtakes u.fans[k] v.fans[k]) = fun k => overtakes s.fans.fans[k] v.fans[k] := by
    funext k
    obtain ⟨htarget, howner, -⟩ := hsame k
    rw [overtakes, overtakes, htarget, howner]
  have havailable (v : FanUnit) (m : Vector (List Bool) 8) : availabilityMail u v m = availabilityMail s.fans v m := by
    unfold availabilityMail
    congr 1
    funext k
    rw [(hsame k).2.2]
  have hover (v : FanUnit) (k : Fin 8) : overtakes u.fans[k] v.fans[k] = overtakes s.fans.fans[k] v.fans[k] :=
    congrFun (hovertakes v) k
  unfold State.fanEvent
  simp only [hact, hover, havailable]
  rfl

section
variable (p : State) (f : Fin 8)

theorem takeLevel_event :
    let a := p.fanEvent (FanUnit.takeLevel p.ctx f)
    let n := a.fans.fans[f]
    DemandIsHighest p.active a.fans f ∧ OwnedByHighest p.active a.fans f ∧ FollowsOwner p.active a.fans f ∧
      PursuesTarget p a f { p.fans.fans[f] with demand := n.demand, owner := n.owner, target := n.target } ∧
      FanEventFrame p a (· = f) := by
  intro a n
  obtain ⟨u, hu⟩ : ∃ u, u = p.fans.change f fun e => { e with demand := p.fans.demandOf p.active f } := ⟨_, rfl⟩
  have hact : p.fans.takeLevel p.ctx f = u.recompute p.ctx f := by rw [hu]; rfl
  have hfan : u.fans[f] = { p.fans.fans[f] with demand := p.fans.demandOf p.active f } := by rw [hu]; exact change_same _ f _
  have hbrings : Brings p (FanUnit.takeLevel p.ctx f) f (u.recompute p.ctx f) := .of_eq hact
  obtain ⟨howned, hfollows, hpursues⟩ := recomputed_event hact (by rw [hu]; exact .rfl) (by rw [hfan])
  have hlevel : n.demand = p.fans.demandOf p.active f := by
    refine (hbrings.moved.demand.trans (recompute_claims p.ctx f u).1).trans ?_
    rw [hfan]
  rw [hfan] at hpursues
  refine ⟨demandIsHighest_of_demandOf ?_ hlevel, howned, hfollows, ?_, ?_⟩
  · rw [fanEvent_zoneDemand, hact, (recompute_oneFan p.ctx f u).zoneDemand, hu]
    rfl
  · rw [hlevel]
    exact hpursues
  · refine OneFan.frame ?_ ?_
    · rw [hact]
      have hone : OneFan f p.fans u := by rw [hu]; exact change_oneFan rfl (fun _ => rfl) id
      exact hone.trans (recompute_oneFan p.ctx f u)
    · rw [hact]
      refine (recompute_placed p.ctx f u).of_samePlace (by rw [hu]; rfl) ?_
      rw [hu]
      exact change_samePlace ⟨rfl, rfl, rfl, rfl⟩

end

section
variable (s : State) (f : Fin 8)

/-- The state with the loaded fan item, its contacts and its tachometer, before the fan looks for its target. -/
def State.fanStaged : State :=
  let t := (s.storeItem (.fan f)).configureContacts fun i =>
    decide (i = fanInput f 0) || decide (i = fanInput f 1) || decide (i = fanInput f 2)
  let item := t.active.fans[f]
  { t with tach := modify t.tach f (Pulse.rebind item.tachGate), fans := t.fans.change f (Fan.load item) }

/-- The loaded fan with its new target. -/
def State.fanLoaded : State := (s.fanStaged f).fanEvent (FanUnit.takeLevel (s.fanStaged f).ctx f)

/-- The fan items that the placement is told of. -/
def State.fanTold : Nat :=
  if s.active.fans[f].role = (s.fanStaged f).active.fans[f].role ∧ s.active.fans[f].niche = (s.fanStaged f).active.fans[f].niche
  then 0 else 1

/-- More fan items for the placement. -/
def State.tellFan (told : Nat) (s : State) : State :=
  { s with mail := { s.mail with fanItems := s.mail.fanItems.set f (s.mail.fanItems[f] + told) } }

theorem tellFan_zero : s.tellFan f 0 = s := by
  have hset : s.mail.fanItems.set f (s.mail.fanItems[f] + 0) = s.mail.fanItems := Vector.set_getElem_self _
  exact congrArg (fun items => ({ s with mail := { s.mail with fanItems := items } } : State)) hset

theorem loadFan_eq : s.loadFan f = (s.fanLoaded f).tellFan f (s.fanTold f) := by
  have hevent : s.fanLoaded f = State.fanEvent (FanUnit.load (s.fanStaged f).ctx f) { s.fanStaged f with fans := s.fans } := by
    refine fanEvent_from (s := { s.fanStaged f with fans := s.fans }) (u := (s.fanStaged f).fans) rfl fun k => ?_
    have hfans : (s.fanStaged f).fans = s.fans.change f (Fan.load (s.fanStaged f).active.fans[f]) := rfl
    rw [hfans]
    by_cases hk : k = f
    · subst hk
      rw [change_same]
      exact ⟨rfl, rfl, rfl⟩
    · rw [change_other _ _ hk]
      exact ⟨rfl, rfl, rfl⟩
  rw [hevent]
  unfold State.fanTold
  by_cases htold : s.active.fans[f].role = (s.fanStaged f).active.fans[f].role ∧
      s.active.fans[f].niche = (s.fanStaged f).active.fans[f].niche
  · rw [if_pos htold, tellFan_zero]
    exact if_pos htold
  · rw [if_neg htold]
    exact if_neg htold

theorem fanStaged_contacts : TakesSettings s (s.fanStaged f) (threeInputs (fanInput f 0)
    (s.fanStaged f).active.fans[f].running (s.fanStaged f).active.fans[f].fault (s.fanStaged f).active.fans[f].localSwitch) := by
  refine configureContacts_takes (s.storeItem (.fan f)) (fun i => ?_) fun i k hi hk => contactSetting_fan hi hk
  simp only [Bool.or_eq_true, decide_eq_true_eq, Fin.ext_iff, fanInput, or_assoc]
  exact Iff.rfl

theorem fanEventFrame_tellFan {p a : State} {acted : Fin 8 → Prop} (h : FanEventFrame p a acted) (told : Nat) :
    FanEventFrame (p.tellFan f told) (a.tellFan f told) acted := by
  obtain ⟨hrests, hwaits, hslots, horder, hzones, hgallery, havailable, hattached, hdetached, hrest⟩ := h
  exact ⟨hrests, hwaits, hslots, horder, hzones, hgallery, havailable, hattached, hdetached, congrArg (State.tellFan f told) hrest⟩

end

/-- What a LOAD makes of a fan. -/
theorem loadFan_acts {t : Take} {s : State} {f : Fin 8} (h : s.MayLoad t (.fan f)) : Acts .loadCard s fun a =>
    let q := s.committed a (.fan f)
    let old := s.active.fans[f]
    let item := q.active.fans[f]
    let o := s.fans.fans[f]
    let n := a.fans.fans[f]
    let told := if old.role = item.role ∧ old.niche = item.niche then 0 else 1
    let loaded := { o with underspeed := false, lastRpm := if item.tachGate = none then 0 else o.lastRpm }
    let p := { q with
      contacts := a.contacts, tach := a.tach, fans := { s.fans with fans := s.fans.fans.set f loaded }
      mail := { s.mail with fanItems := s.mail.fanItems.set f (s.mail.fanItems[f] + told) } }
    TakesSettings s a (threeInputs (fanInput f 0) item.running item.fault item.localSwitch) ∧
    Rebinds s.tach[f] a.tach[f] item.tachGate ∧ (∀ k : Fin 8, k ≠ f → a.tach[k] = s.tach[k]) ∧
    DemandIsHighest a.active a.fans f ∧ OwnedByHighest a.active a.fans f ∧ FollowsOwner a.active a.fans f ∧
    PursuesTarget p a f { loaded with demand := n.demand, owner := n.owner, target := n.target } ∧
    FanEventFrame p a (· = f) := by
  refine loadCard_acts h fun r => ?_
  have hcommit : s.commit (.fan f) = (s.fanLoaded f).tellFan f (s.fanTold f) := loadFan_eq s f
  obtain ⟨hdemand, howned, hfollows, hpursues, hframe⟩ := takeLevel_event (s.fanStaged f) f
  have hsame : (s.fanStaged f).fans.fans[f] = _ := set_get_same s.fans.fans f _
  rw [hsame] at hpursues
  have htach : (s.fanStaged f).tach[f] = _ := modify_get_same s.tach f _
  have hrebinds : Rebinds s.tach[f] (s.fanStaged f).tach[f] (s.fanStaged f).active.fans[f].tachGate := by
    rw [htach]
    exact rebind_rebinds _ _
  rw [hcommit]
  exact ⟨fanStaged_contacts s f, hrebinds, fun k hk => modify_get_other _ _ hk, hdemand, howned, hfollows, hpursues,
    fanEventFrame_reply (fanEventFrame_tellFan f hframe (s.fanTold f)) t r⟩

/-! ## Doors (R128) and the gallery -/

section
variable (s : State) (d : Fin 4)

/-- The state with the loaded door item and its contacts, before the door looks whether it is wanted secure. -/
def State.doorStaged : State := (s.storeItem (.door d)).configureContacts fun i =>
  decide (i = doorInput d 0) || decide (i = doorInput d 1) || decide (i = doorInput d 2)

theorem doorStaged_contacts : TakesSettings s (s.doorStaged d) (threeInputs (doorInput d 0)
    (s.doorStaged d).active.doors[d].closed (s.doorStaged d).active.doors[d].bolted (s.doorStaged d).active.doors[d].push) := by
  refine configureContacts_takes (s.storeItem (.door d)) (fun i => ?_) fun i k hi hk => contactSetting_door hi hk
  simp only [Bool.or_eq_true, decide_eq_true_eq, Fin.ext_iff, doorInput, or_assoc]
  exact Iff.rfl

theorem recomputeSecure_event (p : State) :
    let a := p.doorEvent (DoorUnit.recomputeSecure p.ctx d)
    (∃ wanted : Bool, (wanted = true ↔ SecureWanted p.active p.doors.reach d p.doors.doors[d]) ∧
      p.doors.doors[d].TakesSecure a.doors.doors[d] p.now p.regs.seconds p.active.doors[d] wanted) ∧
    DoorEventKeeps p a d := by
  obtain ⟨hdoor, hkeeps⟩ := doorEvent_change p d fun u item e => e.takeSecure p.ctx item (wantsSecure p.active u.reach d e)
  refine ⟨⟨_, wantsSecure_iff p.active p.doors.reach d p.doors.doors[d], ?_⟩, hkeeps⟩
  have htakes := takeSecure_spec p.ctx p.active.doors[d] (wantsSecure p.active p.doors.reach d p.doors.doors[d]) p.doors.doors[d]
  rw [← hdoor] at htakes
  exact htakes

theorem loadGallery_eq : s.loadGallery = { s.storeItem .gallery with doors := { s.doors with pressure :=
    if (s.storeItem .gallery).active.gallery.pressureChannel = s.active.gallery.pressureChannel then s.doors.pressure
    else { status := .none, average := none } } } := by
  unfold State.loadGallery
  simp only
  split <;> rfl

end

/-! ## The link (R164) -/

section
variable (s : State) (port : Port)

/-- A port under the loaded link item. -/
def State.portLoaded : PortState := (s.link.get port).load s.now (portEnabled s.active port) (portEnabled (s.storeItem .link).active port)

theorem loadLink_port : s.loadLink.link.get port = s.portLoaded port := by
  cases port <;> rfl

theorem begins_linkChanged (p : PortState) (now : Nat) : linkChanged p (p.begins now) = false :=
  linkChanged_of_neighbour (offerHello_neighbour p)

theorem disabled_linkChanged (p : PortState) : linkChanged p p.disabled = p.neighbour.isSome := by
  unfold linkChanged PortState.disabled PortState.goDown
  cases p.neighbour <;> rfl

/-- A load changes the link where it disables a port that has a neighbour. -/
theorem load_linkChanged (p : PortState) (now : Nat) (before after : Bool) :
    linkChanged p (p.load now before after) = (before && !after && p.neighbour.isSome) := by
  cases before <;> cases after
  · exact linkChanged_of_neighbour rfl
  · exact begins_linkChanged p now
  · exact disabled_linkChanged p
  · exact linkChanged_of_neighbour rfl

/-- What a load makes of a port. -/
theorem load_spec (o : PortState) (now : Nat) (before after : Bool) :
    let n := o.load now before after
    (before = after → n = o) ∧
    (before = false → after = true → ∃ m, OffersHello o m ∧ n = { m with helloDue := some (now + 1000) }) ∧
    (before = true → after = false → n = { o with
      neighbour := none, agingDue := none, receiving := [], ignoring := false, receiveQueue := [], transmitQueue := []
      pendingHold := none, holdDue := none, holdShown := 0, helloDue := none, holdRepeatDue := none, holdMark := false }) := by
  refine ⟨fun h => if_pos h, fun hbefore hafter => ?_, fun hbefore hafter => ?_⟩ <;> subst before <;> subst after
  · exact ⟨_, offerHello_offers o, rfl⟩
  · rfl

theorem raiseIf_twice (r : Registers) (x y : Bool) (c : Cause) :
    (r.raiseIf x c).raiseIf y c = if x = true ∨ y = true then r.raise c else r := by
  cases x <;> cases y
  · rfl
  · rfl
  · rfl
  · show { r with attention := r.attention ||| flagBit c.bit true ||| flagBit c.bit true } = r.raise c
    rw [BitVec.or_assoc, BitVec.or_self]
    rfl

theorem loadLink_regs : s.loadLink.regs =
    (s.regs.raiseIf (linkChanged s.link.up (s.portLoaded .up)) .link).raiseIf
      (linkChanged s.link.down (s.portLoaded .down)) .link := rfl

end

/-- Settles O52: what a LOAD makes of a fan, a door, the gallery and the ports of the link. -/
theorem loadedFansDoorsGalleryAndLinkAct : Obligations.LoadedFansDoorsGalleryAndLinkAct := by
  refine fun t s => ⟨fun f h _ => loadFan_acts h, fun d h => loadCard_acts h fun r => ?_, fun h => loadCard_acts h fun r => ?_,
    fun h => loadCard_acts h fun r => ?_⟩
  · obtain ⟨hsecure, hreach, hpressure, hframe⟩ := recomputeSecure_event d (s.doorStaged d)
    exact ⟨doorStaged_contacts s d, hsecure, hreach, hpressure, doorEventFrame_reply hframe t r⟩
  · exact congrArg (State.reply t r) (loadGallery_eq s)
  · refine ⟨fun port => ?_, ?_, rfl⟩
    · have hport : ((s.commit .link).reply t r).link.get port = s.portLoaded port := loadLink_port s port
      dsimp only
      rw [hport]
      exact load_spec _ _ _ _
    · refine (loadLink_regs s).trans ((raiseIf_twice s.regs _ _ .link).trans ?_)
      rw [State.portLoaded, State.portLoaded]
      exact congrArg₂ (fun x y => if x = true ∨ y = true then s.regs.raise .link else s.regs)
        (load_linkChanged _ _ _ _) (load_linkChanged _ _ _ _)

end Sys2Proof.Machine

/-! What the records of the status image show (section 10.5). -/

namespace Sys2Proof.Machine

/-! ## Words of a record -/

/-- The word of a record at an offset. -/
def wordAt (l : List Word) (offset : Nat) : Word := l[offset / 2]?.getD 0

/-- The doubleword of a record at an offset. -/
def longAt (l : List Word) (offset : Nat) : DWord := wordAt l (offset + 2) ++ wordAt l offset

theorem longAt_eq {l : List Word} {offset : Nat} {d : DWord} (hlow : wordAt l offset = dwordLow d)
    (hhigh : wordAt l (offset + 2) = dwordHigh d) : longAt l offset = d := by
  rw [longAt, hlow, hhigh, dwordHigh_append_dwordLow]

section
variable {size n k j : Nat} {f : Nat → List Word}

theorem length_flatMap_range (hf : ∀ k, (f k).length = size) (n : Nat) : ((List.range n).flatMap f).length = size * n := by
  induction n with
  | zero => rfl
  | succ n ih => rw [List.range_succ, List.flatMap_append, List.length_append, ih, List.flatMap_singleton, hf, Nat.mul_succ]

theorem tableIndex_lt (hk : k < n) (hj : j < size) : size * k + j < size * n :=
  calc size * k + j < size * k + size := Nat.add_lt_add_left hj _
    _ = size * (k + 1) := (Nat.mul_succ size k).symm
    _ ≤ size * n := Nat.mul_le_mul_left size hk

/-- The words of a table whose entries have the same size. -/
theorem getElem?_flatMap_range (hf : ∀ k, (f k).length = size) (hk : k < n) (hj : j < size) :
    ((List.range n).flatMap f)[size * k + j]? = (f k)[j]? := by
  have hlength := length_flatMap_range hf
  induction n with
  | zero => exact absurd hk (Nat.not_lt_zero k)
  | succ n ih =>
    rw [List.range_succ, List.flatMap_append, List.flatMap_singleton]
    obtain hlt | rfl : k < n ∨ k = n := by omega
    · rw [List.getElem?_append_left (by rw [hlength]; exact tableIndex_lt hlt hj), ih hlt]
    · rw [List.getElem?_append_right (by rw [hlength]; exact Nat.le_add_right _ _), hlength, Nat.add_sub_cancel_left]

end

theorem isEmpty_eq_decide {α : Type} [DecidableEq α] (l : List α) : l.isEmpty = decide (l = []) := by
  cases l <;> rfl

/-! ## Channels -/

theorem channelRecord_shows (h : Word) (item : ChannelItem) (e : Channel) :
    let w := wordAt (h :: channelBody item e)
    let long := longAt (h :: channelBody item e)
    w 2 = packed item.kind.code ((item.zone.map (·.val)).getD 255) ∧ w 4 = packed e.status.code e.band.code ∧
    w 6 = (flagBit 0 (decide (e.history = [])) ||| flagBit 1 e.summary ||| flagBit 2 e.out ||| flagBit 3 e.zero.isSome |||
      wordOf 0 (BitVec.ofNat 8 e.history.length)) ∧
    w 8 = BitVec.ofInt 16 (e.history.getLast?.getD 0) ∧
    w 10 = (if e.history = [] then 0 else BitVec.ofInt 16 (averageOf e.history)) ∧
    w 12 = BitVec.ofNat 16 item.zeroCount ∧ w 14 = BitVec.ofNat 16 e.lastCount ∧
    long 16 = BitVec.ofNat 32 e.windowLength ∧ long 20 = e.windowTime := by
  refine ⟨rfl, rfl, ?_, rfl, ?_, rfl, rfl, longAt_eq rfl rfl, longAt_eq rfl rfl⟩
  · rw [← isEmpty_eq_decide]
    rfl
  · show BitVec.ofInt 16 ((average e.history).getD 0) = _
    rw [average, isEmpty_eq_decide]
    by_cases hempty : e.history = []
    · rw [if_pos hempty, decide_eq_true hempty]
      rfl
    · rw [if_neg hempty, decide_eq_false hempty]
      rfl

/-! ## Fans -/

theorem queuePosition_of_not_mem {q : List (Fin 8)} {f : Fin 8} (h : f ∉ q) : queuePosition q f = 0 :=
  if_neg (mt List.contains_iff_mem.mp h)

theorem queuePosition_append {x y : List (Fin 8)} {f : Fin 8} (h : f ∉ x) : queuePosition (x ++ f :: y) f = x.length + 1 := by
  have hmem : (x ++ f :: y).contains f = true := List.contains_iff_mem.mpr (List.mem_append_right _ List.mem_cons_self)
  rw [queuePosition, if_pos hmem, List.idxOf_append_of_notMem h, List.idxOf_cons_self]

theorem packed_zero_or_one (speed : Nat) : packed 0 speed ||| flagBit 0 true = packed 1 speed := by
  unfold packed wordOf
  rw [BitVec.or_assoc]
  rfl

theorem fanRecord_shows (h : Word) (item : FanItem) (queue : List (Fin 8)) (f : Fin 8) (e : Fan) :
    let w := wordAt (h :: fanBody item queue f e)
    let long := longAt (h :: fanBody item queue f e)
    let flag (b : Bool) : Nat := if b then 1 else 0
    w 2 = packed item.role.code e.state.code ∧ w 4 = packed (flag e.out) e.cause.code ∧
    w 6 = packed e.owner.code e.demand ∧
    (e.target = .stop → w 8 = 0) ∧
    (∀ dir speed, e.target = .run dir speed → w 8 = (packed speed 0 ||| flagBit 8 (decide (dir = .rev)))) ∧
    (∀ dir speed, e.request = .manual dir speed → w 10 = (packed speed 0 ||| flagBit 8 (decide (dir = .rev)))) ∧
    (e.request = .auto → w 10 = 0x0200) ∧
    (e.state = .starting ∨ e.state = .running → w 12 = (packed 1 e.target.speed ||| flagBit 1 e.reverse)) ∧
    (e.state ≠ .starting → e.state ≠ .running → w 12 = flagBit 1 e.reverse) ∧
    w 14 = (flagBit 0 e.running ||| flagBit 1 e.fault ||| flagBit 2 e.localSwitch) ∧
    (f ∉ queue → w 16 = packed 0 (flag (decide (e.state = .starting)))) ∧
    (∀ x y, queue = x ++ f :: y → f ∉ x → w 16 = packed (x.length + 1) (flag (decide (e.state = .starting)))) ∧
    w 18 = flagBit 0 e.underspeed ∧ w 20 = BitVec.ofNat 16 e.lastRpm ∧ long 22 = e.entered := by
  intro w long flag
  have htarget : w 8 = targetWord e.target := rfl
  have hrequest : w 10 = requestWord e.request := rfl
  have houtput : w 12 = (packed 0 e.duty ||| flagBit 0 e.state.runOn ||| flagBit 1 e.reverse) := rfl
  have hplace : w 16 = packed (queuePosition queue f) (flag (decide (e.state = .starting))) := rfl
  refine ⟨rfl, rfl, rfl, fun ht => ?_, fun dir speed ht => ?_, fun dir speed hr => ?_, fun hr => ?_, fun hs => ?_,
    fun hstarting hrunning => ?_, rfl, fun hf => ?_, fun x y hq hx => ?_, rfl, rfl, longAt_eq rfl rfl⟩
  · rw [htarget, ht]
    rfl
  · rw [htarget, ht]
    rfl
  · rw [hrequest, hr]
    rfl
  · rw [hrequest, hr]
    rfl
  · have hon : e.state.runOn = true := by rcases hs with hs | hs <;> rw [hs] <;> rfl
    rw [houtput, Fan.duty, hon, if_pos rfl, packed_zero_or_one]
  · have hoff : e.state.runOn = false := by
      unfold FanState.runOn
      split
      next hs => exact absurd hs hstarting
      next hs => exact absurd hs hrunning
      · rfl
    rw [houtput, Fan.duty, hoff, if_neg nofun]
    exact BitVec.zero_or
  · rw [hplace, queuePosition_of_not_mem hf]
  · rw [hplace, hq, queuePosition_append hx]

/-! ## Doors and zones -/

theorem boltOn_eq (st : DoorState) : st.boltOn = decide (st = .bolting ∨ st = .secured ∨ st = .forced) := by
  cases st <;> rfl

theorem doorRecord_shows (h : Word) (niche : Nat) (e : Door) :
    let w := wordAt (h :: doorBody niche e)
    let long := longAt (h :: doorBody niche e)
    let flag (b : Bool) : Nat := if b then 1 else 0
    w 2 = packed e.state.code (flag e.secureMode) ∧ w 4 = packed (flag e.secureWanted) (flag e.boltFault) ∧
    w 6 = (flagBit 0 e.forcedFlag ||| flagBit 1 e.heldOpenFlag ||| flagBit 2 e.assistTimeoutFlag ||| packed 0 e.path.code) ∧
    w 8 = (flagBit 0 (decide (e.state = .bolting ∨ e.state = .secured ∨ e.state = .forced)) ||| flagBit 1 e.assist |||
      flagBit 8 e.closed ||| flagBit 9 e.bolted ||| flagBit 10 e.push) ∧
    w 10 = BitVec.ofNat 16 niche ∧ long 12 = e.entered := by
  refine ⟨rfl, rfl, rfl, ?_, rfl, longAt_eq rfl rfl⟩
  rw [← boltOn_eq]
  rfl

theorem zoneRecord_shows (h : Word) (e : Zone) :
    let w := wordAt (h :: zoneBody e)
    let long := longAt (h :: zoneBody e)
    let flag (b : Bool) : Nat := if b then 1 else 0
    w 2 = packed e.state.code e.worst.code ∧ w 4 = packed e.worst.demand (flag e.evidence) ∧
    w 6 = ((e.ident.map Ident.word).getD 0xFFFF) ∧ long 8 = (e.confirm.map (·.since)).getD 0 :=
  ⟨rfl, rfl, rfl, longAt_eq rfl rfl⟩

/-! ## Incidents -/

theorem incidentRecord_none (h : Word) :
    let w := wordAt (h :: incidentBody none)
    w 6 = 0xFFFF ∧ ∀ offset, 2 ≤ offset → offset / 2 ≠ 3 → w offset = 0 := by
  refine ⟨rfl, fun offset hlow hother => ?_⟩
  obtain ⟨k, hk⟩ : ∃ k, offset / 2 = k := ⟨_, rfl⟩
  have hpos : 1 ≤ k := by omega
  rw [hk] at hother
  show (h :: incidentBody none)[offset / 2]?.getD 0 = 0
  rw [hk]
  by_cases hend : 16 ≤ k
  · rw [List.getElem?_eq_none (by exact hend)]
    rfl
  · have hall : ∀ k : Fin 16, 1 ≤ k.val → k.val ≠ 3 → (0 :: incidentBody none)[k.val]?.getD 0 = 0 := by decide
    obtain ⟨j, rfl⟩ : ∃ j, k = j + 1 := ⟨k - 1, by omega⟩
    exact hall ⟨j + 1, by omega⟩ hpos hother

theorem incidentRecord_some (h : Word) (e : Incident) :
    let w := wordAt (h :: incidentBody (some e))
    let long := longAt (h :: incidentBody (some e))
    let flag (b : Bool) : Nat := if b then 1 else 0
    w 2 = packed e.state.code e.origin.code ∧
    w 4 = packed (if e.resumeAcknowledged then 2 else 1) (flag e.governing) ∧ w 6 = e.ident.word ∧
    w 8 = BitVec.ofNat 16 e.position ∧ w 10 = packed ((e.zone.map (·.val)).getD 255) e.template.val ∧
    w 12 = packed (flag e.mirror) e.clearLeft ∧ long 14 = e.start ∧ long 18 = e.lastRefresh ∧
    w 22 = packed ((e.evidence[0]?.map (·.val)).getD 255) ((e.evidence[1]?.map (·.val)).getD 255) ∧
    w 24 = packed ((e.evidence[2]?.map (·.val)).getD 255) ((e.evidence[3]?.map (·.val)).getD 255) ∧
    w 26 = BitVec.ofNat 16 e.deficit ∧ long 28 = e.entered :=
  ⟨rfl, rfl, rfl, rfl, rfl, rfl, longAt_eq rfl rfl, longAt_eq rfl rfl, rfl, rfl, rfl, longAt_eq rfl rfl⟩

/-! ## Ports -/

theorem byte_ofNat_boolNat (b : Bool) : BitVec.ofNat 8 (boolNat b) = if b then 1 else 0 := by
  cases b <;> rfl

theorem linkRecord_shows (h : Word) (on : Bool) (e : PortState) :
    let w := wordAt (h :: linkBody on e)
    let long := longAt (h :: linkBody on e)
    let flag (b : Bool) : Nat := if b then 1 else 0
    let enabled := flag on
    (e.neighbour = none → w 2 = packed enabled 0 ∧ w 4 = packed 255 0 ∧ w 6 = 0 ∧ w 8 = 0xFFFF ∧
      long 10 = 0 ∧ w 14 = packed 0 255) ∧
    (∀ k, e.neighbour = some k → w 2 = packed enabled 1 ∧ w 4 = wordOf k.hello.spanId k.hello.nicheCount ∧
      w 6 = k.hello.firstNiche ∧ w 8 = ((k.hello.governing.map Ident.word).getD 0xFFFF) ∧ long 10 = k.lastHeard ∧
      w 14 = wordOf (if k.migrated then 1 else 0) k.previous) ∧
    w 16 = wordOf (if e.holdDue.isSome then 1 else 0) e.holdShown ∧
    w 18 = packed (flag e.holdMark) e.receiveQueue.length ∧ w 20 = BitVec.ofNat 16 e.transmitQueue.length ∧
    w 22 = BitVec.ofNat 16 e.rejected ∧ w 24 = BitVec.ofNat 16 e.overrun ∧ w 26 = BitVec.ofNat 16 e.dropped := by
  simp only [← byte_ofNat_boolNat]
  unfold linkBody
  cases hn : e.neighbour with
  | none => exact ⟨fun _ => ⟨rfl, rfl, rfl, rfl, longAt_eq (d := 0) rfl rfl, rfl⟩, nofun, rfl, rfl, rfl, rfl, rfl, rfl⟩
  | some n =>
    refine ⟨nofun, fun k hk => ?_, rfl, rfl, rfl, rfl, rfl, rfl⟩
    cases hk
    exact ⟨rfl, rfl, rfl, rfl, longAt_eq rfl rfl, rfl⟩

/-! ## The span -/

theorem used_eq (u : IncidentUnit) : u.used = (List.finRange 4).countP fun k => u.slots[k].isSome :=
  List.countP_eq_length_filter.symm

/-- A word after a head of a record's words stands where it stands in the rest. -/
theorem wordAt_append (head tail : List Word) (offset : Nat) : wordAt (head ++ tail) (2 * head.length + offset) = wordAt tail offset := by
  have hindex : (2 * head.length + offset) / 2 = head.length + offset / 2 := by omega
  rw [wordAt, hindex, List.getElem?_append_right (Nat.le_add_right _ _), Nat.add_sub_cancel_left]
  rfl

/-- A word of an entry of a table in a record, where the table follows a head and goes before a tail. -/
theorem wordAt_table {head tail : List Word} {size : Nat} {f : Nat → List Word} (hf : ∀ k, (f k).length = size) {n k j : Nat}
    (hk : k < n) (hj : j < size) :
    wordAt (head ++ ((List.range n).flatMap f ++ tail)) (2 * head.length + 2 * (size * k + j)) = (f k)[j]?.getD 0 := by
  have hindex : 2 * (size * k + j) / 2 = size * k + j := by omega
  have htable := getElem?_flatMap_range hf hk hj
  rw [wordAt_append, wordAt, hindex]
  rw [List.getElem?_append_left (by rw [length_flatMap_range hf]; exact tableIndex_lt hk hj), htable]

theorem clearedWords_length (l : List ClearedEntry) (k : Nat) : (clearedWords l k).length = 3 := by
  unfold clearedWords
  split <;> rfl

theorem clearedWords_some {l : List ClearedEntry} {k : Nat} {e : ClearedEntry} (h : l[k]? = some e) :
    clearedWords l k = e.ident.word :: dwordWords e.joined := by
  simp only [clearedWords, h]

theorem clearedWords_none {l : List ClearedEntry} {k : Nat} (h : l[k]? = none) : clearedWords l k = [identNone, 0, 0] := by
  simp only [clearedWords, h]

theorem spanRecord_cleared (h : Word) (item : SpanItem) (u : IncidentUnit) {k j : Nat} (hk : k < 8) (hj : j < 3) :
    wordAt (h :: spanBody item u) (14 + 6 * k + 2 * j) = (clearedWords u.cleared k)[j]?.getD 0 := by
  have hoffset : 14 + 6 * k + 2 * j = 14 + 2 * (3 * k + j) := by omega
  rw [hoffset]
  have htable := wordAt_table (head := h :: [ wordOf item.spanId (BitVec.ofNat 8 item.nicheCount), wordNat item.firstNiche,
    identWord u.governingIdent, packed u.used (boolNat u.overflow), wordOf u.localSeq 0, wordNat u.overflowCount ])
    (tail := []) (clearedWords_length u.cleared) hk hj
  rw [List.append_nil] at htable
  exact htable

theorem spanRecord_shows (h : Word) (item : SpanItem) (u : IncidentUnit) :
    let w := wordAt (h :: spanBody item u)
    let long := longAt (h :: spanBody item u)
    let flag (b : Bool) : Nat := if b then 1 else 0
    w 2 = wordOf item.spanId (BitVec.ofNat 8 item.nicheCount) ∧ w 4 = BitVec.ofNat 16 item.firstNiche ∧
    w 6 = ((u.governingIdent.map Ident.word).getD 0xFFFF) ∧
    w 8 = packed ((List.finRange 4).countP fun k => u.slots[k].isSome) (flag u.overflow) ∧ w 10 = wordOf u.localSeq 0 ∧
    w 12 = BitVec.ofNat 16 u.overflowCount ∧
    ∀ k, k < 8 →
      (∀ e, u.cleared[k]? = some e → w (14 + 6 * k) = e.ident.word ∧ long (16 + 6 * k) = e.joined) ∧
      (u.cleared[k]? = none → w (14 + 6 * k) = 0xFFFF ∧ long (16 + 6 * k) = 0) := by
  intro w long flag
  refine ⟨rfl, rfl, rfl, ?_, rfl, rfl, fun k hk => ?_⟩
  · rw [← used_eq]
    rfl
  have hident := spanRecord_cleared h item u hk (j := 0) (by decide)
  have hlow := spanRecord_cleared h item u hk (j := 1) (by decide)
  have hhigh := spanRecord_cleared h item u hk (j := 2) (by decide)
  rw [show 14 + 6 * k + 2 * 1 = 16 + 6 * k by omega] at hlow
  rw [show 14 + 6 * k + 2 * 2 = 16 + 6 * k + 2 by omega] at hhigh
  refine ⟨fun e he => ?_, fun hnone => ?_⟩
  · rw [clearedWords_some he] at hident hlow hhigh
    exact ⟨hident, longAt_eq hlow hhigh⟩
  · rw [clearedWords_none hnone] at hident hlow hhigh
    exact ⟨hident, longAt_eq (d := 0) hlow hhigh⟩

/-! ## The gallery -/

theorem galleryCount_eq (cfg : ActiveConfig) (reach : List ReachEntry) : (galleryEntries cfg reach).length =
    reach.countP fun r => decide (r.position ≤ galleryNiche cfg + cfg.span.galleryReach) &&
      decide (galleryNiche cfg ≤ r.position + cfg.span.galleryReach) := by
  rw [galleryEntries, ← List.countP_eq_length_filter]
  refine congrArg (fun p => List.countP p reach) (funext fun r => ?_)
  rw [← Bool.decide_and]
  exact decide_eq_decide.mpr (distance_le_iff _ _ _)

/-- The doors in a set of states, as a number with a bit for each. -/
def doorSet (f : DoorState → Bool) (u : DoorUnit) : Nat :=
  (bitsOf 4 fun n => if h : n < 4 then f u.doors[n].state else false).toNat

theorem doorSet_testBit (f : DoorState → Bool) (u : DoorUnit) (n : Nat) : (doorSet f u).testBit n =
    (List.finRange 4).any fun d => decide (n = d.val) && f u.doors[d].state := by
  have hbit : (doorSet f u).testBit n = (bitsOf 4 fun n => if h : n < 4 then f u.doors[n].state else false).getLsbD n := rfl
  rw [hbit, bitsOf_getLsbD (by decide), Bool.eq_iff_iff, List.any_eq_true]
  constructor
  · intro h
    rw [Bool.and_eq_true, decide_eq_true_eq] at h
    obtain ⟨hn, hf⟩ := h
    rw [dif_pos hn] at hf
    exact ⟨⟨n, hn⟩, List.mem_finRange _, by rw [Bool.and_eq_true]; exact ⟨decide_eq_true rfl, hf⟩⟩
  · rintro ⟨d, -, h⟩
    rw [Bool.and_eq_true, decide_eq_true_eq] at h
    obtain ⟨rfl, hf⟩ := h
    rw [Bool.and_eq_true, decide_eq_true_eq, dif_pos d.isLt]
    exact ⟨d.isLt, hf⟩

theorem packed_getLsbD (low high n : Nat) : (packed low high).getLsbD n =
    if n < 8 then low.testBit n else decide (n < 16) && high.testBit (n - 8) := by
  unfold packed wordOf
  rw [BitVec.getLsbD_or, BitVec.getLsbD_shiftLeft, BitVec.getLsbD_setWidth, BitVec.getLsbD_setWidth, BitVec.getLsbD_ofNat,
    BitVec.getLsbD_ofNat]
  by_cases hlow : n < 8
  · have hword : n < 16 := by omega
    simp [hlow, hword]
  · by_cases hword : n < 16
    · have hhigh : n - 8 < 8 := by omega
      have hhigh' : n - 8 < 16 := by omega
      simp [hlow, hword, hhigh, hhigh']
    · simp [hlow, hword]

theorem packed_zero : packed 0 0 = 0 := by decide

theorem galleryRecord_shows (h : Word) (cfg : ActiveConfig) (u : DoorUnit) :
    let w := wordAt (h :: galleryBody cfg u)
    let long := longAt (h :: galleryBody cfg u)
    let flag (b : Bool) : Nat := if b then 1 else 0
    (∀ n, n < 16 → (w 4).getLsbD n = (List.finRange 4).any fun d =>
      (decide (n = d.val) && decide (u.doors[d].state = .opening)) ||
      (decide (n = 8 + d.val) && (decide (u.doors[d].state = .openLeaf) || decide (u.doors[d].state = .heldOpen)))) ∧
    (u.demand = .idle → w 2 = 0) ∧ (u.demand = .pressurise → w 2 = packed 1 cfg.gallery.pressuriseSpeed) ∧
    (u.demand = .relief → w 2 = packed 2 cfg.gallery.reliefSpeed) ∧
    (u.demand = .outflow → w 2 = packed 3 cfg.gallery.outflowSpeed) ∧
    (let niche := cfg.span.firstNiche + cfg.span.galleryNiche
     let reach := cfg.span.galleryReach
     w 6 = BitVec.ofNat 16 (u.reach.countP fun r =>
       decide (r.position ≤ niche + reach) && decide (niche ≤ r.position + reach))) ∧
    w 8 = packed u.pressure.status.code (flag u.pressure.average.isSome) ∧
    w 10 = BitVec.ofInt 16 (u.pressure.average.getD 0) ∧ long 12 = u.demandEntered := by
  intro w long flag
  have hdemand : w 2 = packed u.demand.code (gallerySpeed cfg.gallery u.demand) := rfl
  have hdoors : w 4 = packed (doorSet (fun st => decide (st = .opening)) u) (doorSet DoorState.isOpen u) := rfl
  refine ⟨fun n hn => ?_, fun hd => ?_, fun hd => ?_, fun hd => ?_, fun hd => ?_, ?_, rfl, rfl, longAt_eq rfl rfl⟩
  · rw [hdoors, packed_getLsbD, decide_eq_true hn, Bool.true_and, doorSet_testBit, doorSet_testBit]
    have hopen (d : Fin 4) : u.doors[d].state.isOpen =
        (decide (u.doors[d].state = .openLeaf) || decide (u.doors[d].state = .heldOpen)) := by
      cases u.doors[d].state <;> rfl
    split
    next hlow =>
      refine congrArg (fun p => List.any _ p) (funext fun d => ?_)
      have hnot : ¬n = 8 + d.val := by omega
      rw [decide_eq_false hnot, Bool.false_and, Bool.or_false]
    next hhigh =>
      refine congrArg (fun p => List.any _ p) (funext fun d => ?_)
      have hnot : ¬n = d.val := by omega
      have hplace : n - 8 = d.val ↔ n = 8 + d.val := by omega
      rw [hopen, decide_eq_false hnot, Bool.false_and, Bool.false_or, decide_eq_decide.mpr hplace]
  · rw [hdemand, hd]
    exact packed_zero
  · rw [hdemand, hd]
    rfl
  · rw [hdemand, hd]
    rfl
  · rw [hdemand, hd]
    rfl
  · exact congrArg wordNat (galleryCount_eq cfg u.reach)

/-! ## The placement -/

theorem listEntryWords_length (l : List ListEntry) (k : Nat) : (listEntryWords l k).length = 2 := by
  unfold listEntryWords
  split <;> rfl

theorem listEntryWords_some {l : List ListEntry} {k : Nat} {e : ListEntry} (h : l[k]? = some e) :
    listEntryWords l k = [packed e.fan.val e.action.code, packed e.action.speed 0 ||| flagBit 8 e.standsFor.isSome |||
      wordNat ((e.standsFor.map fun f => f.val + 1).getD 0) <<< 9] := by
  simp only [listEntryWords, h]

theorem listEntryWords_none {l : List ListEntry} {k : Nat} (h : l[k]? = none) : listEntryWords l k = [packed 255 0, 0] := by
  simp only [listEntryWords, h]

/-- The words of a placement before its list. -/
def placementHead (r : PlacementRecord) : List Word :=
  [ identWord (r.governing.map (·.ident)), wordNat ((r.governing.map (·.position)).getD 0),
    packed ((r.governing.map (·.template.val)).getD 0) (boolNat ((r.governing.map (·.mirror)).getD false)) ]

/-- The fans of a placement whose entries are not met, and whether fans are missing. -/
def unmetWord (r : PlacementRecord) : Word :=
  bitsOf 8 (fun n => r.unmetFans.any fun f => f.val == n) ||| flagBit 8 (decide (0 < r.deficit))

/-- The words of a placement after its list. -/
def placementTail (r : PlacementRecord) : List Word :=
  [packed r.running r.unmet, unmetWord r, wordNat r.deficit] ++ dwordWords r.time

theorem placementBody_eq (h : Word) (r : PlacementRecord) : h :: placementBody r =
    h :: placementHead r ++ ((List.range 8).flatMap (listEntryWords r.list) ++ placementTail r) := by
  unfold placementTail
  rw [← List.append_assoc, ← List.append_assoc]
  rfl

theorem placementRecord_entry (h : Word) (r : PlacementRecord) {k j : Nat} (hk : k < 8) (hj : j < 2) :
    wordAt (h :: placementBody r) (8 + 4 * k + 2 * j) = (listEntryWords r.list k)[j]?.getD 0 := by
  have hoffset : 8 + 4 * k + 2 * j = 8 + 2 * (2 * k + j) := by omega
  rw [hoffset, placementBody_eq]
  exact wordAt_table (head := h :: placementHead r) (listEntryWords_length r.list) hk hj

theorem placementRecord_tail (h : Word) (r : PlacementRecord) (offset : Nat) :
    wordAt (h :: placementBody r) (40 + offset) = wordAt (placementTail r) offset := by
  rw [placementBody_eq, ← List.append_assoc]
  have hlength : (h :: placementHead r ++ (List.range 8).flatMap (listEntryWords r.list)).length = 20 := by
    rw [List.length_append, length_flatMap_range (listEntryWords_length r.list)]
    rfl
  have htail := wordAt_append (h :: placementHead r ++ (List.range 8).flatMap (listEntryWords r.list)) (placementTail r) offset
  rwa [hlength] at htail

theorem unmetWord_getLsbD (r : PlacementRecord) (n : Nat) : (unmetWord r).getLsbD n =
    ((List.finRange 8).any (fun f => decide (f ∈ r.unmetFans) && decide (n = f.val)) || (decide (n = 8) && decide (0 < r.deficit))) := by
  have hfans : (decide (n < 8) && r.unmetFans.any fun f => f.val == n) =
      (List.finRange 8).any fun f => decide (f ∈ r.unmetFans) && decide (n = f.val) := by
    rw [Bool.eq_iff_iff]
    simp only [Bool.and_eq_true, decide_eq_true_eq, List.any_eq_true, beq_iff_eq, List.mem_finRange, true_and]
    constructor
    · rintro ⟨-, f, hf, rfl⟩
      exact ⟨f, hf, rfl⟩
    · rintro ⟨f, hf, rfl⟩
      exact ⟨f.isLt, f, hf, rfl⟩
  rw [unmetWord, BitVec.getLsbD_or, bitsOf_getLsbD (by decide), flagBit_getLsbD (by decide), hfans, Bool.and_comm (decide (0 < _))]

theorem placementRecord_shows (h : Word) (r : PlacementRecord) :
    let w := wordAt (h :: placementBody r)
    let long := longAt (h :: placementBody r)
    let flag (b : Bool) : Nat := if b then 1 else 0
    (r.governing = none → w 2 = 0xFFFF ∧ w 4 = 0 ∧ w 6 = 0) ∧
    (∀ g, r.governing = some g → w 2 = g.ident.word ∧ w 4 = BitVec.ofNat 16 g.position ∧
      w 6 = packed g.template.val (flag g.mirror)) ∧
    (∀ k, k < 8 →
      (∀ e, r.list[k]? = some e → w (8 + 4 * k) = packed e.fan.val e.action.code ∧
        let detail (speed : Nat) : Word := packed speed 0 ||| flagBit 8 e.standsFor.isSome |||
          wordNat ((e.standsFor.map fun f => f.val + 1).getD 0) <<< 9
        (e.action = .keep ∨ e.action = .stop → w (10 + 4 * k) = detail 0) ∧
        (∀ dir speed, e.action = .run dir speed → w (10 + 4 * k) = detail speed)) ∧
      (r.list[k]? = none → w (8 + 4 * k) = packed 255 0 ∧ w (10 + 4 * k) = 0)) ∧
    w 40 = packed r.running r.unmet ∧
    (∀ n, n < 16 → (w 42).getLsbD n = ((List.finRange 8).any (fun f => decide (f ∈ r.unmetFans) && decide (n = f.val)) ||
      (decide (n = 8) && decide (0 < r.deficit)))) ∧
    w 44 = BitVec.ofNat 16 r.deficit ∧ long 46 = r.time := by
  intro w long flag
  have hident : w 2 = identWord (r.governing.map (·.ident)) := rfl
  have hposition : w 4 = wordNat ((r.governing.map (·.position)).getD 0) := rfl
  have htemplate : w 6 = packed ((r.governing.map (·.template.val)).getD 0) (boolNat ((r.governing.map (·.mirror)).getD false)) := rfl
  have htail := placementRecord_tail h r
  refine ⟨fun hg => ?_, fun g hg => ?_, fun k hk => ?_, htail 0, fun n _ => ?_, htail 4, longAt_eq (htail 6) (htail 8)⟩
  · rw [hident, hposition, htemplate, hg]
    exact ⟨rfl, rfl, rfl⟩
  · rw [hident, hposition, htemplate, hg]
    exact ⟨rfl, rfl, rfl⟩
  · have hentry : w (8 + 4 * k) = _ := placementRecord_entry h r hk (j := 0) (by decide)
    have hdetail : wordAt (h :: placementBody r) (8 + 4 * k + 2 * 1) = _ := placementRecord_entry h r hk (by decide)
    rw [show 8 + 4 * k + 2 * 1 = 10 + 4 * k by omega] at hdetail
    refine ⟨fun e he => ?_, fun hnone => ?_⟩
    · rw [listEntryWords_some he] at hentry hdetail
      refine ⟨hentry, fun ha => hdetail.trans ?_, fun dir speed ha => hdetail.trans ?_⟩
      · rcases ha with ha | ha <;> rw [ha] <;> rfl
      · rw [ha]
        rfl
    · rw [listEntryWords_none hnone] at hentry hdetail
      exact ⟨hentry, hdetail⟩
  · rw [show w 42 = unmetWord r from htail 2]
    exact unmetWord_getLsbD r n

/-- Settles O12: the words of each record show the state of its block, and read as zero while the part does not run. -/
theorem theImageRecordsShowTheBlocks : Obligations.TheImageRecordsShowTheBlocks := by
  intro s word long small flag
  refine ⟨fun hstopped r offset => recordWords_of_not_running hstopped r _, fun hrunning => ?_⟩
  have hwords (r : RecordId) : s.recordWords r = wordOf s.cm.sequences[r.place] r.kindCode :: s.recordBody r := if_pos hrunning
  have hword (r : RecordId) : word r = wordAt (wordOf s.cm.sequences[r.place] r.kindCode :: s.recordBody r) := by
    rw [← hwords]
    rfl
  have hlong (r : RecordId) : long r = longAt (wordOf s.cm.sequences[r.place] r.kindCode :: s.recordBody r) := by
    rw [← hwords]
    rfl
  simp only [hword, hlong]
  refine ⟨fun r => rfl, fun c => channelRecord_shows _ _ _, fun f => fanRecord_shows _ _ _ _ _, fun d => doorRecord_shows _ _ _,
    fun z => zoneRecord_shows _ _,
    fun k => ⟨fun hnone => ?_, fun e he => ?_⟩, fun p => linkRecord_shows _ _ _, spanRecord_shows _ _ _,
    galleryRecord_shows _ _ _, placementRecord_shows _ _⟩
  · rw [show s.recordBody (.incident k) = incidentBody none from congrArg incidentBody hnone]
    exact incidentRecord_none _
  · rw [show s.recordBody (.incident k) = incidentBody (some e) from congrArg incidentBody he]
    exact incidentRecord_some _ e

end Sys2Proof.Machine

/-! The checks of the configuration items and the meaning of their fields (R14, R18, R19, section 10.2). -/

namespace Sys2Proof.Machine

/-! ## Single checks -/

/-- Every check of a list passes. -/
def Passes (l : List ItemCheck) : Prop := ∀ c ∈ l, c.ok = true

/-- A check of a list fails, at a field and for a reason. -/
def Fails (l : List ItemCheck) (k : Nat) (reason : ValReason) : Prop := ∃ c ∈ l, c.ok = false ∧ c.field = k ∧ c.reason = reason

section
variable {w : Nat → Word} {k lo hi count niches : Nat} {reason : ValReason} {c : ItemCheck} {l m : List ItemCheck}

@[simp] theorem passes_nil : Passes [] := fun _ h => absurd h List.not_mem_nil

@[simp] theorem passes_cons : Passes (c :: l) ↔ c.ok = true ∧ Passes l := List.forall_mem_cons

@[simp] theorem passes_append : Passes (l ++ m) ↔ Passes l ∧ Passes m := List.forall_mem_append

@[simp] theorem rangeCheck_ok : (rangeCheck w k lo hi).ok = true ↔ lo ≤ (w k).toNat ∧ (w k).toNat ≤ hi := by
  simp [rangeCheck]

@[simp] theorem itemCheck_ok (ok : Bool) : (itemCheck k reason ok).ok = ok := rfl

@[simp] theorem indexCheck_ok : (indexCheck w k count).ok = true ↔ (w k).toNat < count ∨ (w k).toNat = 255 := by
  simp [indexCheck]

@[simp] theorem passes_nicheChecks : Passes (nicheChecks w k niches) ↔ (w k).toNat ≤ 7 ∧ (w k).toNat < niches := by
  simp [nicheChecks]

@[simp] theorem contactCheck_ok : (contactCheck w k).ok = true ↔ (lowByte (w k)).toNat ≤ 1 ∧ (highByte (w k)).toNat ≤ 3 := by
  simp [contactCheck]

theorem entryCheck_ok : (entryCheck w k).ok = true ↔ (lowByte (w k)).toNat ≤ 2 ∨ ((lowByte (w k)).toNat ≤ 4 ∧
    1 ≤ (highByte (w k)).toNat ∧ (highByte (w k)).toNat ≤ 100) := by
  simp only [entryCheck, itemCheck_ok, Bool.and_eq_true, Bool.or_eq_true, decide_eq_true_eq]
  omega

theorem word_le (v : Word) : v.toNat ≤ 65535 := Nat.le_of_lt_succ v.isLt

end

/-! ## The items that pass -/

section
variable (cfg : ActiveConfig) (w : Nat → Word)

theorem passes_span : Passes (itemChecks cfg .span w) ↔ (1 ≤ (w 0).toNat ∧ (w 0).toNat ≤ 254) ∧ (w 1).toNat ≤ 1023 ∧
    (1 ≤ (w 2).toNat ∧ (w 2).toNat ≤ 8) ∧ (w 1).toNat + (w 2).toNat ≤ 1024 ∧ (w 3).toNat ≤ 7 ∧ (w 3).toNat < (w 2).toNat ∧
    (w 4).toNat ≤ 15 ∧ (w 5).toNat ≤ 15 ∧ (1 ≤ (w 6).toNat ∧ (w 6).toNat ≤ 15) ∧ (1 ≤ (w 7).toNat ∧ (w 7).toNat ≤ 4) ∧
    (w 8).toNat ≤ 1 := by
  simp [itemChecks, spanChecks, and_assoc]

theorem passes_gate (g : Fin 4) : Passes (itemChecks cfg (.gate g) w) ↔ (w 0).toNat ≤ 3 ∧ 1 ≤ (w 1).toNat := by
  simp [itemChecks, word_le]

theorem passes_channel (c : Fin 12) : Passes (itemChecks cfg (.channel c) w) ↔ (w 0).toNat ≤ 5 ∧
    ((w 1).toNat ≤ 7 ∨ (w 1).toNat = 255) ∧ (w 2).toNat ≤ 3 ∧ (w 3).toNat ≤ 2 ∧ (w 5).toInt ≠ 0 ∧ (w 5).toInt ≠ -32768 ∧
    (w 6).toNat < (w 7).toNat ∧ (1 ≤ (w 9).toNat ∧ (w 9).toNat ≤ 16) ∧ (w 11).toInt < (w 10).toInt ∧
    (w 10).toInt ≤ (w 12).toInt ∧ (w 13).toInt < (w 12).toInt ∧ (w 14).toNat ≤ 1 := by
  simp only [itemChecks, channelChecks, passes_cons, passes_nil, rangeCheck_ok, indexCheck_ok, itemCheck_ok, Bool.and_eq_true,
    decide_eq_true_eq, Nat.zero_le, true_and, and_true, and_assoc, Nat.lt_succ_iff]

theorem passes_zone (z : Fin 8) : Passes (itemChecks cfg (.zone z) w) ↔ ((w 0).toNat ≤ 7 ∧ (w 0).toNat < cfg.span.nicheCount) ∧
    ((w 1).toNat ≤ 7 ∧ (w 1).toNat < cfg.span.nicheCount) ∧ (w 0).toNat ≤ (w 2).toNat ∧ (w 2).toNat ≤ (w 1).toNat ∧
    (w 3).toNat ≤ 120 ∧ (w 4).toNat ≤ 7 ∧ (w 5).toNat ≤ 1 := by
  simp only [itemChecks, zoneChecks, passes_cons, passes_append, passes_nil, passes_nicheChecks, rangeCheck_ok, itemCheck_ok,
    Bool.and_eq_true, decide_eq_true_eq, Nat.zero_le, true_and, and_true, and_assoc]
  constructor
  · rintro ⟨h0, hniche0, h1, hniche1, -, -, hfirst, hlast, hrest⟩
    exact ⟨h0, hniche0, h1, hniche1, hfirst, hlast, hrest⟩
  · rintro ⟨h0, hniche0, h1, hniche1, hfirst, hlast, hrest⟩
    exact ⟨h0, hniche0, h1, hniche1, hfirst.trans hlast, hlast.trans h1, hfirst, hlast, hrest⟩

theorem passes_fan (f : Fin 8) : Passes (itemChecks cfg (.fan f) w) ↔ (w 0).toNat ≤ 1 ∧
    ((w 1).toNat ≤ 7 ∧ (w 1).toNat < cfg.span.nicheCount) ∧ ((w 2).toNat ≤ 3 ∨ (w 2).toNat = 255) ∧
    (1 ≤ (w 3).toNat ∧ (w 3).toNat ≤ 8) ∧ 1 ≤ (w 4).toNat ∧ (1 ≤ (w 5).toNat ∧ (w 5).toNat ≤ 100) ∧ (w 6).toNat ≤ 120 ∧
    (1 ≤ (w 7).toNat ∧ (w 7).toNat ≤ 60) ∧ (w 8).toNat ≤ 600 ∧ (w 9).toNat ≤ 1 ∧ (w 10).toNat ≤ 1 ∧
    (1 ≤ (w 11).toNat ∧ (w 11).toNat ≤ 100) ∧ (1 ≤ (w 12).toNat ∧ (w 12).toNat ≤ 100) ∧ (w 11).toNat ≤ (w 12).toNat ∧
    ((lowByte (w 13)).toNat ≤ 1 ∧ (highByte (w 13)).toNat ≤ 3) ∧ ((lowByte (w 14)).toNat ≤ 1 ∧ (highByte (w 14)).toNat ≤ 3) ∧
    ((lowByte (w 15)).toNat ≤ 1 ∧ (highByte (w 15)).toNat ≤ 3) := by
  simp only [itemChecks, fanChecks, passes_cons, passes_append, passes_nil, passes_nicheChecks, rangeCheck_ok, indexCheck_ok,
    itemCheck_ok, contactCheck_ok, decide_eq_true_eq, Nat.zero_le, word_le, true_and, and_true, and_assoc, List.cons_append,
    Nat.lt_succ_iff]

theorem targetIndex_eq_some_iff {n : Nat} {v : Word} {i : Fin n} : targetIndex n v = some i ↔ v.toNat = i.val := by
  unfold targetIndex
  split
  next h => rw [Option.some.injEq, Fin.ext_iff]
  next h => exact iff_of_false nofun fun hi => h (by omega)

theorem targetIndex_eq_none_iff {n : Nat} {v : Word} : targetIndex n v = none ↔ n ≤ v.toNat := by
  unfold targetIndex
  split
  next h => exact iff_of_false nofun (Nat.not_le.mpr h)
  next h => exact iff_of_true rfl (Nat.le_of_not_lt h)

theorem passes_gallery : Passes (itemChecks cfg .gallery w) ↔ (w 0).toNat ≤ 100 ∧ (w 1).toNat ≤ 100 ∧ (w 2).toNat ≤ 100 ∧
    ((w 3).toNat = 255 ∨ ∃ c : Fin 12, (w 3).toNat = c.val ∧ cfg.channels[c].kind = .pressure) := by
  have hchannel : (Passes (galleryChecks cfg w)) ↔ (w 0).toNat ≤ 100 ∧ (w 1).toNat ≤ 100 ∧ (w 2).toNat ≤ 100 ∧
      ((w 3).toNat < 12 ∨ (w 3).toNat = 255) ∧ ∀ c, targetIndex 12 (w 3) = some c → cfg.channels[c].kind = .pressure := by
    unfold galleryChecks indexOrNone
    rw [passes_append]
    cases targetIndex 12 (w 3) with
    | none => simp
    | some c => simp [and_assoc]
  rw [show itemChecks cfg .gallery w = galleryChecks cfg w from rfl, hchannel]
  refine and_congr_right fun _ => and_congr_right fun _ => and_congr_right fun _ => ?_
  constructor
  · rintro ⟨hlt | hnone, hkind⟩
    · exact .inr ⟨⟨(w 3).toNat, hlt⟩, rfl, hkind _ (targetIndex_eq_some_iff.mpr rfl)⟩
    · exact .inl hnone
  · rintro (hnone | ⟨c, hc, hkind⟩)
    · refine ⟨.inr hnone, fun c hc => ?_⟩
      have hval := targetIndex_eq_some_iff.mp hc
      omega
    · refine ⟨.inl (by omega), fun c' hc' => ?_⟩
      obtain rfl : c = c' := Fin.ext (hc.symm.trans (targetIndex_eq_some_iff.mp hc'))
      exact hkind

theorem passes_door (d : Fin 4) : Passes (itemChecks cfg (.door d) w) ↔ ((w 0).toNat ≤ 7 ∧ (w 0).toNat < cfg.span.nicheCount) ∧
    (w 1).toNat ≤ 1 ∧ (1 ≤ (w 2).toNat ∧ (w 2).toNat ≤ 10) ∧ (w 3).toNat ≤ 3600 ∧ (1 ≤ (w 4).toNat ∧ (w 4).toNat ≤ 30) ∧
    (1 ≤ (w 5).toNat ∧ (w 5).toNat ≤ 60) ∧ ((lowByte (w 6)).toNat ≤ 1 ∧ (highByte (w 6)).toNat ≤ 3) ∧
    ((lowByte (w 7)).toNat ≤ 1 ∧ (highByte (w 7)).toNat ≤ 3) ∧ ((lowByte (w 8)).toNat ≤ 1 ∧ (highByte (w 8)).toNat ≤ 3) := by
  simp [itemChecks, doorChecks, and_assoc]

theorem passes_template (t : Fin 8) : Passes (itemChecks cfg (.template t) w) ↔
    (∀ k, k < 15 → (lowByte (w k)).toNat ≤ 2 ∨ ((lowByte (w k)).toNat ≤ 4 ∧
      1 ≤ (highByte (w k)).toNat ∧ (highByte (w k)).toNat ≤ 100)) ∧ (w 15).toNat ≤ 1 ∧ (w 16).toNat ≤ 8 := by
  have hentries : Passes ((List.range 15).map (entryCheck w)) ↔ ∀ k, k < 15 → (entryCheck w k).ok = true := by
    simp [Passes]
  simp only [itemChecks, templateChecks, passes_append, hentries, entryCheck_ok]
  simp

theorem passes_link : Passes (itemChecks cfg .link w) ↔ (w 0).toNat ≤ 1 ∧ (w 1).toNat ≤ 1 := by
  simp [itemChecks]

theorem passes_named (c : Fin 12) : Passes (namedByChecks cfg (.channel c) w) ↔
    (cfg.gallery.pressureChannel = some c → (w 0).toNat = 4) := by
  simp [namedByChecks, Decidable.imp_iff_not_or]

end

/-! ## The reasons of a refusal -/

section
variable (cfg : ActiveConfig) (w : Nat → Word)

theorem fails_niche_range {r : ItemRef} {k : Nat} (h : (r = .span ∧ k = 3) ∨ (∃ z, r = .zone z ∧ (k = 0 ∨ k = 1 ∨ k = 2)) ∨
    (∃ f, r = .fan f ∧ k = 1) ∨ ∃ d, r = .door d ∧ k = 0) : Fails (itemChecks cfg r w) k .range ↔ 7 < (w k).toNat := by
  obtain ⟨rfl, rfl⟩ | ⟨z, rfl, rfl | rfl | rfl⟩ | ⟨f, rfl, rfl⟩ | ⟨d, rfl, rfl⟩ := h
  · simp [Fails, itemChecks, spanChecks, nicheChecks, rangeCheck, itemCheck]
  · simp [Fails, itemChecks, zoneChecks, nicheChecks, rangeCheck, itemCheck]
  · simp [Fails, itemChecks, zoneChecks, nicheChecks, rangeCheck, itemCheck]
  · simp [Fails, itemChecks, zoneChecks, nicheChecks, rangeCheck, itemCheck]
  · simp [Fails, itemChecks, fanChecks, nicheChecks, rangeCheck, itemCheck, indexCheck, contactCheck]
  · simp [Fails, itemChecks, doorChecks, nicheChecks, rangeCheck, itemCheck, contactCheck]

theorem fails_span_reference : Fails (itemChecks cfg .span w) 3 .reference ↔ (w 2).toNat ≤ (w 3).toNat := by
  simp [Fails, itemChecks, spanChecks, nicheChecks, rangeCheck, itemCheck]

theorem fails_niche_reference {r : ItemRef} {k : Nat} (h : (∃ z, r = .zone z ∧ (k = 0 ∨ k = 1)) ∨ (∃ f, r = .fan f ∧ k = 1) ∨
    ∃ d, r = .door d ∧ k = 0) : Fails (itemChecks cfg r w) k .reference ↔ cfg.span.nicheCount ≤ (w k).toNat := by
  obtain ⟨z, rfl, rfl | rfl⟩ | ⟨f, rfl, rfl⟩ | ⟨d, rfl, rfl⟩ := h
  · simp [Fails, itemChecks, zoneChecks, nicheChecks, rangeCheck, itemCheck]
  · simp [Fails, itemChecks, zoneChecks, nicheChecks, rangeCheck, itemCheck]
  · simp [Fails, itemChecks, fanChecks, nicheChecks, rangeCheck, itemCheck, indexCheck, contactCheck]
  · simp [Fails, itemChecks, doorChecks, nicheChecks, rangeCheck, itemCheck, contactCheck]

theorem fails_zone_last (z : Fin 8) : Fails (itemChecks cfg (.zone z) w) 1 .order ↔ (w 1).toNat < (w 0).toNat := by
  simp [Fails, itemChecks, zoneChecks, nicheChecks, rangeCheck, itemCheck]

theorem fails_zone_centre (z : Fin 8) : Fails (itemChecks cfg (.zone z) w) 2 .order ↔
    (w 2).toNat < (w 0).toNat ∨ (w 1).toNat < (w 2).toNat := by
  simp [Fails, itemChecks, zoneChecks, nicheChecks, rangeCheck, itemCheck, Decidable.imp_iff_not_or]

theorem find_door_range (d : Fin 4) (h : 7 < (w 0).toNat) :
    ∃ c, (itemChecks cfg (.door d) w).find? (fun c => !c.ok) = some c ∧ c.reason = .range := by
  refine ⟨rangeCheck w 0 0 7, List.find?_cons_of_pos ?_, rfl⟩
  rw [Bool.not_eq_true', ← Bool.not_eq_true, rangeCheck_ok]
  omega

end

end Sys2Proof.Machine

/-! What the fields of a stored configuration item mean, and where its words stand (R14, section 10.2). -/

namespace Sys2Proof.Machine

/-! ## Single fields -/

/-- What a word says of a contact. -/
def ContactIs (c : ContactSetting) (v : Word) : Prop := (c.activeLow = true ↔ lowByte v = 1) ∧
  (highByte v = 0 → c.debounceMs = 0) ∧ (highByte v = 1 → c.debounceMs = 4) ∧
  (highByte v = 2 → c.debounceMs = 16) ∧ (highByte v = 3 → c.debounceMs = 64)

theorem contactOfWord_is (v : Word) : ContactIs (contactOfWord v) v := by
  have hdebounce (b : Byte) (h : highByte v = b) : (contactOfWord v).debounceMs = match b.toNat with
      | 0 => 0
      | 1 => 4
      | 2 => 16
      | _ => 64 := by
    subst h
    rfl
  exact ⟨beq_iff_eq, hdebounce 0, hdebounce 1, hdebounce 2, hdebounce 3⟩

theorem flag_iff {v : Word} : (v == 1) = true ↔ v = 1 := beq_iff_eq

theorem action_ofCode {b c : Byte} (h : b = c) : Action.ofCode b = Action.ofCode c := congrArg Action.ofCode h

/-! ## Items -/

section
variable {w : Nat → Word}

theorem gate_tick : ((w 0).toNat = 0 → (GateItem.ofWords w).tick = .ms1) ∧ ((w 0).toNat = 1 → (GateItem.ofWords w).tick = .ms10) ∧
    ((w 0).toNat = 2 → (GateItem.ofWords w).tick = .ms100) ∧ ((w 0).toNat = 3 → (GateItem.ofWords w).tick = .s1) := by
  unfold GateItem.ofWords
  refine ⟨fun h => ?_, fun h => ?_, fun h => ?_, fun h => ?_⟩ <;> simp only [h]

theorem channel_kind : ((w 0).toNat = 0 → (ChannelItem.ofWords w).kind = .co) ∧
    ((w 0).toNat = 1 → (ChannelItem.ofWords w).kind = .no2) ∧ ((w 0).toNat = 2 → (ChannelItem.ofWords w).kind = .opacity) ∧
    ((w 0).toNat = 3 → (ChannelItem.ofWords w).kind = .velocity) ∧
    ((w 0).toNat = 4 → (ChannelItem.ofWords w).kind = .pressure) ∧
    ((w 0).toNat = 5 → (ChannelItem.ofWords w).kind = .generic) := by
  unfold ChannelItem.ofWords
  refine ⟨fun h => ?_, fun h => ?_, fun h => ?_, fun h => ?_, fun h => ?_, fun h => ?_⟩ <;> simp only [h]

theorem channel_filter : ((w 3).toNat = 0 → (ChannelItem.ofWords w).filter = .off) ∧
    ((w 3).toNat = 1 → (ChannelItem.ofWords w).filter = .fast) ∧
    ((w 3).toNat = 2 → (ChannelItem.ofWords w).filter = .slow) := by
  unfold ChannelItem.ofWords
  refine ⟨fun h => ?_, fun h => ?_, fun h => ?_⟩ <;> simp only [h]

theorem fan_role : (FanItem.ofWords w).role = .gallery ↔ w 0 = 1 := by
  simp [FanItem.ofWords]

theorem fan_direction : (FanItem.ofWords w).normalDirection = .rev ↔ w 10 = 1 := by
  simp [FanItem.ofWords]

theorem template_entry (k : Fin 15) : (TemplateItem.ofWords w).entries[k] =
    { action := Action.ofCode (lowByte (w k.val)), speed := (highByte (w k.val)).toNat } := Vector.getElem_ofFn _

end

section
variable (cfg : ActiveConfig) (w : Nat → Word)

theorem store_gate (g : Fin 4) : (cfg.store (.gate g) w).gates[g] = GateItem.ofWords w := set_get_same _ _ _
theorem store_channel (c : Fin 12) : (cfg.store (.channel c) w).channels[c] = ChannelItem.ofWords w := set_get_same _ _ _
theorem store_zone (z : Fin 8) : (cfg.store (.zone z) w).zones[z] = ZoneItem.ofWords w := set_get_same _ _ _
theorem store_fan (f : Fin 8) : (cfg.store (.fan f) w).fans[f] = FanItem.ofWords w := set_get_same _ _ _
theorem store_door (d : Fin 4) : (cfg.store (.door d) w).doors[d] = DoorItem.ofWords w := set_get_same _ _ _
theorem store_template (t : Fin 8) : (cfg.store (.template t) w).templates[t] = TemplateItem.ofWords w := set_get_same _ _ _

end

/-- Settles O11: the checks pass exactly with legal fields, and a stored field means what its word says. -/
theorem itemsPassExactlyWithLegalFields : Obligations.ItemsPassExactlyWithLegalFields := by
  intro cfg w n i within niche contact passes fails contactIs
  have hcontact (k : Nat) : contactIs (contactOfWord (w k)) k := contactOfWord_is (w k)
  refine ⟨passes_span cfg w, passes_gate cfg w, passes_channel cfg w, passes_zone cfg w, passes_fan cfg w, passes_gallery cfg w,
    passes_door cfg w, passes_template cfg w, passes_link cfg w, passes_named cfg w,
    fun r k h => fails_niche_range cfg w h, fails_span_reference cfg w, fun r k h => fails_niche_reference cfg w h,
    find_door_range cfg w, fails_zone_last cfg w, fails_zone_centre cfg w,
    ⟨rfl, rfl, rfl, rfl, rfl, rfl, rfl, rfl, flag_iff⟩, fun g => ?_, fun c => ?_, fun z => ?_, fun f => ?_,
    ⟨rfl, rfl, rfl, fun c => targetIndex_eq_some_iff, rfl⟩, fun d => ?_, fun t => ?_, ⟨flag_iff, flag_iff⟩,
    fun m k => ⟨?_, rfl, rfl⟩, fun m k => ⟨fun _ => rfl, fun _ => rfl, fun _ => rfl, fun _ => rfl, fun _ => rfl, fun _ => rfl⟩⟩
  · rw [store_gate]
    obtain ⟨h0, h1, h2, h3⟩ := gate_tick (w := w)
    exact ⟨h0, h1, h2, h3, rfl⟩
  · rw [store_channel]
    obtain ⟨hco, hno2, hopacity, hvelocity, hpressure, hgeneric⟩ := channel_kind (w := w)
    obtain ⟨hoff, hfast, hslow⟩ := channel_filter (w := w)
    exact ⟨hco, hno2, hopacity, hvelocity, hpressure, hgeneric, fun z => targetIndex_eq_some_iff,
      fun h => Nat.mod_eq_of_lt (Nat.lt_succ_of_le h), hoff, hfast, hslow, rfl, rfl, rfl, rfl, rfl, rfl, rfl, rfl, rfl, rfl, flag_iff⟩
  · rw [store_zone]
    exact ⟨rfl, rfl, rfl, rfl, fun h => Nat.mod_eq_of_lt (Nat.lt_succ_of_le h), flag_iff⟩
  · rw [store_fan]
    exact ⟨fan_role, rfl, fun g => targetIndex_eq_some_iff, rfl, rfl, rfl, rfl, rfl, rfl, flag_iff, fan_direction, rfl, rfl,
      hcontact 13, hcontact 14, hcontact 15⟩
  · rw [store_door]
    exact ⟨rfl, flag_iff, rfl, rfl, rfl, rfl, hcontact 6, hcontact 7, hcontact 8⟩
  · rw [store_template]
    refine ⟨fun k => ?_, flag_iff, rfl⟩
    rw [template_entry]
    exact ⟨rfl, action_ofCode, action_ofCode, action_ofCode, action_ofCode, action_ofCode⟩
  · exact congrArg m.readWord (Nat.zero_add _)

end Sys2Proof.Machine

/-! Item validation and what the part is when it enters RUNNING (R13 to R15). -/

namespace Sys2Proof.Machine

/-! ## The order of the items (R14) -/

theorem startItemFrom_class {sizes : List Nat} {c n : Nat} {r : ItemRef} (h : startItemFrom sizes c n = some r) :
    c ≤ r.classNo := by
  induction sizes generalizing c n with
  | nil => exact nomatch h
  | cons size rest ih =>
    unfold startItemFrom at h
    split at h
    · exact (codes_of_ofCodes h).1.ge
    · exact (Nat.le_succ c).trans (ih h)

/-- Items come by class, and in a class by index. -/
theorem startItemFrom_order {sizes : List Nat} {c m n : Nat} {q r : ItemRef} (hmn : m < n) (hq : startItemFrom sizes c m = some q)
    (hr : startItemFrom sizes c n = some r) : q.classNo < r.classNo ∨ (q.classNo = r.classNo ∧ q.index < r.index) := by
  induction sizes generalizing c m n with
  | nil => exact nomatch hq
  | cons size rest ih =>
    unfold startItemFrom at hq hr
    split at hr
    next hn =>
      rw [if_pos (hmn.trans hn)] at hq
      obtain ⟨hqc, hqi⟩ := codes_of_ofCodes hq
      obtain ⟨hrc, hri⟩ := codes_of_ofCodes hr
      exact .inr ⟨hqc.trans hrc.symm, by rwa [hqi, hri]⟩
    next hn =>
      split at hq
      · obtain ⟨hqc, -⟩ := codes_of_ofCodes hq
        exact .inl (by rw [hqc]; exact startItemFrom_class hr)
      · exact ih (by omega) hq hr

theorem startItem_exists {n : Nat} (h : n < 47) : ∃ r, startItem n = some r := by
  have hall : ∀ k : Fin 47, (startItem k.val).isSome = true := by decide
  exact Option.isSome_iff_exists.mp (hall ⟨n, h⟩)

/-! ## One validation -/

section
variable {s : State} {item : ItemRef}

theorem exec_itemValidation (hvalidating : s.validating = true) (hitem : startItem s.regs.nextItem = some item) :
    exec .itemValidation s = .next (s.validateItem item) := by
  change execItemValidation s = _
  unfold execItemValidation
  rw [if_pos hvalidating, hitem]

theorem validateItem_fails {c : ItemCheck}
    (h : (itemChecks s.candidate item (itemField s.cm.bytes item)).find? (fun c => !c.ok) = some c) :
    s.validateItem item = { s with regs := s.regs.configFault item c.reason } := by
  simp only [State.validateItem, firstFailure, h]

/-- The state with the item stored in the candidate. -/
def State.itemStored (item : ItemRef) (s : State) : State :=
  { s with candidate := s.candidate.store item (itemField s.cm.bytes item)
           regs := { s.regs with nextItem := s.regs.nextItem + 1 } }

theorem validateItem_passes (h : ∀ c ∈ itemChecks s.candidate item (itemField s.cm.bytes item), c.ok = true) :
    s.validateItem item = if s.regs.nextItem + 1 < 47 then s.itemStored item else (s.itemStored item).enterRunning := by
  have hpasses := (firstFailure_none_iff _).mpr h
  simp only [State.validateItem, hpasses]
  rfl

end

/-! ## Fans when the part enters RUNNING (R86, R101) -/

/-- A fan with the levels of its contacts, and the clock of its rundown started. -/
def Fan.setContacts (x : Ctx) (running fault localSwitch : Bool) (e : Fan) : Fan :=
  { e with running := running, fault := fault, localSwitch := localSwitch, rundownFrom := x.now, entered := x.sec }

section
variable {x : Ctx} {f : Fin 8} {u : FanUnit}

theorem takeUp_oneFan (running fault localSwitch : Bool) : OneFan f u (u.takeUp x f running fault localSwitch) := by
  have hchange : OneFan f u (u.change f (Fan.setContacts x running fault localSwitch)) := change_oneFan rfl (fun _ => rfl) id
  unfold FanUnit.takeUp
  simp only
  split
  · exact (hchange.trans (enter_oneFan x f _ (st := .localPanel) nofun)).trans (claim_oneFan x f _)
  split
  · exact hchange.trans (enterStopping_oneFan x f _)
  · exact hchange

/-- A fan takes up its contacts from the levels of the inputs. -/
def FanUnit.takeLevels (x : Ctx) (levels : Vector Contact 36) (u : FanUnit) (f : Fin 8) : FanUnit :=
  u.takeUp x f levels[fanInput f 0].level levels[fanInput f 1].level levels[fanInput f 2].level

theorem foldl_takeLevels (levels : Vector Contact 36) (l : List (Fin 8)) (hl : l.Nodup) (u : FanUnit) :
    let v := l.foldl (FanUnit.takeLevels x levels) u
    v.zoneDemand = u.zoneDemand ∧ v.galleryDemand = u.galleryDemand ∧ (∀ f, f ∉ l → v.fans[f] = u.fans[f]) ∧
    ∀ f ∈ l, ∃ w : FanUnit, w.fans[f] = u.fans[f] ∧ v.fans[f] = (w.takeLevels x levels f).fans[f] := by
  induction l generalizing u with
  | nil => exact ⟨rfl, rfl, fun _ _ => rfl, nofun⟩
  | cons g l ih =>
    obtain ⟨hg, hl⟩ := List.nodup_cons.mp hl
    have hone : OneFan g u (u.takeLevels x levels g) := takeUp_oneFan _ _ _
    obtain ⟨hzones, hgallery, hothers, htaken⟩ := ih hl (u.takeLevels x levels g)
    refine ⟨hzones.trans hone.zoneDemand, hgallery.trans hone.galleryDemand, fun f hf => ?_, fun f hf => ?_⟩
    · obtain ⟨hfg, hfl⟩ := not_or.mp (mt List.mem_cons.mpr hf)
      exact (hothers f hfl).trans (hone.touches.other f hfg)
    · obtain rfl | hfl := List.mem_cons.mp hf
      · exact ⟨u, rfl, hothers f hg⟩
      · obtain ⟨w, hw, hv⟩ := htaken f hfl
        have hfg : f ≠ g := fun h => hg (h ▸ hfl)
        exact ⟨w, hw.trans (hone.touches.other f hfg), hv⟩

end

/-- A fan at rest with the levels of its contacts, as the part finds it. -/
def Fan.found (now : Nat) (running fault localSwitch : Bool) : Fan :=
  { Fan.reset with running := running, fault := fault, localSwitch := localSwitch, rundownFrom := now, entered := 0 }

/-- What a fan takes up from its contacts, in a part that enters RUNNING. -/
def TakesUpContacts (t : State) (item : FanItem) (e n : Fan) : Prop :=
  (e.localSwitch = true → n = { e.entering t item .localPanel .none with owner := .localPanel }) ∧
  (e.localSwitch = false → e.running = true → e.fault = true →
    n = (e.entering t item .stopping .none).entering t item .faulted .driveFault) ∧
  (e.localSwitch = false → e.running = true → e.fault = false → n = e.entering t item .stopping .none) ∧
  (e.localSwitch = false → e.running = false → n = e)

theorem takeUp_takesUp {t : State} (hsec : t.regs.seconds = 0) {f : Fin 8} {u : FanUnit} (hfan : u.fans[f] = Fan.reset)
    (running fault localSwitch : Bool) : TakesUpContacts t t.active.fans[f] (Fan.found t.now running fault localSwitch)
      (u.takeUp t.ctx f running fault localSwitch).fans[f] := by
  obtain ⟨v, hv⟩ : ∃ v, v = u.change f (Fan.setContacts t.ctx running fault localSwitch) := ⟨_, rfl⟩
  have hfound : v.fans[f] = Fan.found t.now running fault localSwitch := by
    rw [hv, change_same, hfan, Fan.found, ← hsec]
    rfl
  have htake : u.takeUp t.ctx f running fault localSwitch = if localSwitch then (v.enter t.ctx f .localPanel).claim t.ctx f
      else if running then v.enterStopping t.ctx f else v := by
    rw [hv]
    rfl
  have henters := enterStopping_of_stop (s := t) (f := f) (v := v) (by rw [hfound]; rfl)
  rw [hfound] at henters
  obtain ⟨-, hfaulted, -, hturns⟩ := henters
  rw [htake]
  refine ⟨fun hlocal => ?_, fun hlocal hrunning hfault => ?_, fun hlocal hrunning hfault => ?_, fun hlocal hrunning => ?_⟩
  · have hl : localSwitch = true := hlocal
    subst hl
    have howner : (v.enter t.ctx f .localPanel).ownerOf t.active f = .localPanel := by
      unfold FanUnit.ownerOf
      rw [enter_same, hfound]
      rfl
    have htarget : (v.enter t.ctx f .localPanel).targetOf t.active f = .stop := by
      rw [FanUnit.targetOf, howner]
    rw [if_pos rfl, claim_fan]
    show { (v.enter t.ctx f .localPanel).fans[f] with
      owner := (v.enter t.ctx f .localPanel).ownerOf t.active f, target := (v.enter t.ctx f .localPanel).targetOf t.active f } = _
    rw [howner, htarget, enter_same, hfound]
    rfl
  · have hl : localSwitch = false := hlocal
    have hr : running = true := hrunning
    rw [hl, hr, if_neg nofun, if_pos rfl]
    rw [hl, hr] at hfaulted
    exact hfaulted hfault
  · have hl : localSwitch = false := hlocal
    have hr : running = true := hrunning
    rw [hl, hr, if_neg nofun, if_pos rfl]
    rw [hl, hr] at hturns
    exact hturns hfault fun hrest => (nomatch hrest.1)
  · have hl : localSwitch = false := hlocal
    have hr : running = false := hrunning
    rw [hl, hr, if_neg nofun, if_neg nofun, hfound, hl, hr]

section
variable (x : Ctx) (levels : Vector Contact 36)

theorem fansEnterRunning_eq : FanUnit.enterRunning x levels = (List.finRange 8).foldl (FanUnit.takeLevels x levels) FanUnit.reset := rfl

theorem fansEnterRunning_demands : (FanUnit.enterRunning x levels).zoneDemand = Vector.replicate 8 0 ∧
    (FanUnit.enterRunning x levels).galleryDemand = .idle := by
  obtain ⟨hzones, hgallery, -⟩ := foldl_takeLevels (x := x) levels (List.finRange 8) (List.nodup_finRange 8) FanUnit.reset
  rw [← fansEnterRunning_eq] at hzones hgallery
  exact ⟨hzones, hgallery⟩

theorem fansReset_get (f : Fin 8) : FanUnit.reset.fans[f] = Fan.reset := Vector.getElem_replicate _

end

theorem fansEnterRunning_fan {t : State} (hsec : t.regs.seconds = 0) (levels : Vector Contact 36) (f : Fin 8) :
    TakesUpContacts t t.active.fans[f]
      (Fan.found t.now levels[fanInput f 0].level levels[fanInput f 1].level levels[fanInput f 2].level)
      (FanUnit.enterRunning t.ctx levels).fans[f] := by
  obtain ⟨-, -, -, htaken⟩ := foldl_takeLevels (x := t.ctx) levels (List.finRange 8) (List.nodup_finRange 8) FanUnit.reset
  obtain ⟨w, hw, hfan⟩ := htaken f (List.mem_finRange f)
  rw [fansEnterRunning_eq, hfan]
  exact takeUp_takesUp hsec (hw.trans (fansReset_get f)) _ _ _

/-- The fans that are unavailable when the part enters RUNNING. -/
theorem TakesUpContacts.unavailable {t : State} {item : FanItem} {now : Nat} {running fault localSwitch : Bool} {n : Fan}
    (h : TakesUpContacts t item (Fan.found now running fault localSwitch) n) :
    n.state.unavailable = (localSwitch || (running && fault)) := by
  obtain ⟨hlocal, hfaulted, hstopping, hstopped⟩ := h
  cases localSwitch
  · cases running
    · rw [hstopped rfl rfl]
      rfl
    · cases fault
      · rw [hstopping rfl rfl rfl]
        rfl
      · rw [hfaulted rfl rfl rfl]
        rfl
  · rw [hlocal rfl]
    rfl

theorem availabilityMail_reset (u : FanUnit) (f : Fin 8) :
    (availabilityMail FanUnit.reset u Mail.empty.availability)[f] = if u.fans[f].state.unavailable then [false] else [] := by
  have hget : (availabilityMail FanUnit.reset u Mail.empty.availability)[f] =
      if FanUnit.reset.fans[f].state.unavailable = u.fans[f].state.unavailable then Mail.empty.availability[f]
      else Mail.empty.availability[f] ++ [!u.fans[f].state.unavailable] := Vector.getElem_ofFn _
  have hempty : Mail.empty.availability[f] = [] := Vector.getElem_replicate _
  have hreset : FanUnit.reset.fans[f].state.unavailable = false := by
    rw [fansReset_get]
    rfl
  rw [hget, hempty, hreset]
  cases u.fans[f].state.unavailable <;> rfl

/-! ## The other blocks -/

theorem enteringMasks_eq : enteringMasks = #v[0x0FFF, 0x00FF, 0x000F, 0x00FF, 0x000F, 0x0003, 0x0007, 0] := by decide

theorem enteringMasks_marked (r : RecordId) : enteringMasks[r.maskWord].getLsbD r.maskBit = true := by
  cases r with
  | channel i => decide +revert
  | fan i => decide +revert
  | door i => decide +revert
  | zone i => decide +revert
  | incident i => decide +revert
  | link p => cases p <;> decide
  | span | gallery | placement => decide

theorem registers_enterRunning (r : Registers) : r.enterRunning = { r with
    runState := .running, seconds := 0, attention := r.attention ||| 0x0044, nextItem := 47 } := by
  have hraised : r.enterRunning = { r with
    runState := .running, seconds := 0, attention := r.attention ||| flagBit 6 true ||| flagBit 2 true, nextItem := 47 } := rfl
  rw [hraised, BitVec.or_assoc]
  rfl

theorem portEnterRunning_eq (now : Nat) (on : Bool) : PortState.enterRunning now on = {
    neighbour := none, agingDue := none, receiveQueue := [], transmitQueue := if on then [.hello] else []
    transmission := none, holdDue := none, holdShown := 0, helloDue := if on then some (now + 1000) else none
    holdRepeatDue := none, pendingHold := none, holdMark := false, ownLast := false, idleSince := now, receiving := []
    ignoring := false, rejected := 0, overrun := 0, dropped := 0 } := by
  cases on <;> rfl

theorem ofFn_at {α : Type} {n : Nat} (g : Fin n → α) (i : Fin n) : (Vector.ofFn g)[i] = g i := Vector.getElem_ofFn _

theorem replicate_at {α : Type} {n : Nat} (x : α) (i : Fin n) : (Vector.replicate n x)[i] = x := Vector.getElem_replicate _

/-- A fan of a part that has just entered RUNNING. -/
theorem entered_fan {t : State} (hsec : t.regs.seconds = 0) (hfans : t.fans = FanUnit.enterRunning t.ctx t.contacts)
    (hmail : t.mail.availability = availabilityMail FanUnit.reset t.fans Mail.empty.availability) (f : Fin 8) :
    let e := Fan.found t.now t.contacts[fanInput f 0].level t.contacts[fanInput f 1].level t.contacts[fanInput f 2].level
    TakesUpContacts t t.active.fans[f] e t.fans.fans[f] ∧ t.fans.zoneDemand[f] = 0 ∧
      t.mail.availability[f] = if e.localSwitch = true ∨ (e.running = true ∧ e.fault = true) then [false] else [] := by
  intro e
  have htakes := fansEnterRunning_fan hsec t.contacts f
  rw [← hfans] at htakes
  refine ⟨htakes, ?_, ?_⟩
  · rw [hfans, (fansEnterRunning_demands t.ctx t.contacts).1]
    exact replicate_at _ f
  · rw [hmail, availabilityMail_reset, htakes.unavailable]
    simp only [Bool.or_eq_true, Bool.and_eq_true]
    rfl

/-- A door of a part that has just entered RUNNING. -/
theorem entered_door {t : State} (hsec : t.regs.seconds = 0) (hdoors : t.doors = DoorUnit.enterRunning t.ctx t.contacts) (d : Fin 4) :
    let item := t.active.doors[d]
    let e := { Door.reset with
      secureMode := item.initialSecure, secureWanted := item.initialSecure, closed := t.contacts[doorInput d 0].level
      bolted := t.contacts[doorInput d 1].level, push := t.contacts[doorInput d 2].level, entered := 0 }
    e.TakesUp t.doors.doors[d] t.now 0 item := by
  intro item e
  have hctx : t.ctx = { cfg := t.active, now := t.now, sec := 0 } := by rw [State.ctx, hsec]
  have hdoor : (DoorUnit.enterRunning t.ctx t.contacts).doors[d] = (e.enter t.ctx .released).takeUp t.ctx item := by
    rw [hctx]
    exact ofFn_at _ d
  rw [hdoors, hdoor, ← hsec]
  exact takeUp_spec t.ctx item e

section
variable (s : State)

theorem enterRunning_cm : s.enterRunning.cm = { s.cm with
    masks := #v[0x0FFF, 0x00FF, 0x000F, 0x00FF, 0x000F, 0x0003, 0x0007, 0], sequences := Vector.replicate 41 0 } := by
  rw [← enteringMasks_eq]
  rfl

theorem enterRunning_marked (r : RecordId) : s.enterRunning.marked r = true := enteringMasks_marked r

theorem enterRunning_decks (d : Fin 4) : s.enterRunning.decks[d] = s.decks[d].enterRunning := mapTable_get s.decks _ d

theorem enterRunning_gates (g : Fin 4) : s.enterRunning.gates[g] = Gate.enterRunning s.candidate.gates[g] s.now := ofFn_at _ g

theorem enterRunning_contacts (i : Fin 36) :
    s.enterRunning.contacts[i] = s.contacts[i].enterRunning (contactSetting s.candidate i) := ofFn_at _ i

theorem enterRunning_measured (c : Fin 12) : s.enterRunning.measured[c] =
    s.measured[c].enterRunning s.candidate.channels[c].filter (some s.candidate.channels[c].gate) := ofFn_at _ c

theorem enterRunning_tach (f : Fin 8) :
    s.enterRunning.tach[f] = s.tach[f].enterRunning .fast s.candidate.fans[f].tachGate := ofFn_at _ f

theorem enterRunning_tables : (∀ c : Fin 12, s.enterRunning.channels[c] = Channel.reset) ∧
    (∀ z : Fin 8, s.enterRunning.zones[z] = Zone.reset) ∧ (∀ f : Fin 8, s.enterRunning.sref[f] = 0) ∧
    (∀ k : Fin 4, s.enterRunning.incidents.slots[k] = none) ∧ (∀ f : Fin 8, s.enterRunning.placement.available[f] = true) :=
  ⟨replicate_at _, replicate_at _, replicate_at _, replicate_at _, replicate_at _⟩

theorem enterRunning_ctx : s.enterRunning.ctx = { cfg := s.candidate, now := s.now, sec := 0 } := rfl

theorem enterRunning_fans : s.enterRunning.fans = FanUnit.enterRunning s.enterRunning.ctx s.enterRunning.contacts := by
  rw [enterRunning_ctx]
  simp only [State.enterRunning]

theorem enterRunning_doors : s.enterRunning.doors = DoorUnit.enterRunning s.enterRunning.ctx s.enterRunning.contacts := by
  rw [enterRunning_ctx]
  simp only [State.enterRunning]

theorem enterRunning_queue : s.enterRunning.fans.queue = [] := by
  rw [enterRunning_fans]
  exact (FanUnit.Wf.enterRunning _ _).2

theorem enterRunning_galleryDemand : s.enterRunning.fans.galleryDemand = .idle := by
  rw [enterRunning_fans]
  exact (fansEnterRunning_demands _ _).2

theorem enterRunning_mail : s.enterRunning.mail =
    { Mail.empty with availability := availabilityMail FanUnit.reset s.enterRunning.fans Mail.empty.availability } := by
  simp only [State.enterRunning]

theorem enterRunning_seconds : s.enterRunning.regs.seconds = 0 := by
  simp only [State.enterRunning]
  rfl

theorem enterRunning_port (p : Port) :
    s.enterRunning.link.get p = PortState.enterRunning s.now (portEnabled s.enterRunning.active p) := by
  cases p <;> rfl

/-- The rest of a part that enters RUNNING stays or starts afresh. -/
theorem enterRunning_frame {t : State} (ht : t = s.enterRunning) : t = { s with
    secondsDue := s.now + 1000, periodDue := false, regs := t.regs, cm := t.cm, candidate := t.active, active := t.active
    decks := t.decks, executor := none, lastGranted := 3, contacts := t.contacts, measured := t.measured, tach := t.tach
    gates := t.gates, sref := t.sref, channels := t.channels, zones := t.zones, fans := t.fans, doors := t.doors
    incidents := t.incidents, placement := t.placement, link := t.link, mail := t.mail } := by
  subst ht
  simp only [State.enterRunning]
  rfl

end

/-- Settles O9: the items are validated one by one, and the part enters RUNNING with the last. -/
theorem itemsAreValidatedAndThePartEntersRunning : Obligations.ItemsAreValidatedAndThePartEntersRunning := by
  refine ⟨⟨fun n hn => startItem_exists hn, fun m n q r hmn hq hr => startItemFrom_order hmn hq hr,
    fun s item hvalidating hitem => ⟨fun c hc => ?_, fun hpass hmore => ?_⟩⟩, fun s item hvalidating hlast hitem hpass => ?_⟩
  · have hexec := exec_itemValidation hvalidating hitem
    rw [validateItem_fails hc] at hexec
    exact ⟨_, hexec, rfl, rfl, rfl, rfl, raise_has _ .start, rfl⟩
  · rw [exec_itemValidation hvalidating hitem, validateItem_passes hpass, if_pos hmore]
    rfl
  · have hexec := exec_itemValidation hvalidating (by rw [hlast]; exact hitem)
    rw [validateItem_passes hpass, if_neg (by rw [hlast]; decide)] at hexec
    obtain ⟨p, hp⟩ : ∃ p, p = s.itemStored item := ⟨_, rfl⟩
    rw [← hp] at hexec
    have hactive : p.enterRunning.active = p.candidate := rfl
    have hregs : p.enterRunning.regs = _ := registers_enterRunning p.regs
    have hcm := enterRunning_cm p
    have hmarked := enterRunning_marked p
    have hdecks := enterRunning_decks p
    have hgates := enterRunning_gates p
    have hcontacts := enterRunning_contacts p
    have hmeasured := enterRunning_measured p
    have htach := enterRunning_tach p
    obtain ⟨hchannels, hzones, hsref, hslots, havailable⟩ := enterRunning_tables p
    have hfan := entered_fan (enterRunning_seconds p) (enterRunning_fans p) (by rw [enterRunning_mail])
    have hqueue := enterRunning_queue p
    have hgallery := enterRunning_galleryDemand p
    have hdoor := entered_door (enterRunning_seconds p) (enterRunning_doors p)
    have hdoors := enterRunning_doors p
    have hport := enterRunning_port p
    have hrelay : p.enterRunning.link.relay = true := rfl
    have hmail := enterRunning_mail p
    have hnow : p.enterRunning.now = p.now := rfl
    have hincidents : p.enterRunning.incidents = .reset := rfl
    have hplacement : p.enterRunning.placement = .reset := rfl
    have hframe := enterRunning_frame p rfl
    generalize p.enterRunning = t at *
    rw [hnow] at hfan hdoor
    refine ⟨t, hexec, by rw [hactive, hp]; rfl, by rw [hregs, hp]; rfl, by rw [hcm, hp]; rfl, hmarked, fun d => ?_, fun g => ?_,
      fun i => ?_, ⟨fun c => ?_, fun f => ⟨fun g hg => ?_, fun hg => ?_⟩⟩, hchannels, hzones, fun f => ?_, hqueue, hgallery,
      fun d => ?_, by rw [hdoors]; rfl, by rw [hdoors]; rfl, by rw [hdoors, State.ctx, hregs]; rfl, by rw [hdoors]; rfl, hslots,
      by rw [hincidents]; rfl, by rw [hincidents]; rfl, by rw [hincidents]; rfl, by rw [hincidents]; rfl,
      by rw [hplacement]; rfl, havailable, by rw [hplacement]; rfl, hrelay, fun port => ?_, by rw [hmail], ?_⟩
    · rw [hdecks, hp]
      rfl
    · rw [hgates, hactive, hp]
      rfl
    · rw [hcontacts, hactive, hp]
      rfl
    · rw [hmeasured, hactive, hp]
      rfl
    · rw [hactive] at hg
      rw [htach, hg, hp]
      rfl
    · rw [hactive] at hg
      rw [htach, hg, hp]
      rfl
    · obtain ⟨⟨hlocal, hfaulted, hstopping, hstopped⟩, hzone, hmailed⟩ := hfan f
      rw [hp] at hlocal hfaulted hstopping hstopped hmailed
      exact ⟨hlocal, hfaulted, hstopping, hstopped, hsref f, hzone, hmailed⟩
    · have htakes := hdoor d
      rw [hp] at htakes
      exact htakes
    · rw [hport, portEnterRunning_eq, hp]
      rfl
    · rw [hp] at hframe
      exact hframe

end Sys2Proof.Machine
